-- ==== Sys2Proof/Word.lean ====
section
/-! DEFINITION. The word types: bytes of packets and host memory, and the 40-bit words of working memory (R7). -/

namespace Sys2Proof

/-- A byte (B) is 8 bits (R7). -/
abbrev Byte := BitVec 8

/-- A word (w) is 40 bits (R7). -/
abbrev Word := BitVec 40

end Sys2Proof
end

