-- ==== Sys2Proof/Syntax.lean ====
section
/-! DEFINITION. The commands of the block: one constructor of `Instr` per row of spec/opcode_table.json.
A row that is a Lirov request says where the request arrived (`Via`) and what its execution meets outside the
block (`Ext`); a row that is an event carries what was measured. Log entry 4 states this convention. -/

namespace Sys2Proof

/-- The two vital ports (R243). -/
inductive Port where | a | b
deriving DecidableEq, Repr

/-- The two card ports and CONSOLE: the serial ports (R24). -/
inductive Serial where | cardA | cardB | console
deriving DecidableEq, Repr

/-- The owner of a pair of rings: slice `n` or the manager (Table 04-2, Table 04-4). -/
inductive Owner where | slice (n : Nat) | mgr
deriving DecidableEq, Repr

/-- How a DMA read ends when it fails (R167). -/
inductive DmaErr where | ur | ca | poisoned | timeout
deriving DecidableEq, Repr

/-- What one DMA read returns: the bytes of host memory from the address read, or a failure (R167). -/
inductive Dma where
  | data (bytes : List Byte)
  | fail (e : DmaErr)
deriving DecidableEq, Repr

/-- One frame on a vital port: what SDI carried, how many clock cycles SEL_N stayed low, and the level of CLK at the
falling edge of SEL_N (R244, R245). -/
structure Frame where
  bytes   : List Byte
  clocks  : Nat
  clkHigh : Bool
deriving DecidableEq, Repr

/-- Where a Lirov request comes from. A ring or CONSOLE request is the oldest one that the block holds
(RING_ENTRY_FETCH and RECEIVED_CHARACTER put it there); a push-window write and a vital frame carry theirs. -/
inductive Via where
  | ring (o : Owner)
  | push (n window : Nat) (tlp : List Byte)
  | console
  | vital (p : Port) (f : Frame)
deriving DecidableEq, Repr

/-- What one execution of a request meets outside the block's state: its DMA reads in order, whether its second
decision disagrees (R525), whether its reply is late for the rise of RDY on a vital port (R263), how often the lane work
of a key command, or its work in the hash units, ends in a fault-mode mismatch (R387, R415, R416), the working-memory words in
which it finds a double-bit error (R193), whether it ends in an internal fault (R122), the key slots whose cache entry shows a
double-bit error when the key is taken (R358), and, when an identity signature fails its verification inside the module (R383),
whether the known-answer tests after it pass. -/
structure Ext where
  reads  : List Dma
  split  : Bool
  late   : Bool
  misses : Nat
  bad    : List Nat
  fault  : Bool
  keyErrs : List Nat
  verify : Option Bool
deriving DecidableEq, Repr

/-- A self-test that fails: unit and test of Table 17-4; for unit 12 the port, for the others zero (R573). -/
structure TestFail where
  unit : Nat
  test : Nat
  sub  : Nat
deriving DecidableEq, Repr

/-- One mains cycle as measured from one positive-going crossing to the next (R42): the lowest amplitude in mV rms, the
period in ns, the negative-going crossing in ns after the start, and how many crossings of each kind. -/
structure MainsCycle where
  mvRms    : Nat
  periodNs : Nat
  negNs    : Nat
  pos      : Nat
  neg      : Nat
deriving DecidableEq, Repr

/-- A double-bit error that the hardware finds outside the execution of a request: in a release record (R319), or in the firmware
area (R193). -/
inductive Ecc where
  | record (ch seq : Nat)
  | firmware (addr : Nat)
deriving DecidableEq, Repr

/-- The double-bit errors that the hardware finds around the opening of a slot (R193, R319): before it opens, and while it is open. The
second is the one that the opening of the next slot meets, slot 0 of the next cycle among them. -/
structure SlotEcc where
  before : Option Ecc
  during : Option Ecc
deriving DecidableEq, Repr

/-- How the second decision of a record ends: both results agree, they disagree (R307), or the lane that recomputes
finds a fault-mode mismatch (R318). -/
inductive Second where | agree | split | mismatch
deriving DecidableEq, Repr

/-- What the lane work on a record ends in, and the words of working memory in which its fetches meet a double-bit error (R193). -/
structure LaneEnd (α : Type) where
  out : α
  bad : List Nat
deriving DecidableEq, Repr

/-- What a VP.POLL meets outside, and the record in which it finds a double-bit error (R319). -/
structure PollExt where
  x   : Ext
  bad : Option (Nat × Nat)
deriving DecidableEq, Repr

/-- The port whose held poll is answered, and the record in which that finds a double-bit error (R275, R319). -/
structure HeldPoll where
  port : Port
  bad  : Option (Nat × Nat)
deriving DecidableEq, Repr

/-- A frame whose SEL_N stays low too long: its port, and the level of CLK when SEL_N fell (R244, R247). -/
structure LowFrame where
  port    : Port
  clkHigh : Bool
deriving DecidableEq, Repr

/-- What goes with the firing of a source: backup ticks since the last reading, and whether main power fails before a transition to
DECOMMISSIONED that the firing begins has ended (R515). -/
structure Firing where
  ticks : Nat
  cut   : Bool
deriving DecidableEq, Repr

/-- The slice whose dirty-page maps have been swapped, and what the reads of the map words returned (R162, R163). -/
structure MapSwap where
  slice : Nat
  maps  : List Dma
deriving DecidableEq, Repr

/-- Which DMA read fails (R167, R169, R239). -/
inductive ReadKind where
  | ringFetch (o : Owner)
  | packet (o : Owner) (entry : List Byte)
  | input (v : Via)
  | binding (ch : Nat)
  | dirtyMap (n : Nat)
deriving DecidableEq, Repr

/-- What the writing of a completed reply meets: whether the write of the reply at RPL_ADDR or of the reply entry fails (R139,
R168), and what the reads of the dirty-page map words return, in order (R162, R169). -/
structure WriteEnd where
  reply : Option DmaErr
  maps  : List Dma
  entry : Option DmaErr
deriving DecidableEq, Repr

/-- What a power-up finds (R571): backup ticks since the last reading, whether the backup domain has valid contents, the
persisted copies whose CRC-32C fails (0 and 1 in backup-domain memory, 2 and 3 in flash; R65-R67, R87), those of which power loss
interrupted the write among them (Table 02-8), the key records of which it interrupted the write, each with whether that was
copy B (Table 09-10), the channels whose backup-domain copy of the highest sequence number is invalid (R321), the asserted
tamper sources and the failing self-tests. -/
structure PowerUp where
  ticks    : Nat
  backup   : Bool
  badCopies : List Nat
  torn     : List (Nat × Bool)
  badSeqs  : List Nat
  asserted : List Nat
  fails    : List TestFail
deriving DecidableEq, Repr

/-- What a HART transaction brings (R489, R499): an answer, or no response, or a communication error after retries. -/
inductive HartEnd where
  | answer (code status : Byte) (data : List Byte)
  | silent
  | error (code status : Byte) (data : List Byte)
deriving DecidableEq, Repr

/-- A fault of the multiplier: a fault-mode mismatch, a residue mismatch (R446), or a double-bit error in scratch memory
(R448); `kat` says that the known-answer tests after it pass (R446, R447). -/
inductive PkFault where
  | mode (kat : Bool)
  | residue (kat : Bool)
  | scratch
deriving DecidableEq, Repr

/-- The line levels that a receiver samples at 7/16, 8/16 and 9/16 of one bit time (R469); `true` is the idle level. -/
structure Samples where
  early : Bool
  mid   : Bool
  late  : Bool
deriving DecidableEq, Repr

/-- The commands of the block. The row of each constructor is named in LAWS.json. -/
inductive Instr where
  -- SYS, STAMP
  | sysInfo (v : Via) (x : Ext)
  | sysSelftest (v : Via) (x : Ext) (fails : List TestFail)
  | sysReset (v : Via) (x : Ext)
  | stampRead (v : Via) (x : Ext)
  | stampReport (v : Via) (x : Ext)
  -- SLICE
  | sliceCreate (v : Via) (x : Ext)
  | sliceBind (v : Via) (x : Ext)
  | sliceQuota (v : Via) (x : Ext)
  | sliceQuiesce (v : Via) (x : Ext)
  | quiesceComplete (n : Nat)
  | sliceResume (v : Via) (x : Ext)
  | sliceReset (v : Via) (x : Ext)
  | sliceResetComplete (n : Nat)
  | sliceRemove (v : Via) (x : Ext)
  | sliceStatus (v : Via) (x : Ext)
  | sliceEmigrate (v : Via) (x : Ext) (writeFails : Option DmaErr)
  | sliceImmigrate (v : Via) (x : Ext) (fault : Bool)
  | sliceReceipt (v : Via) (x : Ext)
  | sliceRefuse (v : Via) (x : Ext)
  -- CHANNEL, FIELD
  | channelInvalidate (v : Via) (x : Ext)
  | channelInvalidateComplete
  | channelStatus (v : Via) (x : Ext)
  | fieldCommand (v : Via) (x : Ext)
  | fieldCommandLoad (v : Via) (x : Ext)
  | bindingEntryFetch (ch : Nat) (bytes : List Byte)
  | firstDecision (ch seq : Nat) (e : LaneEnd Bool)
  | inSequenceCommit (ch seq : Nat)
  | secondDecision (ch seq : Nat) (e : LaneEnd Second)
  -- KEY
  | keyGen (v : Via) (x : Ext)
  | keyImport (v : Via) (x : Ext)
  | keyWrap (v : Via) (x : Ext)
  | keyUnwrap (v : Via) (x : Ext)
  | keyDerive (v : Via) (x : Ext)
  | keyDestroy (v : Via) (x : Ext)
  | keyDestroyComplete (slot : Nat)
  | keyAttr (v : Via) (x : Ext)
  | keyCacheLoad (slot : Nat) (okA okB : Bool)
  -- SEAL, HASH
  | sealOnce (v : Via) (x : Ext)
  | sealInit (v : Via) (x : Ext)
  | sealUpdate (v : Via) (x : Ext)
  | sealFinal (v : Via) (x : Ext)
  | sealAbort (v : Via) (x : Ext)
  | hashDigest (v : Via) (x : Ext) (mismatch : Bool)
  | segmentComplete (lane : Nat) (mismatch : Bool)
  -- BN, PK
  | bnMac (v : Via) (x : Ext)
  | bnMul (v : Via) (x : Ext)
  | bnModmul (v : Via) (x : Ext)
  | bnModinv (v : Via) (x : Ext)
  | bnModexp (v : Via) (x : Ext)
  | pkSign (v : Via) (x : Ext)
  | pkVerify (v : Via) (x : Ext)
  | pkAgree (v : Via) (x : Ext)
  | pkEncrypt (v : Via) (x : Ext)
  | pkDecrypt (v : Via) (x : Ext)
  | pkLoadCurve (v : Via) (x : Ext)
  | bottomTreeBuilt (slot : Nat)
  -- RNG
  | rngDraw (v : Via) (x : Ext)
  | drbgReseed
  | entropyTestFailure (test : Nat) (repeatPasses : Bool)
  -- LANE
  | laneRetire (v : Via) (x : Ext)
  | laneDrained (lane : Nat)
  | laneRestore (v : Via) (x : Ext)
  | laneTestComplete (lane : Nat) (pass : Bool)
  | probationComparison (lane : Nat) (clean : Bool)
  | probationIdleFeed (lane : Nat)
  | laneStatus (v : Via) (x : Ext)
  | domainIdleGate (domain : Nat)
  -- LOOP
  | loopRead (v : Via) (x : Ext)
  | loopReport (v : Via) (x : Ext)
  | loopHart (v : Via) (x : Ext)
  | loopAssign (v : Via) (x : Ext)
  | loopPower (v : Via) (x : Ext)
  | loopWindowEnd (loop : Nat) (first : Int) (rest : List Int)
  | hartTransaction (loop addr command : Nat) (e : HartEnd)
  | hartBurstFrame (loop addr : Nat)
  | loopSupplyLimit (loop : Nat)
  | loopFrontEndFault
  -- LOG
  | logRead (v : Via) (x : Ext)
  | logHead (v : Via) (x : Ext)
  | logClear (v : Via) (x : Ext)
  | stagingFlush (written : Bool) (lost : Option (Nat × Bool))
  -- ATTEST
  | attestDevice (v : Via) (x : Ext)
  | attestKey (v : Via) (x : Ext)
  -- CEREMONY
  | ceremonyStart (v : Via) (x : Ext)
  | ceremonyStep (v : Via) (x : Ext) (present : Bool) (atr : Option (List Byte))
  | cardApduResponse (card : Serial) (data : List Byte) (sw : Nat) (split : Bool) (fuseFails : List Nat)
  | atrTimeout (card : Serial) (atr : Option (List Byte))
  | cardRemoved (card : Serial)
  | cardOvercurrent (card : Serial)
  | ceremonyCancel (v : Via) (x : Ext)
  | ceremonyStatus (v : Via) (x : Ext)
  | ceremonyWindowExpiry
  | ceremonyOpenTimeout
  -- PEER
  | peerPairOffer (v : Via) (x : Ext)
  | peerPairAcceptance (v : Via) (x : Ext)
  | peerPairStep3 (v : Via) (x : Ext)
  | peerUnpair (v : Via) (x : Ext)
  | peerStatus (v : Via) (x : Ext)
  -- FW
  | fwLoad (v : Via) (x : Ext)
  | fwActivate (v : Via) (x : Ext)
  | fwStatus (v : Via) (x : Ext)
  -- TAMPER
  | tamperStatus (v : Via) (x : Ext)
  | tamperConfig (v : Via) (x : Ext)
  | sourceFires (i : Nat) (f : Firing)
  | commandProcessorRestart
  -- POWER
  | powerDomain (v : Via) (x : Ext)
  | domainSwitchOffComplete (domain : Nat)
  | domainSwitchOnComplete (domain : Nat) (powered : Bool)
  -- VP
  | vpOpen (v : Via) (x : Ext)
  | vpPoll (v : Via) (x : PollExt)
  | heldPollResponse (h : HeldPoll)
  | vpResync (v : Via) (x : Ext)
  | idleFrame (p : Port) (f : Frame)
  | fetch (p : Port) (f : Frame)
  | pendingReplyReady (p : Port)
  | vpFrameUnstarted (p : Port)
  | vioLow (p : Port)
  -- mains time
  | mainsCycleEnd (m : MainsCycle)
  | crossingMissing
  | acquireTimeout
  | stampIncrement
  | periodicPersistence (ticks : Nat)
  | slotOpen (ecc : SlotEcc)
  | auditSweep (reads : List Dma)
  | keySweeperVisit (okA okB : Bool) (corrected : Bool × Bool)
  -- host port
  | sqTail (o : Owner) (value : Nat)
  | ringEntryFetch (o : Owner) (entry packet : List Byte)
  | cqHead (o : Owner) (value : Nat)
  | replyEntryWrite (o : Owner) (e : WriteEnd)
  | sqCfg (o : Owner) (reply : Bool) (value : BitVec 64)
  | mgrEvent (value : BitVec 64)
  | dpmEnable (n : Nat) (value : BitVec 64)
  | dpmSwap (n : Nat)
  | dpmSwapDone (m : MapSwap)
  | msixUnmask (vector : Nat)
  | registerWrite (bar offset size : Nat) (value : BitVec 64)
  | powerStateChange (d3hot : Bool)
  | dmaReadFailure (k : ReadKind) (e : DmaErr)
  | pendingWriteComplete (n : Nat) (e : Option DmaErr)
  | linkLoss
  | hostLinkUp (rate width : Nat)
  -- resets and power
  | functionLevelReset (cause : Nat)
  | deviceReset (cause : Nat) (fails : List TestFail)
  | mainPowerUp (p : PowerUp)
  | moduleReady
  | shutdownWarning (ticks : Nat)
  | mainPowerLost
  | sourceClears (i : Nat)
  | vioRestored (p : Port)
  | selNLowTimeout (f : LowFrame)
  | modularMultiplicationBoundary (last : Bool) (fault : Option PkFault)
  | receivedCharacter (q : Serial) (start : Samples) (rest : List Samples)
deriving DecidableEq, Repr

end Sys2Proof
end

