-- ==== Sys2Proof/Decode.lean ====
section
/-! DEFINITION. Words as commands. No row of spec/opcode_table.json gives a bit of its command (every row's list of fields is
empty): a command reaches the block as a packet, a frame, a register write or an event on a pin. -/

namespace Sys2Proof

/-- The command that a word spells by the table's bits: none, for the table gives no bits (log entry 33). -/
def decodeTableWord (_nbits _w : Nat) : Option Instr := none

end Sys2Proof
end

