-- ==== Sys2Proof/Machine/Bytes.lean ====
section
/-! DEFINITION. Byte strings: integers as big-endian and little-endian bytes (R93, R129), slices of a payload, CRC-32C
(R259) and the CRC-8 and CRC-16 of the frame tables (Table 08-8). -/

namespace Sys2Proof.Machine

/-- The low 8 bits of a number. -/
def byte (n : Nat) : Byte := BitVec.ofNat 8 n

/-- `n` as `len` bytes, most significant first (R93). -/
def be : (len n : Nat) → List Byte
  | 0, _ => []
  | len + 1, n => byte (n / 256 ^ len) :: be len n

/-- The number that bytes spell, most significant first (R93). -/
def fromBe (bs : List Byte) : Nat := bs.foldl (fun a b => a * 256 + b.toNat) 0

/-- `n` as `len` bytes, least significant first (R129). -/
def le (len n : Nat) : List Byte := (be len n).reverse

/-- The number that bytes spell, least significant first (R129). -/
def fromLe (bs : List Byte) : Nat := fromBe bs.reverse

/-- `len` bytes of zero. -/
def zeros (len : Nat) : List Byte := List.replicate len 0#8

/-- `len` bytes from offset `at`, as far as they exist. -/
def slice (bs : List Byte) (at' len : Nat) : List Byte := (bs.drop at').take len

/-- `bs` cut or padded with zeros to `len` bytes. -/
def padTo (len : Nat) (bs : List Byte) : List Byte := (bs ++ zeros len).take len

/-- The big-endian integer of `len` bytes at an offset of a packet or payload (R93). -/
def fld (bs : List Byte) (at' len : Nat) : Nat := fromBe (slice bs at' len)

/-- The little-endian integer of `len` bytes at an offset of a host structure (R129). -/
def fldLe (bs : List Byte) (at' len : Nat) : Nat := fromLe (slice bs at' len)

/-- Whether every byte of a range is zero: the check of reserved fields (R94). -/
def zeroAt (bs : List Byte) (at' len : Nat) : Bool := (slice bs at' len).all (· == 0#8)

/-- Bit `i` of a number. -/
def bit (n i : Nat) : Bool := n / 2 ^ i % 2 == 1

/-- A flag as the number 0 or 1. -/
def b01 (b : Bool) : Nat := if b then 1 else 0

/-- A number with bit `i` set or cleared. -/
def setBit (n i : Nat) (v : Bool) : Nat := (if bit n i then n - 2 ^ i else n) + b01 v * 2 ^ i

/-- A count that stops at the largest value of its width (R554). -/
def sat (bits n : Nat) : Nat := min n (2 ^ bits - 1)

/-- Two byte strings combined byte by byte. -/
def xorBytes (a b : List Byte) : List Byte := List.zipWith (· ^^^ ·) a b

/-- The bytes of an ASCII string. -/
def ascii (s : String) : List Byte := s.toList.map (fun c => byte c.toNat)

/-- A list cut into pieces of `k` elements; `fuel` bounds the number of pieces. -/
def chunksOf {α : Type} (k : Nat) : (fuel : Nat) → List α → List (List α)
  | 0, _ => []
  | _, [] => []
  | fuel + 1, l => l.take k :: chunksOf k fuel (l.drop k)

/-- Pieces of `k` bytes; the last may be shorter. -/
def blocks (k : Nat) (bs : List Byte) : List (List Byte) := chunksOf k bs.length bs

/-- One bit step of CRC-32C, reflected (R259: polynomial 0x1EDC_6F41, so 0x82F6_3B78 when reflected). -/
def crc32cBit (c : BitVec 32) : BitVec 32 :=
  if c.getLsbD 0 then (c >>> 1) ^^^ 0x82F63B78#32 else c >>> 1

/-- `f` applied `n` times. -/
def times {α : Type} (f : α → α) : Nat → α → α
  | 0, x => x
  | n + 1, x => times f n (f x)

/-- CRC-32C with the parameters of Table 07-6. -/
def crc32c (bs : List Byte) : Nat :=
  ((bs.foldl (fun c b => times crc32cBit 8 (c ^^^ b.setWidth 32)) 0xFFFFFFFF#32) ^^^ 0xFFFFFFFF#32).toNat

/-- CRC-8, most significant bit first, no final exclusive-or (Table 08-8). -/
def crc8 (poly init : Byte) (bs : List Byte) : Byte :=
  bs.foldl (fun c b => times (fun c => if c.getLsbD 7 then (c <<< 1) ^^^ poly else c <<< 1) 8 (c ^^^ b)) init

/-- CRC-16, initial value 0, most significant bit first, no final exclusive-or (Table 08-8). -/
def crc16 (poly : BitVec 16) (bs : List Byte) : BitVec 16 :=
  bs.foldl (fun c b => times (fun c => if c.getLsbD 15 then (c <<< 1) ^^^ poly else c <<< 1) 8
    (c ^^^ (BitVec.setWidth 16 b <<< (8 : Nat)))) 0#16

/-- A 64-bit register from its fields: (position, width, value), each value cut to its width. -/
def packReg (fs : List (Nat × Nat × Nat)) : BitVec 64 :=
  BitVec.ofNat 64 (fs.foldl (fun a (p, w, v) => a + v % 2 ^ w * 2 ^ p) 0)

/-- The field of a register value at a position. -/
def regFld (v : BitVec 64) (pos width : Nat) : Nat := v.toNat / 2 ^ pos % 2 ^ width

end Sys2Proof.Machine
end

