-- ==== Sys2Proof/Machine/Aes.lean ====
section
/-! DEFINITION. AES of FIPS 197 and its modes of the SP 800-38 series (Table 11-2). PRESUMED (log entry 8): the
algorithms are those of the standards the spec names. -/

namespace Sys2Proof.Machine

/-- Multiplication by x in GF(2^8). -/
def xtime (b : Byte) : Byte := if b.getLsbD 7 then (b <<< 1) ^^^ 0x1B#8 else b <<< 1

/-- Multiplication in GF(2^8), over the bits of the second factor from bit `i` up. -/
def gmulFrom (b : Byte) : (fuel i : Nat) → Byte → Byte
  | 0, _, _ => 0#8
  | fuel + 1, i, a => (if b.getLsbD i then a else 0#8) ^^^ gmulFrom b fuel (i + 1) (xtime a)

def gmul (a b : Byte) : Byte := gmulFrom b 8 0 a

/-- The inverse in GF(2^8) as the power 254; zero for zero. -/
def ginv (a : Byte) : Byte :=
  let a2 := gmul a a
  let a4 := gmul a2 a2
  let a8 := gmul a4 a4
  let a16 := gmul a8 a8
  let a32 := gmul a16 a16
  let a64 := gmul a32 a32
  let a128 := gmul a64 a64
  gmul a2 (gmul a4 (gmul a8 (gmul a16 (gmul a32 (gmul a64 a128)))))

def sbox (a : Byte) : Byte :=
  let i := ginv a
  i ^^^ i.rotateLeft 1 ^^^ i.rotateLeft 2 ^^^ i.rotateLeft 3 ^^^ i.rotateLeft 4 ^^^ 0x63#8

def invSbox (a : Byte) : Byte :=
  ginv (a.rotateLeft 1 ^^^ a.rotateLeft 3 ^^^ a.rotateLeft 6 ^^^ 0x05#8)

/-- The words of the key schedule, newest first; `i` counts from `nk`. -/
def expandKey (nk : Nat) : (fuel i : Nat) → (rcon : Byte) → List (List Byte) → List (List Byte)
  | 0, _, _, ws => ws
  | fuel + 1, i, rcon, ws =>
    let prev := ws.getD 0 []
    let t := if i % nk == 0 then xorBytes ((prev.drop 1 ++ prev.take 1).map sbox) [rcon, 0#8, 0#8, 0#8]
      else if nk > 6 && i % nk == 4 then prev.map sbox else prev
    expandKey nk fuel (i + 1) (if i % nk == 0 then xtime rcon else rcon) (xorBytes (ws.getD (nk - 1) []) t :: ws)

/-- The round keys of an AES key of 16, 24 or 32 bytes, first round first. -/
def roundKeys (key : List Byte) : List (List Byte) :=
  let nk := key.length / 4
  (blocks 16 ((expandKey nk (4 * (nk + 7) - nk) nk 1#8 (blocks 4 key).reverse).reverse.flatten))

/-- Columns of four bytes mixed with the circulant matrix of first row `m`. -/
def mixColumns (m : List Byte) (st : List Byte) : List Byte :=
  (blocks 4 st).flatMap fun c => (List.range 4).map fun r =>
    (List.range 4).foldl (fun a j => a ^^^ gmul (c.getD j 0#8) (m.getD ((j + 4 - r) % 4) 0#8)) 0#8

/-- Row `r` of the state rotated by `r` columns: left when `k` is 1, right when `k` is 3. -/
def shiftRows (k : Nat) (st : List Byte) : List Byte :=
  (List.range 16).map fun i => st.getD ((i % 4) + 4 * ((i / 4 + k * (i % 4)) % 4)) 0#8

/-- The forward cipher on one block of 16 bytes. -/
def aesEncrypt (key blk : List Byte) : List Byte :=
  let ks := roundKeys key
  let mid := ((ks.drop 1).dropLast).foldl (fun st k =>
    xorBytes (mixColumns [2#8, 3#8, 1#8, 1#8] (shiftRows 1 (st.map sbox))) k) (xorBytes blk (ks.getD 0 []))
  xorBytes (shiftRows 1 (mid.map sbox)) (ks.getLastD [])

/-- The inverse cipher on one block of 16 bytes. -/
def aesDecrypt (key blk : List Byte) : List Byte :=
  let ks := (roundKeys key).reverse
  let mid := ((ks.drop 1).dropLast).foldl (fun st k =>
    mixColumns [14#8, 11#8, 13#8, 9#8] (xorBytes ((shiftRows 3 st).map invSbox) k)) (xorBytes blk (ks.getD 0 []))
  xorBytes ((shiftRows 3 mid).map invSbox) (ks.getLastD [])

/-- CBC, forward: ciphertext and the next chaining value. -/
def cbcEncrypt (key iv : List Byte) (data : List Byte) : List Byte × List Byte :=
  (blocks 16 data).foldl (fun (out, iv) b => let c := aesEncrypt key (xorBytes b iv); (out ++ c, c)) ([], iv)

/-- CBC, inverse: plaintext and the next chaining value. -/
def cbcDecrypt (key iv : List Byte) (data : List Byte) : List Byte × List Byte :=
  (blocks 16 data).foldl (fun (out, iv) c => (out ++ xorBytes (aesDecrypt key c) iv, c)) ([], iv)

/-- CTR over the counter blocks `ctr`, `ctr + 1`, … modulo 2^128 (Table 11-2). -/
def ctrCrypt (key : List Byte) (ctr : Nat) (data : List Byte) : List Byte :=
  ((blocks 16 data).zipIdx).flatMap fun (b, i) => xorBytes b (aesEncrypt key (be 16 ((ctr + i) % 2 ^ 128)))

/-- CTR with the 32-bit increment of GCM. -/
def gctr (key : List Byte) (icb : List Byte) (data : List Byte) : List Byte :=
  ((blocks 16 data).zipIdx).flatMap fun (b, i) =>
    xorBytes b (aesEncrypt key (icb.take 12 ++ be 4 ((fromBe (icb.drop 12) + i) % 2 ^ 32)))

/-- Multiplication in GF(2^128) in the bit order of SP 800-38D. -/
def ghashMul (x y : BitVec 128) : BitVec 128 :=
  ((List.range 128).foldl (fun (z, v) i =>
    (if x.getMsbD i then z ^^^ v else z,
     if v.getLsbD 0 then (v >>> 1) ^^^ (0xE1#128 <<< 120) else v >>> 1)) (0#128, y)).1

/-- GHASH of data whose blocks are padded with zeros, continued from `y`. -/
def ghash (h y : BitVec 128) (data : List Byte) : BitVec 128 :=
  (blocks 16 data).foldl (fun y b => ghashMul (y ^^^ BitVec.ofNat 128 (fromBe (padTo 16 b))) h) y

def ghashKey (key : List Byte) : BitVec 128 := BitVec.ofNat 128 (fromBe (aesEncrypt key (zeros 16)))

/-- The GCM tag over `aad` and ciphertext, with a 12-byte IV. -/
def gcmTag (key iv aad ct : List Byte) (tagLen : Nat) : List Byte :=
  let h := ghashKey key
  let s := ghash h (ghash h (ghash h 0#128 aad) ct) (be 8 (8 * aad.length) ++ be 8 (8 * ct.length))
  (xorBytes (aesEncrypt key (iv ++ be 4 1)) (be 16 s.toNat)).take tagLen

/-- The pre-counter block of GCM for an IV of any length but 12 bytes. -/
def gcmJ0 (key iv : List Byte) : List Byte :=
  be 16 (ghash (ghashKey key) 0#128 (iv ++ zeros ((16 - iv.length % 16) % 16 + 8) ++ be 8 (8 * iv.length))).toNat

/-- GCM under a pre-counter block: ciphertext and a 16-byte tag. -/
def gcmSealFrom (key j0 aad pt : List Byte) : List Byte :=
  let h := ghashKey key
  let ct := gctr key (j0.take 12 ++ be 4 ((fromBe (j0.drop 12) + 1) % 2 ^ 32)) pt
  let s := ghash h (ghash h (ghash h 0#128 aad) ct) (be 8 (8 * aad.length) ++ be 8 (8 * ct.length))
  ct ++ xorBytes (aesEncrypt key j0) (be 16 s.toNat)

/-- GCM encryption or decryption of data (the tag apart). -/
def gcmCrypt (key iv data : List Byte) : List Byte := gctr key (iv ++ be 4 2) data

/-- The formatted first blocks of CCM: B0 and the encoded associated data, padded. -/
def ccmHead (iv aad : List Byte) (total tagLen : Nat) : List Byte :=
  let q := 15 - iv.length
  let b0 := byte (b01 (aad.length > 0) * 64 + (tagLen - 2) / 2 * 8 + (q - 1)) :: (iv ++ be q total)
  let a := if aad.length == 0 then [] else
    (if aad.length < 65280 then be 2 aad.length else [0xFF#8, 0xFE#8] ++ be 4 aad.length) ++ aad
  b0 ++ a ++ zeros ((16 - a.length % 16) % 16)

/-- CBC-MAC continued from `y` over data padded with zeros. -/
def cbcMac (key y data : List Byte) : List Byte :=
  (blocks 16 data).foldl (fun y b => aesEncrypt key (xorBytes y (padTo 16 b))) y

/-- The counter block `i` of CCM. -/
def ccmCtr (iv : List Byte) (i : Nat) : List Byte := byte (14 - iv.length) :: (iv ++ be (15 - iv.length) i)

/-- The CCM tag. -/
def ccmTag (key iv aad pt : List Byte) (tagLen : Nat) : List Byte :=
  let t := cbcMac key (cbcMac key (zeros 16) (ccmHead iv aad pt.length tagLen)) pt
  (xorBytes t (aesEncrypt key (ccmCtr iv 0))).take tagLen

/-- CCM encryption or decryption of data, from counter block `from'`. -/
def ccmCrypt (key iv : List Byte) (from' : Nat) (data : List Byte) : List Byte :=
  ((blocks 16 data).zipIdx).flatMap fun (b, i) => xorBytes b (aesEncrypt key (ccmCtr iv (from' + i)))

/-- Doubling in GF(2^128) for the CMAC subkeys. -/
def cmacDouble (x : BitVec 128) : BitVec 128 := if x.getLsbD 127 then (x <<< 1) ^^^ 0x87#128 else x <<< 1

/-- The last step of CMAC: the chaining value after all blocks but the last, and the last block of 0 to 16 bytes. -/
def cmacFinish (key y lastBlk : List Byte) : List Byte :=
  let k1 := cmacDouble (BitVec.ofNat 128 (fromBe (aesEncrypt key (zeros 16))))
  let (b, k) := if lastBlk.length == 16 then (lastBlk, k1) else (padTo 16 (lastBlk ++ [0x80#8]), cmacDouble k1)
  aesEncrypt key (xorBytes (xorBytes y b) (be 16 k.toNat))

/-- AES-CMAC of SP 800-38B. -/
def cmac (key msg : List Byte) : List Byte :=
  let n := (msg.length - 1) / 16 * 16
  cmacFinish key (cbcMac key (zeros 16) (msg.take n)) (msg.drop n)

/-- The `6 n` steps of the KW wrapping function, first step first. -/
def kwSteps (n : Nat) : List (Nat × Nat) := (List.range 6).flatMap fun j => (List.range n).map fun i => (n * j + i + 1, i)

/-- The wrapping function W of SP 800-38F on `A ‖ R[1] ‖ … ‖ R[n]`. -/
def kwWrap (key data : List Byte) : List Byte :=
  let rs := blocks 8 (data.drop 8)
  let (a, rs) := (kwSteps rs.length).foldl (fun (a, rs) (t, i) =>
    let b := aesEncrypt key (a ++ rs.getD i [])
    (xorBytes (b.take 8) (be 8 t), rs.set i (b.drop 8))) (data.take 8, rs)
  a ++ rs.flatten

/-- The inverse of W. -/
def kwUnwrap (key data : List Byte) : List Byte :=
  let rs := blocks 8 (data.drop 8)
  let (a, rs) := (kwSteps rs.length).reverse.foldl (fun (a, rs) (t, i) =>
    let b := aesDecrypt key (xorBytes a (be 8 t) ++ rs.getD i [])
    (b.take 8, rs.set i (b.drop 8))) (data.take 8, rs)
  a ++ rs.flatten

def kwIv : List Byte := List.replicate 8 0xA6#8

/-- AES-KW, protect. -/
def kwProtect (key pt : List Byte) : List Byte := kwWrap key (kwIv ++ pt)

/-- AES-KW, open; none when the integrity value fails. -/
def kwOpen (key ct : List Byte) : Option (List Byte) :=
  let p := kwUnwrap key ct
  if p.take 8 == kwIv && ct.length ≥ 24 && ct.length % 8 == 0 then some (p.drop 8) else none

/-- AES-KWP, protect. -/
def kwpProtect (key pt : List Byte) : List Byte :=
  let body := [0xA6#8, 0x59#8, 0x59#8, 0xA6#8] ++ be 4 pt.length ++ pt ++ zeros ((8 - pt.length % 8) % 8)
  if body.length == 16 then aesEncrypt key body else kwWrap key body

/-- AES-KWP, open; none when the integrity value, the length or the padding fails. -/
def kwpOpen (key ct : List Byte) : Option (List Byte) :=
  let p := if ct.length == 16 then aesDecrypt key ct else kwUnwrap key ct
  let n := fromBe (slice p 4 4)
  let m := p.length - 8
  if ct.length ≥ 16 && ct.length % 8 == 0 && p.take 4 == [0xA6#8, 0x59#8, 0x59#8, 0xA6#8] && n ≤ m && m < n + 8 &&
      (p.drop (8 + n)).all (· == 0#8) then some (slice p 8 n) else none

end Sys2Proof.Machine
end

