-- ==== Sys2Proof/Config.lean ====
section
/-! DEFINITION. The free values: constants without a body, for every value the spec leaves open.
A statement about one of them holds whatever the hardware does. -/

namespace Sys2Proof.Config

/-- DESIGN CHOICE (log entry 5). Byte `n` drawn from the DRBG (R627); `n` counts every byte ever drawn. -/
opaque drbgByte : Nat → Byte

/-- DESIGN CHOICE (log entry 5). The value `v` below 5251 that the rejection loop of R524 keeps, for draw `n`. -/
opaque delayValue : Nat → Nat

/-- DESIGN CHOICE (log entry 6). A byte of host memory that a command's operands do not give: draw `n`. -/
opaque hostByte : Nat → Byte

/-- DESIGN CHOICE (log entry 10). The RSA primes and public exponent `(p, q, e)` of draw `n` for a size in bits (R439). -/
opaque rsaPrimes : Nat → Nat → Nat × Nat × Nat

/-- DESIGN CHOICE (log entry 11). The seed and identifier of bottom tree `t` of an HSS key, from its SEED and I. -/
opaque bottomSecret : List Byte → List Byte → Nat → List Byte × List Byte

/-- DESIGN CHOICE (log entry 140). The identity root, an on-die fuse secret (Table 09-2). -/
opaque fuseRoot : List Byte

/-- DESIGN CHOICE (log entry 9). RFC 5280 validation of a chain bundle (R365) up to the root record of slot 0x0011:
the P-384 public key, the HSS public key and the tree certificate it vouches for, when it verifies (R223). -/
opaque chainKeys : List Byte → List Byte → Option (List Byte × List Byte × List Byte)

/-- DESIGN CHOICE (log entry 21). Whether a NaN reported as loop current counts as a MISMATCH (R492), for its 32 bits. -/
opaque nanDiffers : Nat → Bool

/-- DESIGN CHOICE (log entry 22). CURRENT of an EV_LOOP_FAULT that no window result stands behind (R505, R506), by the
number of the event. -/
opaque eventCurrent : Nat → Nat

/-- DESIGN CHOICE (log entry 155). Whether the mean of conversions whose sum does not divide evenly is rounded up (R485), for
the sum and their number. -/
opaque meanUp : Int → Nat → Bool

/-- DESIGN CHOICE (log entry 29). The result byte of EV_FW_LOAD, for the DETAIL of the refusal, 0 for an accepted image. -/
opaque fwResult : Nat → Byte

end Sys2Proof.Config
end

