-- ==== Sys2Proof/Machine/Sha.lean ====
section
/-! DEFINITION. SHA-2 of FIPS 180-4, HMAC of FIPS 198-1, and the counter-mode KDF of R344. PRESUMED (log entry 8): the
algorithms are those of the standards the spec names. -/

namespace Sys2Proof.Machine

/-- Binary search for the integer `k`-th root: the greatest `x` with `x ^ k ≤ n`, built from bit `fuel - 1` down. -/
def rootFrom (k n : Nat) : (fuel : Nat) → Nat → Nat
  | 0, x => x
  | fuel + 1, x => rootFrom k n fuel (if (x + 2 ^ fuel) ^ k ≤ n then x + 2 ^ fuel else x)

/-- The first `w` fractional bits of the `k`-th root of `p`, after skipping `skip` bits. -/
def fracRoot (k w skip p : Nat) : Nat := rootFrom k (p * 2 ^ (k * (w + skip))) (w + skip + 12) 0 % 2 ^ w

/-- The first 80 primes. -/
def primes80 : List Nat :=
  [2, 3, 5, 7, 11, 13, 17, 19, 23, 29, 31, 37, 41, 43, 47, 53, 59, 61, 67, 71, 73, 79, 83, 89, 97, 101, 103, 107, 109, 113] ++
  [127, 131, 137, 139, 149, 151, 157, 163, 167, 173, 179, 181, 191, 193, 197, 199, 211, 223, 227, 229, 233, 239, 241, 251] ++
  [257, 263, 269, 271, 277, 281, 283, 293, 307, 311, 313, 317, 331, 337, 347, 349, 353, 359, 367, 373, 379, 383, 389,
    397, 401, 409]

/-- The parameters in which the two families of SHA-2 differ: word width, rounds and rotation amounts. -/
structure ShaKind where
  w      : Nat
  rounds : Nat
  s0     : Nat × Nat × Nat
  s1     : Nat × Nat × Nat
  e0     : Nat × Nat × Nat
  e1     : Nat × Nat × Nat

def sha32 : ShaKind := ⟨32, 64, (7, 18, 3), (17, 19, 10), (2, 13, 22), (6, 11, 25)⟩
def sha64 : ShaKind := ⟨64, 80, (1, 8, 7), (19, 61, 6), (28, 34, 39), (14, 18, 41)⟩

/-- Rotation right of a `w`-bit number. -/
def rotr (w n k : Nat) : Nat := n / 2 ^ k + n % 2 ^ k * 2 ^ (w - k)

/-- The message schedule, newest word first. -/
def shaSchedule (k : ShaKind) : (fuel : Nat) → List Nat → List Nat
  | 0, ws => ws
  | fuel + 1, ws =>
    let x2 := ws.getD 1 0
    let x15 := ws.getD 14 0
    let s0 := (rotr k.w x15 k.s0.1).xor ((rotr k.w x15 k.s0.2.1).xor (x15 / 2 ^ k.s0.2.2))
    let s1 := (rotr k.w x2 k.s1.1).xor ((rotr k.w x2 k.s1.2.1).xor (x2 / 2 ^ k.s1.2.2))
    shaSchedule k fuel ((ws.getD 15 0 + s0 + ws.getD 6 0 + s1) % 2 ^ k.w :: ws)

/-- The working variables a to h. -/
structure ShaVars where
  a : Nat
  b : Nat
  c : Nat
  d : Nat
  e : Nat
  f : Nat
  g : Nat
  h : Nat

/-- One round with round constant plus schedule word `kw`. -/
def shaRound (k : ShaKind) (v : ShaVars) (kw : Nat) : ShaVars :=
  let m := 2 ^ k.w
  let e1 := (rotr k.w v.e k.e1.1).xor ((rotr k.w v.e k.e1.2.1).xor (rotr k.w v.e k.e1.2.2))
  let ch := (v.e.land v.f).xor ((m - 1 - v.e).land v.g)
  let t1 := (v.h + e1 + ch + kw) % m
  let e0 := (rotr k.w v.a k.e0.1).xor ((rotr k.w v.a k.e0.2.1).xor (rotr k.w v.a k.e0.2.2))
  let maj := (v.a.land v.b).xor ((v.a.land v.c).xor (v.b.land v.c))
  ⟨(t1 + e0 + maj) % m, v.a, v.b, v.c, (v.d + t1) % m, v.e, v.f, v.g⟩

/-- The compression of one block into the hash value. -/
def shaBlock (k : ShaKind) (consts : List Nat) (h : List Nat) (blk : List Byte) : List Nat :=
  let ws := (shaSchedule k (k.rounds - 16) ((blocks (k.w / 8) blk).map fromBe).reverse).reverse
  let v := (List.zipWith (· + ·) consts ws).foldl (shaRound k)
    ⟨h.getD 0 0, h.getD 1 0, h.getD 2 0, h.getD 3 0, h.getD 4 0, h.getD 5 0, h.getD 6 0, h.getD 7 0⟩
  List.zipWith (fun x y => (x + y) % 2 ^ k.w) h [v.a, v.b, v.c, v.d, v.e, v.f, v.g, v.h]

/-- The padding of FIPS 180-4. -/
def shaPad (k : ShaKind) (msg : List Byte) : List Byte :=
  let b := 2 * k.w
  let l := k.w / 4
  msg ++ [0x80#8] ++ zeros ((2 * b - (msg.length + 1 + l) % b) % b) ++ be l (8 * msg.length)

def sha32Consts : List Nat := (primes80.take 64).map (fracRoot 3 32 0)
def sha64Consts : List Nat := primes80.map (fracRoot 3 64 0)

/-- The hash functions the spec offers (Table 11-2), by their ALG code. -/
inductive Hash where | sha224 | sha256 | sha384 | sha512
deriving DecidableEq, Repr

/-- The hash that an ALG code 0x11 to 0x14 names (Table 11-2). -/
def Hash.ofAlg : Nat → Option Hash
  | 0x11 => some .sha224
  | 0x12 => some .sha256
  | 0x13 => some .sha384
  | 0x14 => some .sha512
  | _ => none

/-- Digest length in bytes. -/
def Hash.len : Hash → Nat
  | .sha224 => 28
  | .sha256 => 32
  | .sha384 => 48
  | .sha512 => 64

/-- Block length in bytes. -/
def Hash.block : Hash → Nat
  | .sha224 | .sha256 => 64
  | .sha384 | .sha512 => 128

/-- The digest of a message under FIPS 180-4. -/
def Hash.digest (h : Hash) (msg : List Byte) : List Byte :=
  let first8 := primes80.take 8
  let next8 := (primes80.drop 8).take 8
  let init := match h with
    | .sha224 => next8.map (fracRoot 2 32 32)
    | .sha256 => first8.map (fracRoot 2 32 0)
    | .sha384 => next8.map (fracRoot 2 64 0)
    | .sha512 => first8.map (fracRoot 2 64 0)
  let out := match h with
    | .sha224 | .sha256 => ((blocks 64 (shaPad sha32 msg)).foldl (shaBlock sha32 sha32Consts) init).flatMap (be 4)
    | .sha384 | .sha512 => ((blocks 128 (shaPad sha64 msg)).foldl (shaBlock sha64 sha64Consts) init).flatMap (be 8)
  out.take h.len

def sha256 (msg : List Byte) : List Byte := Hash.sha256.digest msg

/-- HMAC of FIPS 198-1. -/
def hmac (h : Hash) (key msg : List Byte) : List Byte :=
  let k := padTo h.block (if key.length > h.block then h.digest key else key)
  h.digest (k.map (· ^^^ 0x5C#8) ++ h.digest (k.map (· ^^^ 0x36#8) ++ msg))

/-- The counter-mode KDF of SP 800-108 as R344 writes it: block `i` of the output is
`PRF([i]₃₂ ‖ LABEL ‖ 0x00 ‖ CONTEXT ‖ [L]₃₂)`, and the leading `bits` bits form the key. -/
def kdf (prf : List Byte → List Byte) (prfLen : Nat) (label context : List Byte) (bits : Nat) : List Byte :=
  let n := (bits / 8 + prfLen - 1) / prfLen
  ((List.range n).flatMap fun i => prf (be 4 (i + 1) ++ label ++ [0#8] ++ context ++ be 4 bits)).take (bits / 8)

end Sys2Proof.Machine
end

