-- ==== Sys2Proof/Machine/Curve.lean ====
section
/-! DEFINITION. Elliptic curves (R429-R431), ECDSA and EC Diffie-Hellman, RSA encodings, and the LMS trees of the HSS
keys. PRESUMED (log entry 8): the standards named by R434, R436, R437 and R626 give the algorithms and the named
curves' parameters. -/

namespace Sys2Proof.Machine

/-- `b ^ e mod m` by squaring, over the low `fuel` bits of `e`. -/
def powModAux (m : Nat) : (fuel : Nat) → (e b acc : Nat) → Nat
  | 0, _, _, acc => acc
  | fuel + 1, e, b, acc => powModAux m fuel (e / 2) (b * b % m) (if e % 2 == 1 then acc * b % m else acc)

def powMod (b e m : Nat) : Nat := powModAux m (e.log2 + 1) e (b % m) (1 % m)

/-- The inverse of `a` modulo `m` when they are coprime. -/
def invMod (a m : Nat) : Nat := (Nat.gcdA a m % (m : Int)).toNat

/-- A curve `y² = x³ + ax + b` over GF(p) with generator, order and cofactor (R429). -/
structure Curve where
  p  : Nat
  a  : Nat
  b  : Nat
  gx : Nat
  gy : Nat
  n  : Nat
  h  : Nat
deriving DecidableEq, Repr

/-- Length of a field element in bytes: L of R429. -/
def Curve.len (c : Curve) : Nat := (c.p.log2 + 1 + 7) / 8

/-- Length of the order in bytes (R435). -/
def Curve.nLen (c : Curve) : Nat := (c.n.log2 + 1 + 7) / 8

/-- A point: none is the point at infinity. -/
abbrev Point := Option (Nat × Nat)

/-- Whether `(x, y)` satisfies the curve equation. -/
def Curve.on (c : Curve) (x y : Nat) : Bool := y * y % c.p == (x * x * x + c.a * x + c.b) % c.p

/-- The group law. -/
def Curve.add (c : Curve) : Point → Point → Point
  | none, q => q
  | q, none => q
  | some (x1, y1), some (x2, y2) =>
    if x1 == x2 && (y1 + y2) % c.p == 0 then none else
      let (num, den) := if x1 == x2 then ((3 * x1 * x1 + c.a) % c.p, 2 * y1 % c.p)
        else ((y2 + c.p - y1) % c.p, (x2 + c.p - x1) % c.p)
      let l := num * invMod den c.p % c.p
      let x3 := (l * l + 2 * c.p - x1 - x2) % c.p
      some (x3, (l * (x1 + c.p - x3) + c.p - y1) % c.p)

/-- Scalar multiplication over the low `fuel` bits of `k`. -/
def Curve.mulAux (c : Curve) : (fuel : Nat) → (k : Nat) → (p acc : Point) → Point
  | 0, _, _, acc => acc
  | fuel + 1, k, p, acc => c.mulAux fuel (k / 2) (c.add p p) (if k % 2 == 1 then c.add acc p else acc)

def Curve.mul (c : Curve) (k : Nat) (p : Point) : Point := c.mulAux (k.log2 + 1) k p none

def Curve.gen (c : Curve) : Point := some (c.gx, c.gy)

/-- The public encoding `0x04 ‖ X ‖ Y` (Table 09-7). -/
def Curve.encode (c : Curve) : Point → List Byte
  | some (x, y) => 4#8 :: (be c.len x ++ be c.len y)
  | none => zeros (1 + 2 * c.len)

def p256 : Curve where
  p := 2 ^ 256 - 2 ^ 224 + 2 ^ 192 + 2 ^ 96 - 1
  a := 2 ^ 256 - 2 ^ 224 + 2 ^ 192 + 2 ^ 96 - 1 - 3
  b := 0x5ac635d8aa3a93e7b3ebbd55769886bc651d06b0cc53b0f63bce3c3e27d2604b
  gx := 0x6b17d1f2e12c4247f8bce6e563a440f277037d812deb33a0f4a13945d898c296
  gy := 0x4fe342e2fe1a7f9b8ee7eb4a7c0f9e162bce33576b315ececbb6406837bf51f5
  n := 0xffffffff00000000ffffffffffffffffbce6faada7179e84f3b9cac2fc632551
  h := 1

def p384 : Curve where
  p := 2 ^ 384 - 2 ^ 128 - 2 ^ 96 + 2 ^ 32 - 1
  a := 2 ^ 384 - 2 ^ 128 - 2 ^ 96 + 2 ^ 32 - 1 - 3
  b := 0xb3312fa7e23ee7e4988e056be3f82d19181d9c6efe8141120314088f5013875ac656398d8a2ed19d2a85c8edd3ec2aef
  gx := 0xaa87ca22be8b05378eb1c71ef320ad746e1d3b628ba79b9859f741e082542a385502f25dbf55296c3a545e3872760ab7
  gy := 0x3617de4a96262c6f5d9e98bf9292dc29f8f41dbd289a147ce9da3113b5f0b8c00a60b1ce1d7e819d7a431d7c90ea0e5f
  n := 0xffffffffffffffffffffffffffffffffffffffffffffffffc7634d81f4372ddf581a0db248b0a77aecec196accc52973
  h := 1

def p521 : Curve where
  p := 2 ^ 521 - 1
  a := 2 ^ 521 - 4
  b := 0x0051953eb9618e1c9a1f929a21a0b68540eea2da725b99b315f3b8b489918ef109e156193951ec7e937b1652c0bd3bb1bf073573df883d2c34f1ef451fd46b503f00
  gx := 0x00c6858e06b70404e9cd9e3ecb662395b4429c648139053fb521f828af606b4d3dbaa14b5e77efe75928fe1dc127a2ffa8de3348b3c1856a429bf97e7e31c2e5bd66
  gy := 0x011839296a789a3bc0045c8a5fb42c7d1bd998f54449579b446817afbd17273e662c97ee72995ef42640c550b9013fad0761353c7086a272c24088be94769fd16650
  n := 0x01fffffffffffffffffffffffffffffffffffffffffffffffffffffffffffffffffa51868783bf2f966b7fcc0148f709a5d03bb5c9b8899c47aebb6fb71e91386409
  h := 1

def brainpoolP256r1 : Curve where
  p := 0xa9fb57dba1eea9bc3e660a909d838d726e3bf623d52620282013481d1f6e5377
  a := 0x7d5a0975fc2c3057eef67530417affe7fb8055c126dc5c6ce94a4b44f330b5d9
  b := 0x26dc5c6ce94a4b44f330b5d9bbd77cbf958416295cf7e1ce6bccdc18ff8c07b6
  gx := 0x8bd2aeb9cb7e57cb2c4b482ffc81b7afb9de27e1e3bd23c23a4453bd9ace3262
  gy := 0x547ef835c3dac4fd97f8461a14611dc9c27745132ded8e545c1d54c72f046997
  n := 0xa9fb57dba1eea9bc3e660a909d838d718c397aa3b561a6f7901e0e82974856a7
  h := 1

def brainpoolP384r1 : Curve where
  p := 0x8cb91e82a3386d280f5d6f7e50e641df152f7109ed5456b412b1da197fb71123acd3a729901d1a71874700133107ec53
  a := 0x7bc382c63d8c150c3c72080ace05afa0c2bea28e4fb22787139165efba91f90f8aa5814a503ad4eb04a8c7dd22ce2826
  b := 0x04a8c7dd22ce28268b39b55416f0447c2fb77de107dcd2a62e880ea53eeb62d57cb4390295dbc9943ab78696fa504c11
  gx := 0x1d1c64f068cf45ffa2a63a81b7c13f6b8847a3e77ef14fe3db7fcafe0cbd10e8e826e03436d646aaef87b2e247d4af1e
  gy := 0x8abe1d7520f9c2a45cb1eb8e95cfd55262b70b29feec5864e19c054ff99129280e4646217791811142820341263c5315
  n := 0x8cb91e82a3386d280f5d6f7e50e641df152f7109ed5456b31f166e6cac0425a7cf3ab6af6b7fc3103b883202e9046565
  h := 1

/-- The named curves (Table 12-4). -/
def namedCurve : Nat → Option Curve
  | 0x0001 => some p256
  | 0x0002 => some p384
  | 0x0003 => some p521
  | 0x0011 => some brainpoolP256r1
  | 0x0012 => some brainpoolP384r1
  | _ => none

/-- A digest cut to the bit length of `n` (R434). -/
def truncDigest (n : Nat) (digest : List Byte) : Nat :=
  let z := fromBe digest
  let bits := 8 * digest.length
  if bits > n.log2 + 1 then z / 2 ^ (bits - (n.log2 + 1)) else z

/-- The ECDSA pair `(r, s)` for private scalar `d` and nonce `k`; a zero part means that a new nonce is needed (R434). -/
def ecdsaSign (c : Curve) (d k : Nat) (digest : List Byte) : Nat × Nat :=
  let r := match c.mul k c.gen with | some (x, _) => x % c.n | none => 0
  (r, invMod k c.n * (truncDigest c.n digest + r * d) % c.n)

/-- ECDSA verification of FIPS 186-5; a part that is zero or at least n is invalid (Table 12-10). -/
def ecdsaVerify (c : Curve) (q : Point) (digest : List Byte) (r s : Nat) : Bool :=
  if r == 0 || s == 0 || r ≥ c.n || s ≥ c.n then false else
    let w := invMod s c.n
    match c.add (c.mul (truncDigest c.n digest * w % c.n) c.gen) (c.mul (r * w % c.n) q) with
    | some (x, _) => x % c.n == r
    | none => false

/-- A public encoding read as coordinates on a curve; none unless it begins 0x04 and has the right length. -/
def Curve.decode (c : Curve) (bs : List Byte) : Point :=
  if bs.length == 1 + 2 * c.len && bs.take 1 == [4#8] then some (fld bs 1 c.len, fld bs (1 + c.len) c.len) else none

/-- Whether the embedding degree is above 20: `p^k mod n ≠ 1` for `k` from 1 to 20 (Table 12-6, order 10). -/
def embedOk (p n : Nat) : Bool := (List.range 20).all fun k => powMod p (k + 1) n != 1

/-- The first failing sanity check of Table 12-6 as its DETAIL; `len` is the field L of the block. Primality is
exact here (log entry 8). -/
def Curve.reject (c : Curve) (len : Nat) : Option Nat :=
  let bits := c.p.log2 + 1
  let d := (c.p + 1 : Int) - c.h * c.n
  if bits < 160 || bits > 640 || len != (bits + 7) / 8 then some 0x00D0
  else if c.a ≥ c.p || c.b ≥ c.p || c.gx ≥ c.p || c.gy ≥ c.p || c.n == 0 then some 0x00D1
  else if !decide (Nat.Prime c.p) then some 0x00D2
  else if !decide (Nat.Prime c.n) then some 0x00D3
  else if (4 * c.a ^ 3 + 27 * c.b ^ 2) % c.p == 0 then some 0x00D4
  else if !c.on c.gx c.gy then some 0x00D5
  else if c.mul c.n c.gen != none then some 0x00D6
  else if c.h < 1 || c.h > 8 || decide (d * d > 4 * c.p) then some 0x00D7
  else if c.n == c.p then some 0x00D8
  else if !embedOk c.p c.n then some 0x00D9
  else none

/-- MGF1 of RFC 8017. -/
def mgf1 (h : Hash) (seed : List Byte) (len : Nat) : List Byte :=
  ((List.range ((len + h.len - 1) / h.len)).flatMap fun i => h.digest (seed ++ be 4 i)).take len

/-- The DER prefix of a DigestInfo for EMSA-PKCS1-v1_5. -/
def digestInfo (h : Hash) : List Byte :=
  let oid : Byte := match h with | .sha224 => 4#8 | .sha256 => 1#8 | .sha384 => 2#8 | .sha512 => 3#8
  [0x30#8, byte (17 + h.len), 0x30#8, 0x0D#8, 0x06#8, 0x09#8, 0x60#8, 0x86#8, 0x48#8, 0x01#8, 0x65#8, 0x03#8, 0x04#8,
    0x02#8, oid, 0x05#8, 0x00#8, 0x04#8, byte h.len]

/-- EMSA-PKCS1-v1_5 encoding of a digest in `k` bytes. -/
def emsaPkcs1 (h : Hash) (k : Nat) (digest : List Byte) : List Byte :=
  let t := digestInfo h ++ digest
  [0#8, 1#8] ++ List.replicate (k - t.length - 3) 0xFF#8 ++ [0#8] ++ t

/-- EMSA-PSS encoding of a digest with a given salt, for a modulus of `bits` bits. -/
def emsaPss (h : Hash) (bits : Nat) (digest salt : List Byte) : List Byte :=
  let emLen := (bits - 1 + 7) / 8
  let hh := h.digest (zeros 8 ++ digest ++ salt)
  let db := zeros (emLen - salt.length - h.len - 2) ++ [1#8] ++ salt
  let m := xorBytes db (mgf1 h hh (emLen - h.len - 1))
  let clear := 8 * emLen - (bits - 1)
  ((m.take 1).map fun b => b &&& byte (2 ^ (8 - clear) - 1)) ++ m.drop 1 ++ hh ++ [0xBC#8]

/-- Whether an encoded message is a PSS encoding of the digest with a salt of `saltLen` bytes. -/
def pssOk (h : Hash) (bits : Nat) (digest em : List Byte) (saltLen : Nat) : Bool :=
  let emLen := (bits - 1 + 7) / 8
  let em := em.drop (em.length - emLen)
  let hh := slice em (emLen - h.len - 1) h.len
  let db := xorBytes (em.take (emLen - h.len - 1)) (mgf1 h hh (emLen - h.len - 1))
  let salt := db.drop (db.length - saltLen)
  em.length == emLen && emLen ≥ h.len + saltLen + 2 && em == emsaPss h bits digest salt

/-- EME-OAEP encoding in `k` bytes with a given seed. -/
def oaepEncode (h : Hash) (k : Nat) (label msg seed : List Byte) : List Byte :=
  let db := h.digest label ++ zeros (k - msg.length - 2 * h.len - 2) ++ [1#8] ++ msg
  let mdb := xorBytes db (mgf1 h seed (k - h.len - 1))
  [0#8] ++ xorBytes seed (mgf1 h mdb h.len) ++ mdb

/-- EME-OAEP decoding; none when it fails. -/
def oaepDecode (h : Hash) (k : Nat) (label em : List Byte) : Option (List Byte) :=
  let mdb := em.drop (1 + h.len)
  let seed := xorBytes (slice em 1 h.len) (mgf1 h mdb h.len)
  let db := xorBytes mdb (mgf1 h seed (k - h.len - 1))
  let rest := (db.drop h.len).dropWhile (· == 0#8)
  if em.take 1 == [0#8] && db.take h.len == h.digest label && rest.take 1 == [1#8] then some (rest.drop 1) else none

end Sys2Proof.Machine
end

