-- ==== Sys2Proof/Machine/Table.lean ====
section
/-! DEFINITION. Sparse tables: a sorted list of (index, value) pairs without the values that an unlisted index reads as.
Working memory, key slots, contexts, slices, channels, lanes and loops are such tables, so equal contents are equal data. -/

namespace Sys2Proof.Machine

/-- A table from indices to values. What an unlisted index reads as is the argument `d` of every operation. -/
abbrev Tbl (α : Type) := List (Nat × α)

/-- The value at an index. -/
def Tbl.get {α : Type} (d : α) : Tbl α → Nat → α
  | [], _ => d
  | (i, v) :: r, k => if i = k then v else Tbl.get d r k

/-- The table without an index. -/
def Tbl.del {α : Type} (m : Tbl α) (k : Nat) : Tbl α := m.filter (fun e => e.1 != k)

/-- A pair put at its place in a table that lacks its index. -/
def Tbl.ins {α : Type} (k : Nat) (v : α) : Tbl α → Tbl α
  | [] => [(k, v)]
  | (i, w) :: r => if k < i then (k, v) :: (i, w) :: r else (i, w) :: Tbl.ins k v r

/-- The table with `v` at index `k`; writing what an unlisted index reads as removes the entry. -/
def Tbl.put {α : Type} [DecidableEq α] (d : α) (m : Tbl α) (k : Nat) (v : α) : Tbl α :=
  if v = d then m.del k else Tbl.ins k v (m.del k)

/-- Whether the indices strictly rise. -/
def Tbl.rising {α : Type} : Tbl α → Bool
  | [] => true
  | [_] => true
  | (i, _) :: (j, w) :: r => decide (i < j) && Tbl.rising ((j, w) :: r)

/-- The canonical form: indices strictly rise and no entry equals what an unlisted index reads as. -/
def Tbl.wf {α : Type} [DecidableEq α] (d : α) (m : Tbl α) : Bool := m.rising && m.all (fun e => decide (e.2 ≠ d))

end Sys2Proof.Machine
end

