-- ==== Sys2Proof/Machine/State.lean ====
section
/-! DEFINITION. The state of the block: plain data, every piece of state the spec names, and `State.reset`.
INVENTORY.md lists each field with its rule and its reset value; log entries 1 and 2 hold the values chosen here. -/

namespace Sys2Proof.Machine

/-- Reasons for which the block stops. -/
inductive Fault where
  /-- Raised by DEVICE_RESET and MAIN_POWER_UP when the firmware bank to be started holds a version other than Drinum 3.2:
  R17 says that no binding statement of the manual governs such a module. Safe: the model goes no further. -/
  | ungovernedFirmware
deriving DecidableEq, Repr

/-- Reasons for which the model gives a command no meaning. -/
inductive Refusal where
  /-- Raised by exec for a row not modelled yet. Safe: the model goes no further. -/
  | notModelled (mnemonic : String)
deriving DecidableEq, Repr

/-! ### Phase unit -/

/-- States of the phase unit (Table 02-3). -/
inductive PhSt where | none | acquire | lock | hold | coast | slew | fault | stopped
deriving DecidableEq, Repr

/-- A persisted copy (R65): the pair, the sequence number, the epochs of the 66 contexts, and whether its CRC-32C matches. -/
structure Copy where
  c      : Nat
  ticks  : Nat
  seq    : Nat
  epochs : List Nat
  crcOk  : Bool
deriving DecidableEq, Repr

/-- The resume value computed at power-up and the rule that gave it (R66, R67; the rule code of EV_PH_RESUME). -/
structure Resume where
  start : Nat
  cp    : Nat
  rule  : Nat
deriving DecidableEq, Repr

/-- The phase unit (chapter 02). Periods and times are in ns. `left` is the signed correction still to be made, in phase units
(positive: the crossing lies behind the stamp, so stamp cycles are lengthened), `corr` the part of it that the stamp cycle in
progress takes up (R46, R49), `fresh` whether the stamp has resumed since the last power-up, `audited` the C of the last audit
sweep (R217). -/
structure Phase where
  st        : PhSt
  band      : Nat
  cSet      : Bool
  c         : Nat
  phi       : Nat
  missing   : Nat
  good      : Nat
  lowSignal : Bool
  outOfBand : Bool
  history   : List Nat
  period    : Nat
  since     : Nat
  left      : Int
  corr      : Int
  unlocked  : Bool
  resume    : Nat
  resumed   : Bool
  fresh     : Bool
  unbounded : Bool
  waiting   : Option Resume
  cp        : Nat
  tp        : Nat
  seq       : Nat
  copies    : List (Option Copy)
  ticks     : Nat
  audited   : Option Nat
deriving DecidableEq, Repr

/-! ### Requests -/

/-- The opcodes of Table 03-4. -/
inductive Op where
  | sysInfo | sysSelftest | sysReset | stampRead | stampReport
  | sliceCreate | sliceBind | sliceQuota | sliceQuiesce | sliceResume | sliceReset | sliceRemove | sliceStatus
  | sliceEmigrate | sliceImmigrate | sliceReceipt | sliceRefuse
  | channelInvalidate | channelStatus | fieldCommand
  | keyGen | keyImport | keyWrap | keyUnwrap | keyDerive | keyDestroy | keyAttr
  | sealOnce | sealInit | sealUpdate | sealFinal | sealAbort | hashDigest
  | bnMac | bnMul | bnModmul | bnModinv | bnModexp
  | pkSign | pkVerify | pkAgree | pkEncrypt | pkDecrypt | pkLoadCurve
  | rngDraw | laneRetire | laneRestore | laneStatus
  | loopRead | loopReport | loopHart | loopAssign | loopPower
  | logRead | logHead | logClear | attestDevice | attestKey
  | ceremonyStart | ceremonyStep | ceremonyCancel | ceremonyStatus
  | peerPair | peerUnpair | peerStatus | fwLoad | fwActivate | fwStatus
  | tamperStatus | tamperConfig | powerDomain | vpOpen | vpPoll | vpResync
deriving DecidableEq, Repr

/-- Status codes (Table 03-7). -/
inductive Status where
  | ok | authFail | duplicate | idConflict | staleEpoch | spoof | noKey | keyOrphaned | policy | range | notOnCurve
  | pointZero | scalarRange | notInvertible | curveRejected | tableStale | domainOff | locked | busy | access | tooLate
  | notFresh | fault | quiesced | unsupported | length | emigrating
deriving DecidableEq, Repr

/-- Where a reply goes: the submission entry of a ring, a push window, CONSOLE, or a vital port with the ALIVE of the
request. -/
inductive Route where
  | ring (o : Owner) (index addr cap pidx : Nat)
  | push (n window : Nat)
  | console
  | vital (p : Port) (alive : Nat)
deriving DecidableEq, Repr

/-! ### Loops -/

/-- An instrument entry (Table 14-5) with the C of its latest response, the scans missed in a row and the unique identifier that
Command 0 gave (R488). -/
structure Inst where
  addr   : Nat
  status : Nat
  units  : Nat
  pv     : Nat
  ma     : Nat
  seen   : Bool
  at'    : Nat
  missed : Nat
  uid    : List Byte
deriving DecidableEq, Repr

/-- The kept result of a loop (R486). -/
structure Result where
  current : Int
  window  : Nat
  start   : Nat
  flags   : Nat
  insts   : List (Inst × Bool)
deriving DecidableEq, Repr

/-- A HART transaction on a loop: a command of the scan, or one passed through for LOOP.HART (R489, R499). -/
structure HartTx where
  addr    : Nat
  command : Nat
  pass    : Bool
deriving DecidableEq, Repr

/-- One loop (chapter 14): its assignment, the window in progress, the kept result, the states of thresholds and faults, the
instruments, and the scan: the transaction that runs, the commands that the scan still has to send, and whether the first scan
has begun (R489). -/
structure Loop where
  slice   : Nat
  wiring  : Nat
  drops   : Nat
  hart    : Bool
  window  : Nat
  low     : Nat
  high    : Nat
  hyst    : Nat
  start   : Option Nat
  mains   : Bool
  satur   : Bool
  result  : Option Result
  lowOn   : Bool
  highOn  : Bool
  sumOn   : Bool
  faultLo : Bool
  faultHi : Bool
  events  : Nat
  insts   : List Inst
  tx      : Option HartTx
  todo    : List (Nat × Nat)
  polled  : Bool
deriving DecidableEq, Repr

/-! ### Requests -/

/-- A request past the entry checks: where its reply goes, its header bytes, opcode, payload and digest, what its
execution meets outside, the stamp at arrival, the staging room it has reserved (R639), whether it has caused an event
entry so far (R97), whether its ownership checks have passed while it waits (Table 09-10), its number among the requests
that its context has accepted, and for LOOP.REPORT the loop as it was at acceptance (Table 14-7). -/
structure Rq where
  route  : Route
  hdr    : List Byte
  op     : Op
  body   : List Byte
  digest : List Byte
  x      : Ext
  c      : Nat
  phi    : Nat
  room   : Nat
  ev     : Bool
  past   : Bool
  no     : Nat
  loop   : Option Loop
deriving DecidableEq, Repr

/-- What a request waits for before its command-specific checks run (again). -/
inductive Wait where
  | binding (ch : Nat)
  | invalidate (ch : Nat)
  | sameSeq (ch seq : Nat)
  | key (slot : Nat)
  | writes (n : Nat)
  | stream (owner handle : Nat)
  | operands (owner : Nat)
  | rules (n : Nat)
  | step
  | turn
  | entry
  | install
deriving DecidableEq, Repr

/-- A host buffer descriptor (Table 04-8). -/
structure Desc where
  addr : Nat
  len  : Nat
  pidx : Nat
  dir  : Nat
deriving DecidableEq, Repr

/-- A stream context (R400). `chain` is the CBC value, `mac` the GHASH, CBC-MAC or CMAC state, `last` the block that
CMAC holds back. -/
structure Stream where
  owner  : Nat
  handle : Nat
  key    : Nat
  alg    : Nat
  op     : Nat
  tagLen : Nat
  iv     : List Byte
  chain  : List Byte
  mac    : List Byte
  last   : List Byte
  count  : Nat
  aadLen : Nat
  total  : Nat
deriving DecidableEq, Repr

/-- Bulk work of a SEAL command on the lanes (R395): segments left, times restarted, and what the last segment
releases: status, DETAIL, payload, output and the stream context to keep or close. -/
structure Bulk where
  owner  : Nat
  key    : Nat
  segs   : Nat
  tries  : Nat
  status : Status
  detail : Nat
  reply  : List Byte
  out    : Option Desc
  bytes  : List Byte
  keep   : Option Stream
  close  : Option Nat
deriving DecidableEq, Repr

/-- What a request in flight still needs. `held` requests run their command-specific checks again; the others are
ended by the row that reports the completion. `mult` counts the modular multiplications left of a BN command (0 for a
command whose count the spec does not give), names the slot that a creating command has chosen (0 for none), and holds
the message and the signature that were read from the host. -/
inductive Job where
  | held (w : Wait)
  | again
  | quiesce (n : Nat)
  | sliceReset (n : Nat)
  | invalidate (first count : Nat)
  | record (ch seq : Nat)
  | keyDestroy (slot : Nat)
  | bulk (b : Bulk)
  | mult (owner left slot : Nat) (msg sig : List Byte)
  | laneRetire (lane : Nat)
  | domainOff (domain : Nat)
  | domainOn (domain : Nat)
  | hart (loop : Nat)
  | card
  | late (status : Status) (detail : Nat) (reply : List Byte)
  | restart
deriving DecidableEq, Repr

/-- A request in flight. -/
structure Live where
  rq  : Rq
  job : Job
deriving DecidableEq, Repr

/-- An entry of the reply cache (R104). -/
structure Cached where
  id     : Nat
  digest : List Byte
  reply  : List Byte
deriving DecidableEq, Repr

/-- A packet fetched from a ring and not yet executed (R136), with the stamp at which its last byte arrived (R293). -/
structure Fetched where
  index  : Nat
  addr   : Nat
  cap    : Nat
  pidx   : Nat
  packet : List Byte
  c      : Nat
  phi    : Nat
deriving DecidableEq, Repr

/-- A completed reply that waits for its reply entry (R140): where it goes, its bytes, whether an interrupt is asked for,
whether it returns a credit, and the pending writes that must be complete before it (R141). -/
structure Done where
  route  : Route
  reply  : List Byte
  irq    : Bool
  credit : Bool
  after  : Nat
  whole  : Bool
deriving DecidableEq, Repr

/-- One ring (Table 04-4). -/
structure Ring where
  base     : Nat
  sizeLog2 : Nat
  enable   : Bool
  head     : Nat
  tail     : Nat
deriving DecidableEq, Repr

/-- An output write (R155), numbered in order of the commands, under the PASID of an index. -/
structure Pw where
  serial : Nat
  pidx   : Nat
  pasid  : Nat
  addr   : Nat
  bytes  : List Byte
deriving DecidableEq, Repr

/-- One of the 66 contexts (R99): index 0-63 slices, 64 the manager, 65 CONSOLE. `pw` holds the pending writes that the write
buffer has issued, `stalled` the output writes that wait for its space, or for D0 (R127, R155, R164), `taken` counts the
requests accepted. -/
structure Ctx where
  epoch     : Nat
  cache     : List Cached
  floor     : Option Nat
  credits   : Nat
  inbox     : List Fetched
  outbox    : List Done
  sq        : Ring
  cq        : Ring
  halt      : Bool
  accessErr : Bool
  dbErr     : Bool
  pwErr     : Bool
  dmaErr    : Bool
  dpmErr    : Bool
  irqEn     : Bool
  drops     : Nat
  pw        : List Pw
  stalled   : List Pw
  pwNext    : Nat
  streams   : List Stream
  handle    : Nat
  sigs      : Nat
  taken     : Nat
deriving DecidableEq, Repr

/-! ### Host port -/

/-- Dirty-page map control of a slice (Table 04-10), the swap in progress, whether ENABLE clears when it completes
(Table 04-11), and marks of issued writes not yet written (page numbers within the window). -/
structure Dpm where
  base0    : Nat
  base1    : Nat
  win      : Nat
  enable   : Bool
  active   : Bool
  swapDone : Bool
  allDirty : Bool
  mapErr   : Bool
  pages    : Nat
  swapping : Bool
  closing  : Bool
  marks    : List Nat
deriving DecidableEq, Repr

/-- Host-port state that belongs to no single context. `vectors` holds address and data of the MSI-X table (Table 04-2). -/
structure HostPort where
  pasid     : Nat
  valid     : Bool
  causes    : Nat
  further   : Nat
  masked    : List Nat
  msixPend  : List Nat
  vectors   : Tbl (Nat × Nat)
  linkUp    : Bool
  rate      : Nat
  width     : Nat
  d3hot     : Bool
  dpm       : Tbl Dpm
deriving DecidableEq, Repr

/-- What the ports drive: DMA requests, each with its PASID and in the pieces of R152, and what the other ports send. The list
of them is the model's own record: no meaning reads it (log entry 7). -/
inductive Out where
  | dma (pasid addr : Nat) (bytes : List Byte)
  | read (pasid addr len : Nat)
  | msix (vector : Nat)
  | console (bytes : List Byte)
  | vital (p : Port) (bytes : List Byte)
  | apdu (card : Serial) (bytes : List Byte)
  | cardPower (card : Serial) (on : Bool)
  | cardAgain (card : Serial) (resynch : Bool)
  | cardError (card : Serial)
  | hart (loop addr : Nat) (uid : List Byte) (command : Nat) (data : List Byte)
deriving DecidableEq, Repr

/-! ### Working memory, slices, channels -/

/-- Working memory: 40-bit words by address, and the words flagged with a double-bit error (R193). -/
structure Wm where
  cells : Tbl Word
  bad   : List Nat
deriving DecidableEq, Repr

/-- A part of a run: first word and length in words. -/
structure Part where
  base : Nat
  len  : Nat
deriving DecidableEq, Repr

/-- The run of a slice (R182): first word, words with its guard band, and its parts. -/
structure Run where
  base  : Nat
  words : Nat
  data  : Part
  ft0   : Option Part
  ft1   : Option Part
deriving DecidableEq, Repr

/-- Slice states (Table 06-1). -/
inductive SlSt where | free | created | active | quiescing | quiesced | emigrating | immigrating
deriving DecidableEq, Repr

/-- One slice. -/
structure Slc where
  st     : SlSt
  pasids : List Nat
  quota  : Nat
  run    : Option Run
deriving DecidableEq, Repr

/-- One field channel: the 64 bytes of the entry last in force (empty when none was), its window, its suspension flag and the
two copies of TOP (R211, R299, R300). `gen` and `check` are kept apart because they outlive the entry; `evicted` marks an
entry that left a full cache (R220). -/
structure Chan where
  entry     : List Byte
  gen       : Nat
  check     : Nat
  top       : Nat
  mask      : Nat
  suspended : Bool
  evicted   : Bool
  backup    : Option Nat
  flash     : Nat
deriving DecidableEq, Repr

/-- Ripeness states (Table 08-5); a WINDFALL record is freed at once and so is never held. -/
inductive RecSt where | green | ripe | confirmed | offered
deriving DecidableEq, Repr

/-- A release record (R298): the command and the entry it came under, its arrival, whether checks 10 to 13 passed while it is
GREEN, its target slot and rolls, the first word of its frame table, the framed data, the lanes of its two computations, and the
drawn delay between them. -/
structure Rec where
  ch        : Nat
  seq       : Nat
  slice     : Nat
  st        : RecSt
  body      : List Byte
  entry     : List Byte
  arrC      : Nat
  arrSlot   : Nat
  passed    : Bool
  target    : Nat
  rolls     : Nat
  table     : Nat
  data      : List Byte
  len       : Nat
  lane      : Nat
  lane2     : Nat
  delay     : Nat
deriving DecidableEq, Repr

/-! ### Vital ports -/

/-- Modes and session states of a vital port (R251, R264). -/
inductive VpMode where | disabled | plain | guarded
deriving DecidableEq, Repr

inductive Session where | closed | open' | lost
deriving DecidableEq, Repr

/-- The reply that FETCH reads from (R262). -/
structure VReply where
  op     : Nat
  status : Nat
  detail : Nat
  stamp  : List Byte
  body   : List Byte
  alive  : Nat
deriving DecidableEq, Repr

/-- One vital port. `ownSent` is the ALIVE of the response sent in the last started frame, `stretch` tells whether RDY is low
from the end of that frame until its response is ready (R248). `resp` is the response that the next started frame carries (60
bytes before the CRC, without own ALIVE and BAD_PREV); `stored` the last response built for L; `ready` a reply that became
ready and waits for an IDLE frame; `held` the slot, INDEX and ALIVE of a held poll (R275). RDY is not stored: `State.rdyHigh`
computes its level. -/
structure Vp where
  mode      : VpMode
  key       : Option (List Byte)
  failed    : Bool
  session   : Session
  number    : Nat
  last      : Nat
  own       : Nat
  ownSent   : Option Nat
  misses    : Nat
  badPrev   : Bool
  vio       : Bool
  clkMode   : Bool
  stretch   : Bool
  resp      : List Byte
  stored    : List Byte
  reply     : Option VReply
  ready     : Option VReply
  held      : Option (Nat × Nat × Nat)
  ignored   : Nat
  lostFr    : Nat
  retx      : Nat
  echoErr   : Nat
  pollSlot  : Nat
  pollValid : Bool
deriving DecidableEq, Repr

/-! ### Key store -/

/-- Attributes of a key (Table 09-3). -/
structure Attr where
  type      : Nat
  level     : Nat
  size      : Nat
  usage     : Nat
  flags     : Nat
  origin    : Nat
  faultMode : Nat
  channel   : Nat
  parent    : Nat
  parentGen : Nat
  gen       : Nat
  owner     : Nat
deriving DecidableEq, Repr

/-- One hop of a lineage (Table 10-5). -/
structure Hop where
  device   : List Byte
  origin   : Nat
  slice    : Nat
  slot     : Nat
  transfer : Nat
  c        : Nat
deriving DecidableEq, Repr

/-- The state of an HSS key (R366-R369): NEXT, the next leaf of the block in use, the highest bottom tree built, whether
the next one is being built, and whether NEXT is lost (R384). -/
structure Hss where
  next     : Nat
  leaf     : Nat
  built    : Nat
  building : Bool
  lost     : Bool
deriving DecidableEq, Repr

/-- The two flash copies of a record (R352, R353): whether each passes its check, the C of its last rewrite, and the write
count of the nonce. -/
structure Flash where
  okA    : Bool
  okB    : Bool
  ageA   : Nat
  ageB   : Nat
  writes : Nat
deriving DecidableEq, Repr

/-- A key record: attributes, secret encoding and public encoding of Table 09-7, lineage and PFLAGS (Table 10-4), GCM
protect count and its flash copy (R390), HSS state, freeze, and its flash copies. -/
structure Key where
  attr   : Attr
  secret : List Byte
  pub    : List Byte
  hops   : List Hop
  pflags : Nat
  gcm    : Nat
  gcmMem : Nat
  hss    : Hss
  frozen : Bool
  flash  : Flash
deriving DecidableEq, Repr

/-- A key slot (R334, R336). `lostHss` is the owner of an HSS private key that was lost in it, while no other key fills it
(R357, R384). -/
structure Slot where
  gen     : Nat
  retired : Bool
  key     : Option Key
  lostHss : Option Nat
deriving DecidableEq, Repr

/-- A card registration (R450). -/
structure Reg where
  pub  : List Byte
  role : Nat
deriving DecidableEq, Repr

/-- The open transfer on the origin (R228). -/
structure Transfer where
  number : Nat
  slice  : Nat
  digest : List Byte
  keys   : Nat
deriving DecidableEq, Repr

/-- The four certificates of the chain bundle (R364, R365). -/
structure Certs where
  ec    : List Byte
  ecCa  : List Byte
  hss   : List Byte
  hssCa : List Byte
deriving DecidableEq, Repr

/-- The key store and the device's own secrets. `devs` holds the flash copies of the device-reserved slots, `gone` those of the
identity root whose key was lost (R357). `peerKeys` holds what the chain bundle of the paired peer vouched for: its P-384 and HSS
public keys and its tree certificate (log entry 25). -/
structure KeyStore where
  slots     : Tbl Slot
  devs      : Tbl Flash
  gone      : List Nat
  cache     : List Nat
  root      : Option (List Byte)
  identity  : Bool
  ecPriv    : Nat
  ecPub     : List Byte
  hssSeed   : List Byte
  hssIdent  : List Byte
  hssPub    : List Byte
  hss       : Hss
  treeCert  : List Byte
  certs     : Certs
  deviceId  : List Byte
  fwKeys    : List Byte
  rootKeys  : List Byte
  regs      : Tbl (Option Reg)
  pairKey   : Option (List Byte)
  peerId    : List Byte
  peerKeys  : Option (List Byte × List Byte × List Byte)
  eph       : Option Nat
  offer     : List Byte
  counter   : Nat
  transfer  : Option Transfer
  highest   : List (List Byte × Nat)
  curves    : Tbl (Option Curve)
  tombstone : Option (List Byte)
  tombed    : Bool
  sweepAt   : Nat
  swept     : Nat
  sigs      : Nat
deriving DecidableEq, Repr

/-! ### Lanes and multiplier -/

/-- Lane states (Table 11-1). -/
inductive LaneSt where | inService | retiring | retired | testing | probation
deriving DecidableEq, Repr

/-- Work on a lane: the first computation of a record, its recomputation, a bulk segment of a context, or generated
known-answer work (R412). -/
inductive Work where
  | first (ch seq : Nat)
  | second (ch seq : Nat)
  | bulk (owner : Nat)
  | kat
deriving DecidableEq, Repr

/-- One lane (Table 11-7): `work` holds its active work and after it the saved contexts, `queue` the work chosen for it and not
started, `copies` what a lane in PROBATION has still to compare (R412). -/
structure Lane where
  st     : LaneSt
  cause  : Nat
  gated  : Bool
  left   : Nat
  ops    : Nat
  misses : Nat
  work   : List Work
  queue  : List Work
  copies : List Work
  on     : Bool
deriving DecidableEq, Repr

/-- The Quince multiplier: its accumulator (R422), scratch memory (R424), turn (R443), and gate. -/
structure Mult where
  acc     : List (BitVec 96)
  scratch : List Word
  turn    : Nat
  gated   : Bool
deriving DecidableEq, Repr

/-! ### Events -/

/-- A recorded entry: SEQ, its bytes 0-23 (Table 16-1) and the full head before it (R546). -/
structure Entry where
  seq    : Nat
  bytes  : List Byte
  before : List Byte
  okA    : Bool
  okB    : Bool
deriving DecidableEq, Repr

/-- An event not yet recorded: code with the QUEUED bit, origin and DETAIL. -/
structure Ev where
  code   : Nat
  origin : Nat
  detail : List Byte
deriving DecidableEq, Repr

/-- The event recorder (chapter 16). -/
structure Evr where
  next     : Nat
  head     : List Byte
  staged   : List Entry
  flash    : List Entry
  notice   : Nat
  overflow : Bool
  brk      : Bool
  limited  : Nat
  lost     : Nat
  lostCode : Nat
  held     : List Ev
  frozen   : Bool
deriving DecidableEq, Repr

/-! ### Ceremonies and serial ports -/

/-- States of a ceremony (Table 13-1). -/
inductive CerSt where | open' | running | authorised
deriving DecidableEq, Repr

/-- An approval: the card's public key, its registration index or 0xFF, and its role (1 SECURITY, 2 OPERATIONS). -/
structure Approval where
  pub   : List Byte
  index : Nat
  role  : Nat
deriving DecidableEq, Repr

/-- The open ceremony (R454-R457). `stop` is the stamp of the end of its window; `since` that of its
CEREMONY.START, absent when none was issued (R459). -/
structure Cer where
  number    : Nat
  type      : Nat
  params    : List Byte
  nonce     : List Byte
  digest    : List Byte
  st        : CerSt
  approvals : List Approval
  enrolled  : List (List Byte)
  steps     : Nat
  comp      : List Byte
  since     : Option (Nat × Nat)
  stop      : Option (Nat × Nat)
  origin    : Nat
deriving DecidableEq, Repr

/-- Stages of a card exchange (Table 13-3). -/
inductive Stage where | atr | select | identity | sign | component
deriving DecidableEq, Repr

/-- The card exchange in progress (R463-R465); `bad` counts the invalid T=1 blocks in a row (Table 13-4). -/
structure Exch where
  card   : Serial
  enrol  : Bool
  stage  : Stage
  resets : Nat
  pub    : List Byte
  eph    : Nat
  bad    : Nat
deriving DecidableEq, Repr

/-- A serial port: its receive queue (Table 13-6) and counters; for a card port the parameters in force (R467, R468):
class, inverse convention, Fi and Di, clock in kHz, protocol T and guard time N; `reps` counts the repetitions of one character
(Table 13-4). -/
structure SerialPort where
  queue    : List (BitVec 16)
  noise    : Nat
  errors   : Nat
  overruns : Nat
  powered  : Bool
  cls      : Nat
  inverse  : Bool
  fi       : Nat
  di       : Nat
  khz      : Nat
  proto    : Nat
  guard    : Nat
  failed   : Bool
  reps     : Nat
deriving DecidableEq, Repr

/-- Custodians and serial ports (chapter 13). -/
structure Custody where
  cer     : Option Cer
  outcome : Nat
  exch    : Option Exch
  cardA   : SerialPort
  cardB   : SerialPort
  console : SerialPort
  baud    : Nat
  policy  : Nat
deriving DecidableEq, Repr

/-! ### Tamper, power -/

/-- Life-cycle states (Table 15-5). -/
inductive Life where | factory | blank | service | locked | decommissioned
deriving DecidableEq, Repr

/-- A firing held in the unpowered queue (R532). -/
structure Queued where
  source   : Nat
  response : Nat
  ticks    : Nat
  further  : Nat
deriving DecidableEq, Repr

/-- Tamper supervision (chapter 15). `due` lists the sources found asserted at power-up that fire once the latches are
applied (R510, R532). `decom` is the transition to DECOMMISSIONED that TS12 has begun, with the state left, until the tombstone is
signed and the identity root destroyed (R515). -/
structure Tamper where
  life      : Life
  response  : List Nat
  options   : Nat
  fused     : Nat
  asserted  : Nat
  latched   : Nat
  lastSrc   : Nat
  lastResp  : Nat
  lastStamp : List Byte
  quiet     : Tbl (Option Nat × Nat)
  alarm     : Bool
  lock      : Bool
  erase     : Bool
  decom     : Option Life
  queue     : List Queued
  src       : Nat
  cellMv    : Nat
  capHours  : Nat
  capFull   : Bool
  split     : Bool
  restart   : Bool
  due       : List Nat
deriving DecidableEq, Repr

/-- A firmware bank (R578). -/
structure Bank where
  valid   : Bool
  version : Nat
  build   : Nat
  floor   : Nat
  digest  : List Byte
deriving DecidableEq, Repr

/-- Power, start-up and firmware (chapter 17), the approved indicator (chapter 19) and the DRBG. `starting` is the EV_RESET
code of the device reset being run, or 0 for a power-up, while the module is not ready. -/
structure Power where
  main      : Bool
  ready     : Bool
  halted    : Bool
  warned    : Bool
  starting  : Option Nat
  armed     : Option Nat
  selftest  : Nat
  failed    : List Nat
  bank0     : Bank
  bank1     : Bank
  active    : Nat
  pendBank  : Option Nat
  running   : Nat
  floor     : Nat
  rises     : Nat
  loopOn    : Bool
  loopFail  : Bool
  silicon   : Nat
  approved  : Nat
  unapprove : Bool
  drbgStop  : Bool
  drbgReqs  : Nat
  turn      : Nat
deriving DecidableEq, Repr

/-- The state of the block. -/
structure State where
  pending : List Instr
  ph      : Phase
  ctxs    : Tbl Ctx
  live    : List Live
  hp      : HostPort
  wm      : Wm
  slices  : Tbl Slc
  chans   : Tbl Chan
  cached  : List (Nat × List Byte)
  table   : Option Nat
  recs    : List Rec
  vpA     : Vp
  vpB     : Vp
  ks      : KeyStore
  lanes   : Tbl Lane
  mult    : Mult
  evr     : Evr
  cus     : Custody
  loops   : Tbl Loop
  tam     : Tamper
  pow     : Power
  drawn   : Nat
  out     : List Out
deriving DecidableEq, Repr

/-! ### Values at reset -/

def Phase.init : Phase where
  st := .none
  band := 0
  cSet := false
  c := 0
  phi := 0
  missing := 0
  good := 0
  lowSignal := false
  outOfBand := false
  history := []
  period := 0
  since := 0
  left := 0
  corr := 0
  unlocked := false
  resume := 0
  resumed := false
  fresh := false
  unbounded := false
  waiting := none
  cp := 0
  tp := 0
  seq := 0
  copies := [none, none, none, none]
  ticks := 0
  audited := none

def Ring.init : Ring := ⟨0, 0, false, 0, 0⟩

/-- A context after reset. DESIGN CHOICE (log entry 2): epoch 1, where R100 draws a non-zero value. -/
def Ctx.init : Ctx where
  epoch := 1
  cache := []
  floor := none
  credits := 32
  inbox := []
  outbox := []
  sq := .init
  cq := .init
  halt := false
  accessErr := false
  dbErr := false
  pwErr := false
  dmaErr := false
  dpmErr := false
  irqEn := false
  drops := 0
  pw := []
  stalled := []
  pwNext := 0
  streams := []
  handle := 1
  sigs := 0
  taken := 0

def Dpm.init : Dpm := ⟨0, 0, 0, false, false, false, false, false, 0, false, false, []⟩

/-- PRESUMED (log entry 2): every vector starts masked, as the PCI Express Base Specification has it, and the link is up
at 16 GT/s x4. -/
def HostPort.init : HostPort where
  pasid := 0
  valid := false
  causes := 0
  further := 0
  masked := List.range 72
  msixPend := []
  vectors := []
  linkUp := true
  rate := 4
  width := 4
  d3hot := false
  dpm := []

def Slc.init : Slc := ⟨.free, [], 0, none⟩

/-- A channel on which nothing was ever accepted. DESIGN CHOICE (log entry 12): TOP 0 and every MASK bit set. -/
def Chan.init : Chan := ⟨[], 0, 0, 0, 2 ^ 64 - 1, false, false, none, 0⟩

/-- PRESUMED (log entry 2): VIO is present. -/
def Vp.init : Vp where
  mode := .disabled
  key := none
  failed := false
  session := .closed
  number := 0
  last := 0
  own := 0
  ownSent := none
  misses := 0
  badPrev := false
  vio := true
  clkMode := false
  stretch := false
  resp := zeros 60
  stored := zeros 60
  reply := none
  ready := none
  held := none
  ignored := 0
  lostFr := 0
  retx := 0
  echoErr := 0
  pollSlot := 0
  pollValid := false

def Flash.init : Flash := ⟨true, true, 0, 0, 0⟩
def Slot.init : Slot := ⟨0, false, none, none⟩
def Hss.init : Hss := ⟨0, 0, 0, false, false⟩

/-- DEVICE_ID under the two identity public keys (R363). -/
def deviceIdFrom (ec hss : List Byte) : List Byte := (sha256 (ec ++ hss)).take 8

/-- The key store of a delivered module. DESIGN CHOICE (log entry 2): the P-384 identity key is the scalar 1, the HSS identity
values are zeros, the certificates and the verification keys are empty. -/
def KeyStore.init : KeyStore where
  slots := []
  devs := []
  gone := []
  cache := []
  root := none
  identity := true
  ecPriv := 1
  ecPub := p384.encode p384.gen
  hssSeed := zeros 32
  hssIdent := zeros 16
  hssPub := zeros 60
  hss := .init
  treeCert := []
  certs := ⟨[], [], [], []⟩
  deviceId := deviceIdFrom (p384.encode p384.gen) (zeros 60)
  fwKeys := []
  rootKeys := []
  regs := []
  pairKey := none
  peerId := zeros 8
  peerKeys := none
  eph := none
  offer := []
  counter := 0
  transfer := none
  highest := []
  curves := []
  tombstone := none
  tombed := false
  sweepAt := 0
  swept := 0
  sigs := 0

def Lane.init : Lane := ⟨.inService, 0, false, 0, 0, 0, [], [], [], true⟩
def Mult.init : Mult := ⟨List.replicate 16 0, [], 0, false⟩

/-- An empty record over the chain start G of a DEVICE_ID (R546). -/
def Evr.init (deviceId : List Byte) : Evr where
  next := 0
  head := sha256 (ascii "D256-EVR" ++ deviceId)
  staged := []
  flash := []
  notice := 0
  overflow := false
  brk := false
  limited := 0
  lost := 0
  lostCode := 0
  held := []
  frozen := false

def SerialPort.init : SerialPort := ⟨[], 0, 0, 0, false, 0, false, 372, 1, 3750, 0, 0, false, 0⟩

/-- Serial configuration 0x04_04_00_00 until one is set (R473). -/
def Custody.init : Custody := ⟨none, 0, none, .init, .init, .init, 4, 4⟩

def Loop.init : Loop := ⟨0xFF, 0, 0, false, 1, 0, 0, 0, none, false, false, none, false, false, false, false, false, 0,
    [], none, [], false⟩

/-- Default responses of Table 15-1. -/
def defaultResponses : List Nat := [3, 3, 2, 0, 0, 2, 2, 2, 3, 0, 0, 0, 3, 2, 2, 1]

/-- DESIGN CHOICE (log entries 1 and 2): BLANK, nothing asserted, main supply, a good cell and a full supercapacitor. -/
def Tamper.init : Tamper where
  life := .blank
  response := defaultResponses
  options := 0
  fused := 0
  asserted := 0
  latched := 0
  lastSrc := 0xFF
  lastResp := 0
  lastStamp := zeros 8
  quiet := []
  alarm := false
  lock := false
  erase := false
  decom := none
  queue := []
  src := 0
  cellMv := 3000
  capHours := 72
  capFull := true
  split := false
  restart := false
  due := []

/-- DESIGN CHOICE (log entry 2): bank 0 holds a valid image of Drinum 3.2, build and floor 0. -/
def Power.init : Power where
  main := true
  ready := true
  halted := false
  warned := false
  starting := none
  armed := none
  selftest := 0
  failed := []
  bank0 := ⟨true, 0x0302, 0, 0, []⟩
  bank1 := ⟨false, 0, 0, 0, []⟩
  active := 0
  pendBank := none
  running := 0
  floor := 0
  rises := 0
  loopOn := true
  loopFail := false
  silicon := 0
  approved := 0
  unapprove := false
  drbgStop := false
  drbgReqs := 0
  turn := 0

/-- The delivered module right after its first power-up: BLANK, ready, phase unit NONE (log entry 1). -/
def State.reset : State where
  pending := []
  ph := .init
  ctxs := []
  live := []
  hp := .init
  wm := ⟨[], []⟩
  slices := []
  chans := []
  cached := []
  table := none
  recs := []
  vpA := .init
  vpB := .init
  ks := .init
  lanes := []
  mult := .init
  evr := .init KeyStore.init.deviceId
  cus := .init
  loops := []
  tam := .init
  pow := .init
  drawn := 0
  out := []

end Sys2Proof.Machine
end

