-- ==== Sys2Proof/Machine/Flags.lean ====
section
/-! DEFINITION. Codes and flags that the spec computes from the state: status codes, state codes, the FLAGS of the stamp
field, FREQ, the flags of replies and reply entries, and the approved-operation indicator. -/

namespace Sys2Proof.Machine

/-- Status values (Table 03-7). -/
def Status.code : Status → Nat
  | .ok => 0x00 | .authFail => 0x01 | .duplicate => 0x02 | .idConflict => 0x03 | .staleEpoch => 0x04 | .spoof => 0x05
  | .noKey => 0x06 | .keyOrphaned => 0x07 | .policy => 0x08 | .range => 0x09 | .notOnCurve => 0x0A | .pointZero => 0x0B
  | .scalarRange => 0x0C | .notInvertible => 0x0D | .curveRejected => 0x0E | .tableStale => 0x0F | .domainOff => 0x10
  | .locked => 0x11 | .busy => 0x12 | .access => 0x13 | .tooLate => 0x14 | .notFresh => 0x15 | .fault => 0x16
  | .quiesced => 0x17 | .unsupported => 0x18 | .length => 0x19 | .emigrating => 0x1A

/-- Life-cycle codes (Table 15-5). -/
def Life.code : Life → Nat
  | .factory => 0 | .blank => 1 | .service => 2 | .locked => 3 | .decommissioned => 4

/-- Phase-unit state codes (Table 02-3). -/
def PhSt.code : PhSt → Nat
  | .none => 0 | .acquire => 1 | .lock => 2 | .hold => 3 | .coast => 4 | .slew => 5 | .fault => 6 | .stopped => 7

/-- Slice state codes (Table 06-1). -/
def SlSt.code : SlSt → Nat
  | .free => 0 | .created => 1 | .active => 2 | .quiescing => 3 | .quiesced => 4 | .emigrating => 5 | .immigrating => 6

/-- Lane state codes (Table 11-1). -/
def LaneSt.code : LaneSt → Nat
  | .inService => 0 | .retiring => 1 | .retired => 2 | .testing => 3 | .probation => 4

/-- The codes of DmaErr in EV_HOST_DMA (Table 16-4). -/
def dmaCode : DmaErr → Nat
  | .ur => 1 | .ca => 2 | .poisoned => 3 | .timeout => 4

/-! ### Time -/

/-- Whether stamps are issued (Table 02-3). -/
def Phase.issuing (p : Phase) : Bool :=
  match p.st with
  | .lock | .hold | .coast | .slew => true
  | .none | .acquire | .fault | .stopped => false

/-- FLAGS of the stamp field (Table 02-4). -/
def Phase.flags (p : Phase) : Nat :=
  b01 (p.st == .coast || (p.st == .hold && p.unlocked)) + 2 * b01 (p.st == .slew)
    + 4 * b01 (p.resumed && decide (p.c < p.resume + 65536)) + 8 * b01 p.unbounded + 16 * b01 (p.st == .stopped)

/-- The stamp field of Table 02-4; zero while no stamp is issued, except in STOPPED (R634). -/
def Phase.stamp (p : Phase) : List Byte :=
  if p.issuing || p.st == .stopped then be 5 p.c ++ be 2 p.phi ++ [byte p.flags] else zeros 8

/-- Nominal frequency of a band in Hz, as a fraction (R11). -/
def bandNominal (band : Nat) : Nat × Nat :=
  if band = 1 then (50, 3) else if band = 2 then (50, 1) else (60, 1)

/-- Accepted frequency range of a band in Hz (Table 02-1). -/
def bandRange (band : Nat) : Nat × Nat :=
  if band = 1 then (15, 18) else if band = 2 then (45, 55) else (54, 66)

/-- Nominal cycle of a band in ns. -/
def nominalCycle (band : Nat) : Nat :=
  let (n, d) := bandNominal band
  1000000000 * d / n

/-- A frequency in units of 1/512 Hz from a period in ns, to the nearest unit (Table 02-5; rounding: log entry 13). -/
def freqOf (periodNs : Nat) : Nat := if periodNs = 0 then 0 else (512000000000 + periodNs / 2) / periodNs

/-- The mean period of the good-cycle history (R48), or the nominal period of the band when it is empty. -/
def Phase.meanPeriod (p : Phase) : Nat :=
  if p.history.length = 0 then nominalCycle p.band else p.history.sum / p.history.length

/-- FREQ of Table 02-5: the mean of the history, and in COAST the frequency coasted on. DESIGN CHOICE (log entry 13): 0 while
the history is empty outside COAST, where the table gives no mean. -/
def Phase.freq (p : Phase) : Nat :=
  if p.history.length = 0 && p.st != .coast then 0 else sat 16 (freqOf p.meanPeriod)

/-- C:phi as one number (R53). -/
def Phase.now (p : Phase) : Nat := p.c * 65536 + p.phi

/-- The absolute number of the slot in force (R57). -/
def Phase.slot (p : Phase) : Nat := p.c * 64 + p.phi / 1024

/-! ### Replies -/

/-- RFLAGS of the reply header (Table 03-2). -/
def rflags (replayed event : Bool) : Nat := b01 replayed + 2 * b01 event

/-- CQFLAGS of a reply entry (Table 04-6). -/
def cqflags (phase full trunc : Bool) : Nat := b01 phase + 2 * b01 full + 4 * b01 trunc

/-- PHASE of the reply entry with free-running index `tail` in a ring of `size` entries (R138). -/
def ringPhase (tail size : Nat) : Bool := tail / size % 2 == 0

/-! ### Approved-operation indicator -/

/-- The mode that a vital port is in: DISABLED after a failed self-test (R286). -/
def Vp.shown (v : Vp) : VpMode := if v.failed then .disabled else v.mode

/-- Whether every condition of Table 19-1 that the module checks holds. -/
def State.conditions (s : State) : Bool :=
  let b := if s.pow.running = 0 then s.pow.bank0 else s.pow.bank1
  let strong := fun i => !bit s.tam.fused i && decide (2 ≤ s.tam.response.getD i 0)
  b.valid && b.version == 0x0302 && s.tam.life == .service && decide (s.pow.selftest ≤ 1)
    && strong 5 && strong 6 && strong 8 && s.vpA.shown != .plain && s.vpB.shown != .plain && !s.pow.unapprove

/-- The value of the indicator (Table 19-2): ERROR while a continuous test has failed and its repeated tests have not
passed, and after a self-test failure that halts the module (R632). -/
def State.indicator (s : State) : Nat :=
  if s.pow.drbgStop || (s.pow.halted && decide (s.pow.selftest = 2)) then 2 else b01 s.conditions

end Sys2Proof.Machine
end

