-- ==== Sys2Proof/Machine/Operands.lean ====
section
/-! DEFINITION. Operand forms: the request header (Table 03-1), host buffer descriptors (Table 04-8), working-memory
references (Table 05-5), the opcodes of Table 03-4 with their levels and ports, and payload sizes (R636). -/

namespace Sys2Proof.Machine

/-- One byte of a string as a number, zero where there is none. -/
def at8 (bs : List Byte) (i : Nat) : Nat := (bs.getD i 0#8).toNat

/-! ### Header (Table 03-1) -/

def hdrVersion (p : List Byte) : Nat := at8 p 0
def hdrKind (p : List Byte) : Nat := at8 p 1
def hdrOpcode (p : List Byte) : Nat := fld p 2 2
def hdrId (p : List Byte) : Nat := fld p 4 5
def hdrEpoch (p : List Byte) : Nat := fld p 9 3
def hdrSource (p : List Byte) : Nat := at8 p 12
def hdrFlags (p : List Byte) : Nat := at8 p 13
def hdrLength (p : List Byte) : Nat := fld p 14 2

/-- The request digest of R103. -/
def digestOf (packet : List Byte) : List Byte := (sha256 packet).take 16

/-! ### Opcodes (Table 03-4) -/

/-- The opcode of each command. -/
def Op.code : Op → Nat
  | .sysInfo => 0x0101 | .sysSelftest => 0x0102 | .sysReset => 0x0103
  | .stampRead => 0x0201 | .stampReport => 0x0202
  | .sliceCreate => 0x0301 | .sliceBind => 0x0302 | .sliceQuota => 0x0303 | .sliceQuiesce => 0x0304
  | .sliceResume => 0x0305 | .sliceReset => 0x0306 | .sliceRemove => 0x0307 | .sliceStatus => 0x0308
  | .sliceEmigrate => 0x0309 | .sliceImmigrate => 0x030A | .sliceReceipt => 0x030B | .sliceRefuse => 0x030C
  | .channelInvalidate => 0x0401 | .channelStatus => 0x0402 | .fieldCommand => 0x0501
  | .keyGen => 0x0601 | .keyImport => 0x0602 | .keyWrap => 0x0603 | .keyUnwrap => 0x0604 | .keyDerive => 0x0605
  | .keyDestroy => 0x0606 | .keyAttr => 0x0607
  | .sealOnce => 0x0701 | .sealInit => 0x0702 | .sealUpdate => 0x0703 | .sealFinal => 0x0704 | .sealAbort => 0x0705
  | .hashDigest => 0x0801
  | .bnMac => 0x0901 | .bnMul => 0x0902 | .bnModmul => 0x0903 | .bnModinv => 0x0904 | .bnModexp => 0x0905
  | .pkSign => 0x0A01 | .pkVerify => 0x0A02 | .pkAgree => 0x0A03 | .pkEncrypt => 0x0A04 | .pkDecrypt => 0x0A05
  | .pkLoadCurve => 0x0A06 | .rngDraw => 0x0B01
  | .laneRetire => 0x0C01 | .laneRestore => 0x0C02 | .laneStatus => 0x0C03
  | .loopRead => 0x0D01 | .loopReport => 0x0D02 | .loopHart => 0x0D03 | .loopAssign => 0x0D04 | .loopPower => 0x0D05
  | .logRead => 0x0E01 | .logHead => 0x0E02 | .logClear => 0x0E03
  | .attestDevice => 0x0F01 | .attestKey => 0x0F02
  | .ceremonyStart => 0x1001 | .ceremonyStep => 0x1002 | .ceremonyCancel => 0x1003 | .ceremonyStatus => 0x1004
  | .peerPair => 0x1101 | .peerUnpair => 0x1102 | .peerStatus => 0x1103
  | .fwLoad => 0x1201 | .fwActivate => 0x1202 | .fwStatus => 0x1203
  | .tamperStatus => 0x1301 | .tamperConfig => 0x1302 | .powerDomain => 0x1401
  | .vpOpen => 0x1501 | .vpPoll => 0x1502 | .vpResync => 0x1503

/-- Every command of Table 03-4, in its order. -/
def Op.all : List Op :=
  [.sysInfo, .sysSelftest, .sysReset, .stampRead, .stampReport, .sliceCreate, .sliceBind, .sliceQuota, .sliceQuiesce,
    .sliceResume, .sliceReset, .sliceRemove, .sliceStatus, .sliceEmigrate, .sliceImmigrate, .sliceReceipt, .sliceRefuse,
    .channelInvalidate, .channelStatus, .fieldCommand, .keyGen, .keyImport, .keyWrap, .keyUnwrap, .keyDerive,
    .keyDestroy, .keyAttr, .sealOnce, .sealInit, .sealUpdate, .sealFinal, .sealAbort, .hashDigest] ++
  [.bnMac, .bnMul, .bnModmul, .bnModinv, .bnModexp, .pkSign, .pkVerify, .pkAgree, .pkEncrypt, .pkDecrypt, .pkLoadCurve,
    .rngDraw, .laneRetire, .laneRestore, .laneStatus, .loopRead, .loopReport, .loopHart, .loopAssign, .loopPower,
    .logRead, .logHead, .logClear, .attestDevice, .attestKey, .ceremonyStart, .ceremonyStep, .ceremonyCancel,
    .ceremonyStatus, .peerPair, .peerUnpair, .peerStatus, .fwLoad, .fwActivate, .fwStatus, .tamperStatus, .tamperConfig,
    .powerDomain, .vpOpen, .vpPoll, .vpResync]

/-- The command of an opcode (R108). -/
def Op.ofCode (n : Nat) : Option Op := Op.all.find? (fun o => o.code == n)

/-- Levels of Table 03-4: manager, tenant, port. -/
def Op.levels : Op → Bool × Bool × Bool
  | .sysInfo | .stampRead | .logRead | .logHead | .logClear => (true, true, true)
  | .sysSelftest | .sysReset | .sliceCreate | .sliceBind | .sliceQuota | .sliceQuiesce | .sliceResume | .sliceRemove
  | .sliceEmigrate | .sliceImmigrate | .sliceReceipt | .sliceRefuse | .channelInvalidate | .laneRetire | .laneRestore
  | .laneStatus | .loopAssign | .loopPower | .peerPair | .peerUnpair | .peerStatus | .fwLoad | .fwActivate
  | .tamperConfig | .powerDomain => (true, false, false)
  | .stampReport | .sliceReset | .sliceStatus | .channelStatus | .keyGen | .keyImport | .keyWrap | .keyUnwrap
  | .keyDerive | .keyDestroy | .keyAttr | .sealOnce | .sealInit | .sealUpdate | .sealFinal | .sealAbort | .hashDigest
  | .bnMac | .bnMul | .bnModmul | .bnModinv | .bnModexp | .pkSign | .pkVerify | .pkAgree | .pkEncrypt | .pkDecrypt
  | .pkLoadCurve | .rngDraw | .loopRead | .loopReport | .attestDevice | .attestKey => (true, true, false)
  | .fieldCommand | .loopHart => (false, true, false)
  | .ceremonyStart | .ceremonyStep | .ceremonyCancel | .ceremonyStatus | .fwStatus | .tamperStatus => (true, false, true)
  | .vpOpen | .vpPoll | .vpResync => (false, false, true)

/-- Ports of Table 03-4: host port, CONSOLE, vital port. -/
def Op.ports : Op → Bool × Bool × Bool
  | .sysInfo | .stampRead | .logRead | .logHead | .logClear => (true, true, true)
  | .ceremonyStart | .ceremonyStep | .ceremonyCancel | .ceremonyStatus | .fwStatus | .tamperStatus => (true, true, false)
  | .vpOpen | .vpPoll | .vpResync => (false, false, true)
  | .sysSelftest | .sysReset | .stampReport | .sliceCreate | .sliceBind | .sliceQuota | .sliceQuiesce | .sliceResume
  | .sliceReset | .sliceRemove | .sliceStatus | .sliceEmigrate | .sliceImmigrate | .sliceReceipt | .sliceRefuse
  | .channelInvalidate | .channelStatus | .fieldCommand | .keyGen | .keyImport | .keyWrap | .keyUnwrap | .keyDerive
  | .keyDestroy | .keyAttr | .sealOnce | .sealInit | .sealUpdate | .sealFinal | .sealAbort | .hashDigest | .bnMac
  | .bnMul | .bnModmul | .bnModinv | .bnModexp | .pkSign | .pkVerify | .pkAgree | .pkEncrypt | .pkDecrypt | .pkLoadCurve
  | .rngDraw | .laneRetire | .laneRestore | .laneStatus | .loopRead | .loopReport | .loopHart | .loopAssign | .loopPower
  | .attestDevice | .attestKey | .peerPair | .peerUnpair | .peerStatus | .fwLoad | .fwActivate | .tamperConfig
  | .powerDomain => (true, false, false)

/-- Whether a module in a life-cycle state executes a command (Table 15-7). CEREMONY commands in LOCKED meet R461. -/
def Op.runsIn (o : Op) (l : Life) : Bool :=
  match o with
  | .sysInfo | .stampRead | .logRead | .fwStatus | .tamperStatus => true
  | .attestDevice => l != .factory
  | .logHead | .sysReset | .sysSelftest | .sliceStatus | .channelStatus | .laneStatus | .peerStatus | .vpOpen
  | .vpResync | .ceremonyStart | .ceremonyStep | .ceremonyCancel | .ceremonyStatus =>
    l == .blank || l == .service || l == .locked
  | .fwLoad | .fwActivate | .tamperConfig | .logClear => l == .blank || l == .service
  | .stampReport | .sliceCreate | .sliceBind | .sliceQuota | .sliceQuiesce | .sliceResume | .sliceReset | .sliceRemove
  | .sliceEmigrate | .sliceImmigrate | .sliceReceipt | .sliceRefuse | .channelInvalidate | .fieldCommand | .keyGen
  | .keyImport | .keyWrap | .keyUnwrap | .keyDerive | .keyDestroy | .keyAttr | .sealOnce | .sealInit | .sealUpdate
  | .sealFinal | .sealAbort | .hashDigest | .bnMac | .bnMul | .bnModmul | .bnModinv | .bnModexp | .pkSign | .pkVerify
  | .pkAgree | .pkEncrypt | .pkDecrypt | .pkLoadCurve | .rngDraw | .laneRetire | .laneRestore | .loopRead | .loopReport
  | .loopHart | .loopAssign | .loopPower | .attestKey | .peerPair | .peerUnpair | .powerDomain | .vpPoll => l == .service

/-- Whether a halted module executes a command (R574). -/
def Op.runsHalted (o : Op) : Bool := o == .sysInfo || o == .fwStatus || o == .logRead || o == .tamperStatus

/-! ### Descriptors (Table 04-8) -/

/-- A descriptor of 16 bytes. -/
def descAt (bs : List Byte) (at' : Nat) : Desc := ⟨fld bs at' 8, fld bs (at' + 8) 4, at8 bs (at' + 12), at8 bs (at' + 13)⟩

/-- Whether the descriptor at an offset is absent (R151). -/
def descAbsent (bs : List Byte) (at' : Nat) : Bool := zeroAt bs at' 16

/-- The checks of R151 and R153 on a present descriptor, for use `dir`, given how many PASID indices are valid. -/
def descCheck (bs : List Byte) (at' dir indices : Nat) : List (Bool × Status × Nat) :=
  let d := descAt bs at'
  [(!zeroAt bs (at' + 14) 2 || 4 ≤ d.pidx || d.dir < 1 || 2 < d.dir, .unsupported, 0),
   (d.dir != dir, .policy, 0x0021),
   (d.len < 1 || 16777216 < d.len, .length, 0),
   (indices ≤ d.pidx, .spoof, 0x0011)]

/-- The first failing check of a list: status and DETAIL. -/
def firstFail : List (Bool × Status × Nat) → Option (Status × Nat)
  | [] => none
  | (true, st, d) :: _ => some (st, d)
  | (false, _, _) :: r => firstFail r

/-! ### Working-memory references (Table 05-5) -/

/-- A reference: word address of the least significant word and number of words. -/
structure Ref where
  addr  : Nat
  words : Nat
deriving DecidableEq, Repr

/-- The reference at an offset. -/
def refAt (bs : List Byte) (at' : Nat) : Ref := ⟨fld bs at' 3 % 2 ^ 18, fld bs (at' + 3) 2⟩

/-- Whether a reserved field of the reference at an offset is non-zero. -/
def refReserved (bs : List Byte) (at' : Nat) : Bool := 2 ^ 18 ≤ fld bs at' 3 || !zeroAt bs (at' + 5) 1

/-- Whether WORDS lies outside 1-256 (R188). -/
def Ref.badSize (r : Ref) : Bool := r.words < 1 || 256 < r.words

end Sys2Proof.Machine
end

