-- ==== Sys2Proof/Machine/Ops.lean ====
section
/-! DEFINITION. Named operations over the state: reading and writing each table, interrupts, events, drawn values, epochs
and persistence, host transfers, and the completion of a request. -/

namespace Sys2Proof.Machine

/-! ### Tables -/

def State.ctx (s : State) (i : Nat) : Ctx := s.ctxs.get .init i
def State.setCtx (s : State) (i : Nat) (c : Ctx) : State := { s with ctxs := s.ctxs.put .init i c }
def State.slc (s : State) (n : Nat) : Slc := s.slices.get .init n
def State.setSlc (s : State) (n : Nat) (v : Slc) : State := { s with slices := s.slices.put .init n v }
def State.chan (s : State) (n : Nat) : Chan := s.chans.get .init n
def State.setChan (s : State) (n : Nat) (v : Chan) : State := { s with chans := s.chans.put .init n v }
def State.lane (s : State) (n : Nat) : Lane := s.lanes.get .init n
def State.setLane (s : State) (n : Nat) (v : Lane) : State := { s with lanes := s.lanes.put .init n v }
def State.loop (s : State) (n : Nat) : Loop := s.loops.get .init n
def State.setLoop (s : State) (n : Nat) (v : Loop) : State := { s with loops := s.loops.put .init n v }
def State.slot (s : State) (k : Nat) : Slot := s.ks.slots.get .init k
def State.setSlot (s : State) (k : Nat) (v : Slot) : State :=
  { s with ks := { s.ks with slots := s.ks.slots.put .init k v } }
def State.dpm (s : State) (n : Nat) : Dpm := s.hp.dpm.get .init n
def State.setDpm (s : State) (n : Nat) (v : Dpm) : State := { s with hp := { s.hp with dpm := s.hp.dpm.put .init n v } }
def State.vp (s : State) : Port → Vp
  | .a => s.vpA
  | .b => s.vpB
def State.setVp (s : State) (p : Port) (v : Vp) : State :=
  match p with
  | .a => { s with vpA := v }
  | .b => { s with vpB := v }
def State.serial (s : State) : Serial → SerialPort
  | .cardA => s.cus.cardA
  | .cardB => s.cus.cardB
  | .console => s.cus.console
def State.setSerial (s : State) (q : Serial) (v : SerialPort) : State :=
  match q with
  | .cardA => { s with cus := { s.cus with cardA := v } }
  | .cardB => { s with cus := { s.cus with cardB := v } }
  | .console => { s with cus := { s.cus with console := v } }

def State.mapKs (s : State) (f : KeyStore → KeyStore) : State := { s with ks := f s.ks }
def State.mapPh (s : State) (f : Phase → Phase) : State := { s with ph := f s.ph }
def State.mapHp (s : State) (f : HostPort → HostPort) : State := { s with hp := f s.hp }
def State.mapEvr (s : State) (f : Evr → Evr) : State := { s with evr := f s.evr }
def State.mapTam (s : State) (f : Tamper → Tamper) : State := { s with tam := f s.tam }
def State.mapPow (s : State) (f : Power → Power) : State := { s with pow := f s.pow }
def State.mapCus (s : State) (f : Custody → Custody) : State := { s with cus := f s.cus }
def State.mapMult (s : State) (f : Mult → Mult) : State := { s with mult := f s.mult }

/-- The context of an owner of rings: slices 0-63, manager 64. -/
def ownerIdx : Owner → Nat
  | .slice n => n
  | .mgr => 64

/-- Whether an owner names rings that exist (R132). -/
def ownerOk : Owner → Bool
  | .slice n => decide (n < 64)
  | .mgr => true

/-- The SOURCE code of a context (Table 03-1). -/
def ctxSource (i : Nat) : Nat := if i = 64 then 0xFF else if i = 65 then 0xFC else i

/-- The context of a route; a vital port has none. -/
def Route.ctx? : Route → Option Nat
  | .ring o _ _ _ _ => some (ownerIdx o)
  | .push n _ => some n
  | .console => some 65
  | .vital _ _ => none

/-- The ORIGIN code of a route (Table 16-1). -/
def Route.origin : Route → Nat
  | .ring o _ _ _ _ => ctxSource (ownerIdx o)
  | .push n _ => n
  | .console => 0xFC
  | .vital .a _ => 0xFA
  | .vital .b _ => 0xFB

/-- The slice whose tenant issued a request, if a tenant did (R109). -/
def Route.tenant : Route → Option Nat
  | .ring (.slice n) _ _ _ _ => some n
  | .push n _ => some n
  | .ring .mgr _ _ _ _ | .console | .vital _ _ => none

/-- Whether the manager issued a request (R109). -/
def Route.isMgr : Route → Bool
  | .ring .mgr _ _ _ _ => true
  | .ring (.slice _) _ _ _ _ | .push _ _ | .console | .vital _ _ => false

/-- The owner code of a request's context: its slice, or 0xFF for the manager. -/
def Rq.owner (rq : Rq) : Nat := rq.route.tenant.getD 0xFF

/-- The context index of a host-port request. -/
def Rq.ctx (rq : Rq) : Nat := rq.route.ctx?.getD 66

/-- Event with no request behind it (ORIGIN 0xFE). -/
def noOrigin : Nat := 0xFE

/-! ### Interrupts -/

/-- Output on a port, recorded. -/
def State.emit (s : State) (o : Out) : State := { s with out := s.out ++ [o] }

/-- MSI-X message of a vector; a masked vector sets its pending bit instead (Table 04-11). A message is a DMA write, which the
host port does not start in D3hot or without a link (R127, R170). DESIGN CHOICE (log entry 135): its pending bit is set then
too, and the message follows when D0 or the link is back. -/
def State.msix (s : State) (v : Nat) : State :=
  if v ∈ s.hp.masked || s.hp.d3hot || !s.hp.linkUp then
    if v ∈ s.hp.msixPend then s else { s with hp := { s.hp with msixPend := s.hp.msixPend ++ [v] } }
  else s.emit (.msix v)

/-- A cause of vector 65 + `i` (R148): it sets its MGR_EVENT bit and sends a message, or waits behind the set bit. -/
def State.fire (s : State) (i : Nat) : State :=
  if bit s.hp.causes i then { s with hp := { s.hp with further := setBit s.hp.further i true } }
  else { s with hp := { s.hp with causes := setBit s.hp.causes i true } }.msix (65 + i)

/-! ### Events (chapter 16) -/

/-- The codes that R556 limits: EV_FIELD_WINDFALL, EV_FIELD_LATE, EV_WM_ACCESS, EV_HOST_DMA. -/
def limitedCode (code : Nat) : Bool := code == 0x0601 || code == 0x0602 || code == 0x0301 || code == 0x0201

/-- Entries held of the circulating record beyond 16,384 (R543): how many of the oldest leave. -/
def circulating (es : List Entry) : List Entry := es.filter (fun e => decide (4096 ≤ e.seq))

/-- The record without the circulating entries that a full record overwrites (R543). -/
def trimFlash (staged flash : List Entry) : List Entry :=
  let excess := (circulating flash).length + (circulating staged).length - 16384
  flash.filter (fun e => decide (e.seq < 4096)) ++ (circulating flash).drop excess

/-- Writing one entry and its full head to the staging buffer (R542, R544, R546). `code` carries the QUEUED bit. -/
def State.write (s : State) (code origin : Nat) (detail : List Byte) : State :=
  let bytes := be 5 s.evr.next ++ s.ph.stamp ++ be 2 code ++ [byte origin] ++ padTo 8 detail
  let staged := s.evr.staged ++ [⟨s.evr.next, bytes, s.evr.head, true, true⟩]
  let cls := code / 256 % 16
  let s' := { s with evr := { s.evr with
    next := s.evr.next + 1, head := sha256 (s.evr.head ++ bytes), staged := staged,
    flash := trimFlash staged s.evr.flash } }
  if 1 ≤ cls && cls ≤ 13 && bit s.evr.notice (cls - 1) then s'.fire 2 else s'

/-- Staging room that requests in flight hold (R639). -/
def State.roomHeld (s : State) : Nat := (s.live.map (fun l => l.rq.room)).sum

/-- An event counted into EV_LOG_OVERFLOW (R556, Table 16-5). -/
def State.overflow (s : State) (code : Nat) : State :=
  { s with evr := { s.evr with
    lost := s.evr.lost + 1, lostCode := if s.evr.lost = 0 then code % 4096 else s.evr.lostCode } }

/-- Recording an event: held before the stamp resumes at power-up (Table 16-5), nothing after the tombstone (R562), the
limit of R556, and the room that other requests have reserved (R639). DESIGN CHOICE (log entry 134): EV_PH_LOST is recorded at
once, because in FAULT no stamp ever resumes. -/
def State.event (s : State) (code origin : Nat) (detail : List Byte) : State :=
  if s.evr.frozen then s
  else if s.pow.starting == some 0 && code != 0x0106 then
    { s with evr := { s.evr with held := s.evr.held ++ [⟨code, origin, detail⟩] } }
  else if limitedCode code && 64 ≤ s.evr.limited then s.overflow code
  else if 256 ≤ s.evr.staged.length + (if origin = noOrigin || limitedCode code then s.roomHeld else 0) then s.overflow code
  else
    let s := if limitedCode code then { s with evr := { s.evr with limited := s.evr.limited + 1 } } else s
    s.write code origin detail

/-- EV_HOST_DMA (Table 16-4): slice or 0xFF, kind, completion. -/
def State.dmaEvent (s : State) (origin slice kind completion : Nat) : State :=
  s.event 0x0201 origin [byte slice, byte kind, byte completion]

/-- Evaluation of the approved-operation indicator at a change of a checked condition (R623). -/
def State.evaluate (s : State) (origin : Nat) : State :=
  let new := s.indicator
  if !s.pow.ready || new == s.pow.approved then s
  else { s with pow := { s.pow with approved := new } }.event 0x0C08 origin [byte s.pow.approved, byte new]

/-- The first execution of a non-approved service (R624). -/
def State.unapproved (s : State) (origin : Nat) : State :=
  { s with pow := { s.pow with unapprove := true } }.evaluate origin

/-! ### Drawn values (R627) -/

/-- One request of `n` bytes from the DRBG. -/
def State.drawBytes (s : State) (n : Nat) : List Byte :=
  (List.range n).map (fun i => Config.drbgByte (s.drawn + i))

/-- The state after a request of `n` bytes from the DRBG. -/
def State.drewBytes (s : State) (n : Nat) : State :=
  { s with drawn := s.drawn + n, pow := { s.pow with drbgReqs := s.pow.drbgReqs + 1 } }

/-- The delay of R524, in periods of the 3.0 GHz clock. -/
def State.delay (s : State) : Nat := 750 + Config.delayValue s.drawn % 5251

/-- The state after a delay has been drawn. -/
def State.drewDelay (s : State) : State := s.drewBytes 2

/-- A scalar from 1 to n - 1, drawn (R433, R442). -/
def State.drawScalar (s : State) (n : Nat) : Nat := 1 + fromBe (s.drawBytes 80) % (n - 1)

/-! ### Persistence and epochs (R64, R65, R99, R100) -/

/-- Whether copy `b` is newer than copy `a`: higher C, then higher sequence number (R66). -/
def Copy.newer (a b : Copy) : Bool := a.c < b.c || (a.c == b.c && a.seq < b.seq)

/-- The newest valid copy: those whose CRC-32C fails are passed over (R66, Table 02-8). -/
def newestCopy (cs : List (Option Copy)) : Option Copy :=
  cs.foldl (fun best c => match best, c.filter Copy.crcOk with
    | none, c => c
    | some b, some c => if b.newer c then some c else some b
    | some b, none => some b) none

/-- The current epochs of the 66 contexts. -/
def State.epochs (s : State) : List Nat := (List.range 66).map (fun i => (s.ctx i).epoch)

/-- One copy written to each store, in the slots that alternate (R65). -/
def State.writeCopy (s : State) (c ticks : Nat) : State :=
  let copy : Copy := ⟨c, ticks, s.ph.seq + 1, s.epochs, true⟩
  let k := (s.ph.seq + 1) % 2
  { s with ph := { s.ph with
    seq := s.ph.seq + 1, copies := (s.ph.copies.set k (some copy)).set (k + 2) (some copy) } }

/-- A persistence of the pair (C, backup tick count) (R64). -/
def State.persist (s : State) : State :=
  { s with ph := { s.ph with cp := s.ph.c, tp := s.ph.ticks } }.writeCopy s.ph.c s.ph.ticks

/-- A copy written without a new pair: it carries the pair of the newest valid copy (R65); none before the first copy, and
none in STOPPED (R92). -/
def State.persistEpochs (s : State) : State :=
  if s.ph.st = .stopped then s
  else
    match newestCopy s.ph.copies with
    | none => s
    | some c => s.writeCopy c.c c.ticks

/-- Copies damaged: the CRC-32C of those in the named slots (0 and 1 backup domain, 2 and 3 flash) fails from now on. -/
def Phase.damage (p : Phase) (ks : List Nat) : Phase :=
  { p with copies := ks.foldl (fun cs k => cs.modify k (fun c => c.map (fun c => { c with crcOk := false }))) p.copies }

/-- The epoch after an advance (R99). -/
def nextEpoch (e : Nat) : Nat := if e = 0xFFFFFF then 1 else e + 1

/-- A reset of a context: the epoch advances, the reply cache empties, the floor is absent, all credits return (R124), and
HANDLE values start again (R401).
The rings, queues and registers of the context are those of `c`. -/
def Ctx.advance (c : Ctx) : Ctx := { c with epoch := nextEpoch c.epoch, cache := [], floor := none, credits := 32, handle := 1 }

/-- Epochs of the contexts in `is` advance, and a copy is written (R100). -/
def State.advance (s : State) (is : List Nat) : State :=
  (is.foldl (fun s i => s.setCtx i (s.ctx i).advance) s).persistEpochs

/-! ### Host transfers (R155-R163, R637, R170) -/

/-- The PASID of index `i` of an owner's transfers: a slice's binding, or MGR_PASID (R149, R150). -/
def State.pasidOf (s : State) (owner i : Nat) : Nat :=
  if owner < 64 then (s.slc owner).pasids.getD i 0 else s.hp.pasid

/-- How many PASID indices a descriptor or entry of an owner may name (Table 04-9): the manager names 0 only. -/
def State.indices (s : State) (owner : Nat) : Nat := if owner < 64 then (s.slc owner).pasids.length else 1

/-- Why no DMA of an owner can be issued: the completion code of EV_HOST_DMA (R637, R170), or none. -/
def State.dmaStop (s : State) (owner : Nat) : Option Nat :=
  if !s.hp.linkUp then some 6 else if 64 ≤ owner && !s.hp.valid then some 5 else none

/-- A range of host memory cut into requests of at most `limit` bytes, none of which crosses a 4 KiB boundary (R152).
`fuel` bounds their number. -/
def cuts (limit : Nat) : (fuel addr len : Nat) → List (Nat × Nat)
  | 0, _, _ => []
  | f + 1, a, n =>
    if n = 0 then []
    else
      let k := min n (min limit (4096 - a % 4096))
      (a, k) :: cuts limit f (a + k) (n - k)

/-- The number of requests that suffices for a range. -/
def cutFuel (limit len : Nat) : Nat := len / limit + len / 4096 + 3

/-- Bytes from `addr` cut at 4 KiB boundaries and at `limit` bytes: at 4,096 the pending writes of R155, at 256 the maximum
payload of Table 04-1. -/
def cutBytes (limit addr : Nat) (bytes : List Byte) : List (Nat × List Byte) :=
  (cuts limit (cutFuel limit bytes.length) addr bytes.length).map (fun (a, n) => (a, slice bytes (a - addr) n))

/-- DMA write requests under a PASID (R149, R152). -/
def State.dmaWrite (s : State) (pasid addr : Nat) (bytes : List Byte) : State :=
  { s with out := s.out ++ (cutBytes 256 addr bytes).map (fun (a, b) => .dma pasid a b) }

/-- DMA read requests under a PASID, of at most 512 bytes each (R149, R152). What host memory returns beyond the bytes of the
row's operand is free (log entry 6), so every read draws on new free values. -/
def State.dmaRead (s : State) (pasid addr len : Nat) : State :=
  { s with drawn := s.drawn + len, out := s.out ++ (cuts 512 (cutFuel 512 len) addr len).map (fun (a, n) => .read pasid a n) }

/-- The mark of one host page that is written (R161): a page of the window under PASID index 0, else ALL_DIRTY. -/
def Dpm.mark (d : Dpm) (idx page : Nat) : Dpm :=
  let w := d.win / 4096
  if idx ≠ 0 || page < w || w + d.pages ≤ page then { d with allDirty := true }
  else if page - w ∈ d.marks then d
  else { d with marks := d.marks ++ [page - w] }

/-- Dirty-page marks of a write of `len` bytes (R161), page by page. -/
def Dpm.write (d : Dpm) (idx addr len : Nat) : Dpm :=
  if !d.enable || len = 0 then d
  else (List.range ((addr + len - 1) / 4096 + 1 - addr / 4096)).foldl (fun d k => d.mark idx (addr / 4096 + k)) d

/-- The context index of an owner code (slice, or 0xFF for the manager). -/
def ctxOf (owner : Nat) : Nat := if owner < 64 then owner else 64

/-- A write to host memory on behalf of an owner, under a PASID of an index. -/
def State.hostWrite (s : State) (owner idx pasid addr : Nat) (bytes : List Byte) : State :=
  let s := if owner < 64 then s.setDpm owner ((s.dpm owner).write idx addr bytes.length) else s
  s.dmaWrite pasid addr bytes

/-- Bytes of a slice's write buffer (R155). -/
def bufferSize : Nat := 32768

/-- Bytes of pending writes of a slice (PENDING of Table 06-3). -/
def Ctx.pendingBytes (c : Ctx) : Nat := (c.pw.map (fun w => w.bytes.length)).sum

/-- Whether the oldest waiting output write may be issued: a slice's when its write buffer has space (R164). -/
def Ctx.issuable (c : Ctx) (owner : Nat) (w : Pw) : Bool :=
  decide (64 ≤ owner) || decide (c.pendingBytes + w.bytes.length ≤ bufferSize)

/-- Output writes issued in order, as far as D0 and the write buffer allow (R127, R155, R164). A slice's stay pending; `fuel`
bounds their number. -/
def State.issue (s : State) (owner : Nat) : (fuel : Nat) → State
  | 0 => s
  | f + 1 =>
    let c := s.ctx (ctxOf owner)
    match c.stalled with
    | [] => s
    | w :: r =>
      if s.hp.d3hot || !c.issuable owner w then s
      else
        ((s.setCtx (ctxOf owner) { c with stalled := r, pw := if owner < 64 then c.pw ++ [w] else c.pw }).hostWrite owner w.pidx
          w.pasid w.addr w.bytes).issue owner f

/-- Output writes added to a context, in pieces of at most 4 KiB within one page (R155). -/
def Ctx.addPw (c : Ctx) (pidx pasid : Nat) (ws : List (Nat × List Byte)) : Ctx :=
  ws.foldl (fun c (a, b) =>
    { c with stalled := c.stalled ++ [⟨c.pwNext, pidx, pasid, a, b⟩], pwNext := c.pwNext + 1 }) c

/-- Whether every output write of a context is complete at the host (R155, R203). -/
def Ctx.written (c : Ctx) : Bool := c.pw.isEmpty && c.stalled.isEmpty

/-- The stalled writes of a context issued as far as they can be. -/
def State.drain (s : State) (owner : Nat) : State := s.issue owner (s.ctx (ctxOf owner)).stalled.length

/-- Output data of a request written through a buffer descriptor; a slice's passes its write buffer (R155). -/
def State.output (s : State) (owner : Nat) (d : Desc) (bytes : List Byte) : State :=
  let i := ctxOf owner
  (s.setCtx i ((s.ctx i).addPw d.pidx (s.pasidOf owner d.pidx) (cutBytes 4096 d.addr bytes))).drain owner

/-- What reading an input range gives: its bytes, a wait (for pending writes, R157, or for D0, R127), or a failure with its
completion code. -/
inductive Got where
  | data (bytes : List Byte)
  | wait
  | fail (completion : Nat)
deriving DecidableEq, Repr

/-- `len` bytes read by DMA: what the operand gives, and free bytes where it gives none (log entry 6). -/
def State.readBytes (s : State) (bs : List Byte) (len : Nat) : List Byte :=
  bs.take len ++ (List.range (len - bs.length)).map (fun i => Config.hostByte (s.drawn + i))

/-- Whether a write overlaps an input range under the same PASID (R157). -/
def Pw.overlaps (w : Pw) (pasid : Nat) (d : Desc) : Bool :=
  w.pasid == pasid && decide (w.addr < d.addr + d.len) && decide (d.addr < w.addr + w.bytes.length)

/-- The pending writes of a slice that overlap an input range (R157, R158). -/
def State.hits (s : State) (owner : Nat) (d : Desc) : List Pw :=
  if owner < 64 then (s.ctx owner).pw.filter (fun w => w.overlaps (s.pasidOf owner d.pidx) d) else []

/-- Whether an output write that waits for the write buffer overlaps an input range. -/
def State.hitsStalled (s : State) (owner : Nat) (d : Desc) : Bool :=
  (s.ctx (ctxOf owner)).stalled.any (fun w => w.overlaps (s.pasidOf owner d.pidx) d)

/-- The `i`-th input range of a request (R157). -/
def State.input (s : State) (rq : Rq) (i : Nat) (d : Desc) : Got :=
  if s.hp.d3hot then .wait
  else
    match s.dmaStop rq.owner, s.hits rq.owner d, s.hitsStalled rq.owner d with
    | some c, _, _ => .fail c
    | none, _, true => .wait
    | none, [], false =>
      match rq.x.reads.getD i (.data []) with
      | .data bs => .data (s.readBytes bs d.len)
      | .fail e => .fail (dmaCode e)
    | none, [w], false =>
      if w.addr ≤ d.addr && d.addr + d.len ≤ w.addr + w.bytes.length then .data (slice w.bytes (d.addr - w.addr) d.len)
      else .wait
    | none, _ :: _ :: _, false => .wait

/-- The state after an input range was read: DMA reads, unless the write buffer held it (R157). -/
def State.didInput (s : State) (rq : Rq) (d : Desc) : State :=
  if (s.hits rq.owner d).isEmpty then s.dmaRead (s.pasidOf rq.owner d.pidx) d.addr d.len else s

/-! ### Replies -/

/-- A reply: header of Table 03-2 and payload. `hdr` holds the request header, or is empty for an unreadable request. -/
def replyBytes (hdr : List Byte) (epoch source fl : Nat) (st : Status) (detail : Nat) (stamp payload : List Byte) :
    List Byte :=
  [1#8, 2#8] ++ be 2 (fld hdr 2 2) ++ be 5 (fld hdr 4 5) ++ be 3 epoch ++ [byte source, byte fl] ++ be 2 payload.length
    ++ be 2 st.code ++ be 2 detail ++ stamp ++ payload

/-- A reply with REPLAYED set (R106). -/
def replayOf (reply : List Byte) : List Byte := reply.set 13 (byte (at8 reply 13 / 2 * 2 + 1))

/-- Entering a reply in the cache (R104, R105): at 33 replies the oldest leaves and raises the floor. -/
def Ctx.enter (c : Ctx) (e : Cached) : Ctx :=
  let all := c.cache ++ [e]
  if all.length ≤ 32 then { c with cache := all }
  else
    match all with
    | [] => c
    | old :: rest => { c with cache := rest, floor := some (max old.id (c.floor.getD old.id)) }

/-- Consistent overhead byte stuffing of a CONSOLE frame (R475): code bytes over runs without zero, and the delimiter. -/
def cobs : (fuel : Nat) → (run : List Byte) → List Byte → List Byte
  | 0, _, _ => []
  | _ + 1, run, [] => byte (run.length + 1) :: run
  | f + 1, run, b :: bs =>
    if b = 0#8 then byte (run.length + 1) :: run ++ cobs f [] bs
    else if run.length = 253 then 0xFF#8 :: (run ++ [b]) ++ (if bs.isEmpty then [] else cobs f [] bs)
    else cobs f (run ++ [b]) bs

/-- A CONSOLE frame: packet, CRC-32C, COBS, delimiter (R474, R475). -/
def consoleFrame (packet : List Byte) : List Byte :=
  let all := packet ++ be 4 (crc32c packet)
  cobs (all.length + 1) [] all ++ [0#8]

/-- A reply sent on its way: to the reply queue of its rings, to CONSOLE, or to the vital port (as the reply that waits for an
IDLE frame, and that FETCH reads when its request has executed, R262, R263). `credit` says whether the request holds a credit.
-/
def State.deliver (s : State) (rt : Route) (reply : List Byte) (irq credit : Bool) : State :=
  match rt with
  | .ring o _ _ cap _ =>
    let c := s.ctx (ownerIdx o)
    s.setCtx (ownerIdx o) { c with outbox := c.outbox ++ [⟨rt, reply, irq, credit, c.pwNext, decide (reply.length ≤ cap)⟩] }
  | .push n _ =>
    let c := s.ctx n
    s.setCtx n { c with outbox := c.outbox ++ [⟨rt, reply, irq, credit, c.pwNext, false⟩] }
  | .console => s.emit (.console (consoleFrame reply))
  | .vital p alive =>
    let r : VReply := ⟨fld reply 2 2, fld reply 16 2, fld reply 18 2, slice reply 20 8, reply.drop 28, alive⟩
    s.setVp p { s.vp p with ready := some r, reply := if r.status = 0 then some r else (s.vp p).reply }

/-- Whether a reply enters the cache (R105, R153): not ST_BUSY, and not the spoof check of a descriptor. -/
def cacheable (st : Status) (detail : Nat) : Bool := st != .busy && !(st == .spoof && detail == 0x0011)

/-- The requests held behind an original are answered with its reply, REPLAYED set (Table 03-3, Table 03-9). `credit` says
whether each returns the credit it took. -/
def State.answerAgain (s : State) (ctx : Nat) (hdr digest reply : List Byte) (credit : Bool) : State :=
  let mine := fun (l : Live) =>
    l.job == .again && l.rq.route.ctx? == some ctx && hdrId l.rq.hdr == hdrId hdr && l.rq.digest == digest
  let held := s.live.filter mine
  held.foldl (fun s l => s.deliver l.rq.route (replayOf reply) (bit (hdrFlags l.rq.hdr) 0) credit)
    { s with live := s.live.filter (fun l => !mine l) }

/-- Completion of a request past the cache step: its reply is built, cached and sent. `ev` says whether the request
caused an event entry. When a reset has advanced the epoch of its context meanwhile, the reply is not entered in the new
epoch's cache (Table 03-9), and the credit was restored already (R124). -/
def State.complete (s : State) (rq : Rq) (ev : Bool) (st : Status) (detail : Nat) (payload : List Byte) : State :=
  match rq.route.ctx? with
  | none =>
    let reply := replyBytes rq.hdr 0 0 (rflags false (rq.ev || ev)) st detail s.ph.stamp payload
    s.deliver rq.route reply false false
  | some i =>
    let c := s.ctx i
    let same := hdrEpoch rq.hdr == c.epoch
    let reply := replyBytes rq.hdr c.epoch (hdrSource rq.hdr) (rflags false (rq.ev || ev)) st detail s.ph.stamp payload
    let s := if same && cacheable st detail then s.setCtx i (c.enter ⟨hdrId rq.hdr, rq.digest, reply⟩) else s
    (s.deliver rq.route reply (bit (hdrFlags rq.hdr) 0) same).answerAgain i rq.hdr rq.digest reply same

/-- What the command-specific part of a request does: it ends with status, DETAIL and payload, or it stays in flight. -/
inductive Act where
  | done (st : Status) (detail : Nat) (payload : List Byte) (s : State)
  | park (j : Job) (s : State)

/-- The stream store of a context after a bulk operation: the stream it keeps, without the one it closes. -/
def Ctx.setStreams (c : Ctx) (keep : Option Stream) (close : Option Nat) : Ctx :=
  let ts := match close with
    | none => c.streams
    | some h => c.streams.filter (fun t => t.handle != h)
  match keep with
  | none => { c with streams := ts }
  | some k => { c with streams := ts.filter (fun t => t.handle != k.handle) ++ [k] }

/-- Key slot of a stream whose key was destroyed (Table 09-10). -/
def noKeySlot : Nat := 0xFFFF

/-- The end of a SEAL.UPDATE or SEAL.FINAL that fails at step 11 or during execution: its context closes, except for ST_BUSY
(R403). A stream whose key was destroyed stays as Table 09-10 has it. -/
def State.closePart (s : State) (rq : Rq) (st : Status) : State :=
  let i := rq.ctx
  let h := fld rq.body 0 2
  if (rq.op == .sealUpdate || rq.op == .sealFinal) && st != .ok && st != .busy
      && (s.ctx i).streams.any (fun t => t.handle == h && t.key != noKeySlot) then
    s.setCtx i ((s.ctx i).setStreams none (some h))
  else s

/-- A refusal: no payload (R98). -/
def Act.refuse (s : State) (st : Status) (detail : Nat) : Act := .done st detail [] s

/-- Checks in order, each with the status and DETAIL of its failure; then the effect. -/
def Act.guard (s : State) (cs : List (Bool × Status × Nat)) (k : Act) : Act :=
  match firstFail cs with
  | some (st, d) => .refuse s st d
  | none => k

/-- Whether a wait begins only after a request's own checks of the keys it names. -/
def Job.pastKeys : Job → Bool
  | .held (.key _) | .held (.writes _) | .held (.operands _) | .held (.stream _ _) | .held .turn | .held .entry
  | .held .install => true
  | .held (.binding _) | .held (.invalidate _) | .held (.sameSeq _ _) | .held (.rules _) | .held .step | .again
  | .quiesce _
  | .sliceReset _ | .invalidate _ _ | .record _ _ | .keyDestroy _ | .bulk _ | .mult _ _ _ _ _ | .laneRetire _
  | .domainOff _ | .domainOn _ | .hart _ | .card | .late _ _ _ | .restart => false

/-- Whether a request waits for a key to be loaded. -/
def Job.waitsKey : Job → Bool
  | .held (.key _) => true
  | _ => false

/-- A request that stays in flight after a run: an event it caused and checks it has passed are noted, and an error of a cache
entry that makes it wait for the reload is met once (R358). `ev` says whether the run recorded an event. -/
def Rq.after (rq : Rq) (ev : Bool) (j : Job) : Rq :=
  { rq with
    ev := rq.ev || ev, past := rq.past || j.pastKeys
    x := if j.waitsKey then { rq.x with keyErrs := [] } else rq.x }

/-- A request put in flight. `n` is NEXT of the event record before the run that ends so. -/
def State.hold (s : State) (n : Nat) (rq : Rq) (j : Job) : State :=
  { s with live := s.live ++ [⟨rq.after (s.evr.next != n) j, j⟩] }

/-- Whether a request in flight is an earlier one of the same context. -/
def Live.before (l : Live) (rq : Rq) : Bool := l.rq.ctx == rq.ctx && decide (l.rq.no < rq.no)

/-- The end of one run of a request's command-specific part. `n` is NEXT of the event record before the run. -/
def Act.settle (n : Nat) (rq : Rq) : Act → State
  | .done st d p s => (s.closePart rq st).complete rq (s.evr.next != n) st d p
  | .park j s => s.hold n rq j

/-- Takes the first request in flight that a job test picks out. -/
def State.takeLive (s : State) (p : Live → Bool) : Option (Live × State) :=
  match s.live.find? p with
  | none => none
  | some l => some (l, { s with live := s.live.erase l })

/-- An event recorded since NEXT was `n`, on behalf of the first request that `p` picks out: its reply says so (R97). -/
def State.noteCause (s : State) (p : Live → Bool) (n : Nat) : State :=
  match s.live.find? p with
  | none => s
  | some l =>
    if s.evr.next = n then s
    else { s with live := s.live.map (fun q => if q = l then { q with rq := { q.rq with ev := true } } else q) }

/-- Ends the first request in flight that `p` picks out, after `f` has acted (a completion row); without one, no effect. -/
def State.finish (s : State) (p : Live → Bool) (f : Live → State → Act) : State :=
  match s.takeLive p with
  | none => s
  | some (l, s') => (f l s').settle s.evr.next l.rq

/-! ### Working memory -/

/-- Guard bands fixed by Table 05-1, and those that end the runs of slices (R182). -/
def State.isGuard (s : State) (a : Nat) : Bool :=
  (decide (0x4000 ≤ a) && decide (a < 0x4100)) || (decide (0x4900 ≤ a) && decide (a < 0x4A00)) || decide (0x3FF00 ≤ a)
    || s.slices.any (fun (_, v) => match v.run with
      | none => false
      | some r => decide (r.base + r.words - 256 ≤ a) && decide (a < r.base + r.words))

/-- A word read: a guard word reads zero (R181). -/
def State.wmRead (s : State) (a : Nat) : Word := if s.isGuard a then 0#40 else s.wm.cells.get 0#40 a

/-- A word written: a write to a guard word or beyond the memory is discarded (R181, R173); it clears the flag of R193. -/
def State.wmWrite (s : State) (a : Nat) (w : Word) : State :=
  if s.isGuard a || 0x40000 ≤ a then s
  else { s with wm := { cells := s.wm.cells.put 0#40 a w, bad := s.wm.bad.filter (· != a) } }

/-- Consecutive words written from an address. -/
def State.wmWriteAll (s : State) (a : Nat) : List Word → State
  | [] => s
  | w :: ws => (s.wmWrite a w).wmWriteAll (a + 1) ws

/-- Words zero-filled. -/
def State.wmZero (s : State) (a n : Nat) : State :=
  { s with wm := ⟨s.wm.cells.filter (fun e => !(decide (a ≤ e.1) && decide (e.1 < a + n))),
    s.wm.bad.filter (fun e => !(decide (a ≤ e) && decide (e < a + n)))⟩ }

/-- The number that words spell, least significant first. -/
def numOf (ws : List Word) : Nat := ws.foldr (fun w n => w.toNat + 2 ^ 40 * n) 0

/-- The `n` words from an address. -/
def State.wmRange (s : State) (a n : Nat) : List Word := (List.range n).map (fun i => s.wmRead (a + i))

/-- The number that `n` words from an address spell, least significant word lowest (R8). -/
def State.wmNum (s : State) (a n : Nat) : Nat := numOf (s.wmRange a n)

/-- A number as `n` words, least significant first. -/
def wordsOf : (n v : Nat) → List Word
  | 0, _ => []
  | n + 1, v => BitVec.ofNat 40 v :: wordsOf n (v / 2 ^ 40)

/-- Kinds of permission, in the order of their bits in a rule (Table 05-2). -/
inductive Perm where | r | w | x
deriving DecidableEq, Repr

def Perm.bitOf : Perm → Nat
  | .r => 0 | .w => 1 | .x => 2

/-- The masters that reach working memory (R172). -/
inductive Master where | command | sequencer | dma
deriving DecidableEq, Repr

/-- Master codes of EV_WM_ACCESS and EV_WM_ECC (Table 16-4). -/
def Master.code : Master → Nat
  | .command => 1 | .sequencer => 2 | .dma => 3

/-- An access rule (Table 05-2): first granule, granules, slice, permissions of the manager and of the tenant. PORT is 0 in
Drinum 3.2. -/
structure Rule where
  base  : Nat
  count : Nat
  slice : Nat
  mgr   : Nat
  ten   : Nat
deriving DecidableEq, Repr

/-- Whether a rule covers a word: whole granules of 64 words (R176). -/
def Rule.covers (r : Rule) (a : Nat) : Bool := decide (64 * r.base ≤ a) && decide (a < 64 * (r.base + r.count))

/-- The rule of a part of a run. -/
def Part.rule (p : Part) (n ten : Nat) : Rule := ⟨p.base / 64, p.len / 64, n, 0, ten⟩

/-- The rules of a slice, data region first (Table 05-4). -/
def Slc.rules (v : Slc) (n : Nat) : List Rule :=
  match v.run with
  | none => []
  | some r => r.data.rule n 3 :: (r.ft0.toList ++ r.ft1.toList).map (fun p => p.rule n 5)

/-- The rules in force: that of the manager region, and those of the slices (R180, Table 05-4). -/
def State.ruleSet (s : State) : List Rule := ⟨0x104, 32, 0, 3, 0⟩ :: s.slices.flatMap (fun e => e.2.rules e.1)

/-- Whether a level holds a permission on a word: the rule that covers it grants it, to the manager, or to the tenant whose
slice it names (R176-R178). `owner` is the slice, or 0xFF for the manager. -/
def State.holds (s : State) (owner : Nat) (p : Perm) (a : Nat) : Bool :=
  match s.ruleSet.find? (fun r => r.covers a) with
  | none => false
  | some r => if owner < 64 then r.slice == owner && bit r.ten p.bitOf else bit r.mgr p.bitOf

/-- An access on behalf of a request (R173, R174): the master, the level, the permission that it needs (Table 05-3), and its
words. No command of Drinum 3.2 moves host data into working memory or out of it, so the DMA engine makes none (log entry 71). -/
structure Access where
  master : Master
  owner  : Nat
  perm   : Perm
  ref    : Ref
deriving DecidableEq, Repr

/-- Whether a level holds the permission on every word of a reference: the check at command entry (R188). -/
def State.holdsAll (s : State) (owner : Nat) (p : Perm) (r : Ref) : Bool :=
  (List.range r.words).all (fun i => s.holds owner p (r.addr + i))

/-- The first access that command entry refuses (R188). DESIGN CHOICE (log entry 145): the accesses stand in the order of the
payload, the output last, so EV_WM_ACCESS carries the first word of the first refused reference in that order. -/
def State.denied (s : State) (as : List Access) : Option Access := as.find? (fun a => !s.holdsAll a.owner a.perm a.ref)

/-- The first access that the access control unit of its master refuses: it decides by the rule that covers the first word, and
by nothing else (R176, R189). -/
def State.refused (s : State) (as : List Access) : Option Access := as.find? (fun a => !s.holds a.owner a.perm a.ref.addr)

/-- Level code of EV_WM_ACCESS (Table 16-4). -/
def levelCode (owner : Nat) : Nat := if owner < 64 then 2 else 1

/-- EV_WM_ACCESS (R190). -/
def State.wmAccess (s : State) (origin : Nat) (a : Access) : State :=
  s.event 0x0301 origin
    ([byte a.master.code, byte (levelCode a.owner), byte (if a.owner < 64 then a.owner else 0xFF)] ++ be 3 a.ref.addr)

/-! ### Double-bit errors and internal faults (R122, R193) -/

/-- EV_WM_ECC (R193). -/
def State.wmEcc (s : State) (origin : Nat) (m : Master) (addr : Nat) : State := s.event 0x0302 origin ([byte m.code] ++ be 3 addr)

/-- The words of a reference. -/
def Ref.addrs (r : Ref) : List Nat := (List.range r.words).map (fun i => r.addr + i)

/-- Double-bit errors that reads of some references meet: each such word is flagged until it is next written (R193). -/
def State.meet (s : State) (bad : List Nat) (rs : List Ref) : State :=
  let note := fun (l : List Nat) a => if rs.any (fun r => a ∈ r.addrs) && a ∉ l then l ++ [a] else l
  { s with wm := { s.wm with bad := bad.foldl note s.wm.bad } }

/-- The first word of a reference that is flagged with a double-bit error (R193). -/
def State.badWord (s : State) (r : Ref) : Option Nat := r.addrs.find? (fun a => a ∈ s.wm.bad)

end Sys2Proof.Machine

namespace Sys2Proof

/-- The first double-bit error of an execution that lies in the firmware area (R193). -/
def Ext.fwError (x : Ext) : Option Nat := x.bad.find? (· < 0x4000)

/-- Whether an execution meets no internal fault, a double-bit error of the firmware area included (R122, R193). -/
def Ext.intact (x : Ext) : Bool := x.fwError.isNone && !x.fault

end Sys2Proof

namespace Sys2Proof.Machine

/-- The execution of a request: an internal fault ends it before any effect (R122, R193). -/
def Act.sound (s : State) (rq : Rq) (k : Act) : Act :=
  match rq.x.fwError with
  | some a => .refuse ((s.meet [a] [⟨a, 1⟩]).wmEcc rq.route.origin .command a) .fault 0x0042
  | none => if rq.x.fault then .refuse s .fault 0 else k

end Sys2Proof.Machine
end

