-- ==== Sys2Proof/Machine/KeyOps.lean ====
section
/-! DEFINITION. Keys: attribute blocks, ownership, orphans, the key cache, who uses a key, and destruction
(R322-R339, R349, R356). -/

namespace Sys2Proof.Machine

/-- The attribute block of Table 09-3. -/
def Attr.bytes (a : Attr) : List Byte :=
  [byte a.type, byte a.level] ++ be 2 a.size ++ be 2 a.usage ++ [byte a.flags, byte a.origin, byte a.faultMode,
    byte a.channel] ++ be 2 a.parent ++ be 3 a.parentGen ++ be 3 a.gen ++ [byte a.owner, 0#8]

/-- The attributes that an attribute block spells. -/
def attrAt (bs : List Byte) (i : Nat) : Attr :=
  { type := at8 bs i, level := at8 bs (i + 1), size := fld bs (i + 2) 2, usage := fld bs (i + 4) 2,
    flags := at8 bs (i + 6), origin := at8 bs (i + 7), faultMode := at8 bs (i + 8), channel := at8 bs (i + 9),
    parent := fld bs (i + 10) 2, parentGen := fld bs (i + 12) 3, gen := fld bs (i + 15) 3, owner := at8 bs (i + 18) }

/-- USAGE bits (Table 09-3). -/
def uEncrypt : Nat := 0
def uDecrypt : Nat := 1
def uSign : Nat := 2
def uVerify : Nat := 3
def uDerive : Nat := 4
def uWrap : Nat := 5
def uUnwrap : Nat := 6
def uAgree : Nat := 7
def uMac : Nat := 8

/-- Whether a key carries a usage bit and is not channel-bound (R328, R329). -/
def Key.may (k : Key) (u : Nat) : Bool := bit k.attr.usage u && !bit k.attr.flags 2

/-- The key that an owner may name by a slot number (R323, R324): its own, never a device-reserved slot. -/
def State.keyFor (s : State) (owner k : Nat) : Option Key :=
  if k < 0x40 then none
  else
    match (s.slot k).key with
    | none => none
    | some key => if key.attr.owner = owner then some key else none

/-- Whether the chain of parents of a key is broken, walking at most `fuel` levels (R335). A parent slot that holds no
key breaks the chain too: it was freed at its last generation (log entry 14). -/
def State.brokenFrom (s : State) : (fuel : Nat) → Attr → Bool
  | 0, _ => false
  | fuel + 1, a =>
    if a.level ≤ 1 then false
    else
      match (s.slot a.parent).key with
      | none => true
      | some p => (s.slot a.parent).gen != a.parentGen || s.brokenFrom fuel p.attr

/-- Whether a key is orphaned (R335). -/
def State.orphaned (s : State) (key : Key) : Bool := s.brokenFrom 5 key.attr

/-- Every slot that holds a key. -/
def State.keys (s : State) : List (Nat × Key) :=
  s.ks.slots.filterMap (fun (i, v) => v.key.map (fun k => (i, k)))

/-- Tenant-pool slots that a slice fills (R325). -/
def State.poolUsed (s : State) (n : Nat) : Nat :=
  (s.keys.filter (fun (i, k) => decide (0x100 ≤ i) && k.attr.owner == n)).length

/-- Key slots that a request names in its payload, by opcode. -/
def keySlots (op : Op) (b : List Byte) : List Nat :=
  match op with
  | .sealOnce | .sealInit | .pkSign | .pkVerify | .pkEncrypt | .pkDecrypt | .attestKey => [fld b 0 2]
  | .hashDigest | .stampReport | .loopReport => [fld b 2 2]
  | .keyWrap | .pkAgree => [fld b 0 2, fld b 2 2]
  | .keyGen | .keyDerive => [fld b 0 2]
  | .keyImport => [fld b 0 2, fld b 16 2]
  | .keyUnwrap => [fld b 0 2, fld b 2 2]
  | _ => []

/-- The key slot of a channel binding entry (Table 06-4). -/
def entryKey (e : List Byte) : Nat := fldLe e 6 2

/-- The slice of a channel binding entry. -/
def entrySlice (e : List Byte) : Nat := at8 e 4

/-- The key a stream of a context uses. -/
def State.streamKey (s : State) (owner handle : Nat) : Option Nat :=
  ((s.ctx owner).streams.find? (fun t => t.handle == handle)).map (·.key)

/-- Whether a request in flight, past its entry checks, still uses the key in a slot (R356). -/
def Live.uses (s : State) (k : Nat) (l : Live) : Bool :=
  match l.job with
  | .bulk b => b.key == k
  | .mult _ _ _ _ _ => l.rq.owner < 256 && k ∈ keySlots l.rq.op l.rq.body
  | .held (.key j) => j == k || k ∈ keySlots l.rq.op l.rq.body
  | .held (.writes _) | .held (.operands _) | .held .turn | .held .entry => k ∈ keySlots l.rq.op l.rq.body
  | .held (.stream o h) => s.streamKey o h == some k
  | .held .step | .held .install | .held (.rules _) | .held (.binding _) | .held (.invalidate _) | .held (.sameSeq _ _) |
    .again | .quiesce _
  | .sliceReset _ | .invalidate _ _ | .record _ _ | .keyDestroy _ | .laneRetire _ | .domainOff _ | .domainOn _
  | .hart _ | .card | .late _ _ _ | .restart => false

/-- Whether a command or a GREEN or RIPE record still uses the key in a slot (Table 08-11, Table 09-10). -/
def State.keyBusy (s : State) (k : Nat) : Bool :=
  s.live.any (fun l => l.uses s k) ||
    s.recs.any (fun r => (r.st == .green || r.st == .ripe) && entryKey r.entry == k)

/-- The key cache with a slot as its most recently used entry (R339). -/
def State.touchKey (s : State) (k : Nat) : State :=
  { s with ks := { s.ks with cache := s.ks.cache.filter (· != k) ++ [k] } }

/-- Stream contexts closed: those that `p` picks out (Table 11-9). -/
def State.closeStreams (s : State) (p : Stream → Bool) : State :=
  (List.range 65).foldl (fun s i =>
    let c := s.ctx i
    if c.streams.any p then s.setCtx i { c with streams := c.streams.filter (fun t => !p t) } else s) s

/-- Stream contexts of a destroyed key: closed, each handle remembered without a key (Table 09-10). -/
def State.endStreams (s : State) (k : Nat) : State :=
  (List.range 65).foldl (fun s i =>
    let c := s.ctx i
    if c.streams.any (fun t => t.key == k) then
      s.setCtx i { c with streams := c.streams.map (fun t =>
        if t.key = k then { t with key := noKeySlot, iv := [], chain := [], mac := [], last := [] } else t) }
    else s) s

/-- Open stream contexts of a context. -/
def Ctx.openStreams (c : Ctx) : List Stream := c.streams.filter (fun t => t.key != noKeySlot)

/-- Freeing a slot (R334, R336): its key goes, its cache entry clears, its generation advances, or the slot retires. -/
def State.freeSlot (s : State) (k origin : Nat) : State :=
  let v := s.slot k
  let owner := (v.key.map (·.attr.owner)).getD 0xFF
  let s := { s with ks := { s.ks with cache := s.ks.cache.filter (· != k) } }
  let s := s.endStreams k
  if v.gen = 0xFFFFFF then
    let s := s.setSlot k { v with key := none, retired := true }
    let s := if 0x100 ≤ k && owner < 64 then s.setSlc owner { s.slc owner with quota := (s.slc owner).quota - 1 } else s
    s.event 0x0703 origin (be 2 k)
  else s.setSlot k { v with key := none, gen := v.gen + 1 }

/-- A key that goes from a device-reserved slot: the generation of the slot advances, or the slot retires (R334, R336). -/
def State.freeDevice (s : State) (k origin : Nat) : State :=
  let v := s.slot k
  let s := s.mapKs (fun ks => { ks with devs := ks.devs.put .init k .init })
  if v.gen = 0xFFFFFF then (s.setSlot k { v with retired := true }).event 0x0703 origin (be 2 k)
  else s.setSlot k { v with gen := v.gen + 1 }

/-- The flash copies of a record written anew (R341, R352). -/
def Flash.write (f : Flash) (c : Nat) : Flash := ⟨true, true, c, c, f.writes + 1⟩

/-- The flash copies after the sweeper's look at them, at C `c` (R353): `okA` and `okB` tell whether each passes its check,
`fixA` and `fixB` whether a codeword of it needed 4 or more bit corrections. -/
def Flash.sweep (f : Flash) (okA okB fixA fixB : Bool) (c : Nat) : Flash :=
  let a := !(okA && f.okA) || fixA || decide (16777216 < c - f.ageA)
  let b := !(okB && f.okB) || fixB || decide (16777216 < c - f.ageB)
  { okA := true, okB := true, ageA := if a then c else f.ageA, ageB := if b then c else f.ageB
    writes := f.writes + b01 (a || b) }

/-- A record whose write is interrupted: the copy being written fails its check (Table 09-10). -/
def Flash.tear (f : Flash) (copyB : Bool) : Flash := if copyB then { f with okB := false } else { f with okA := false }

/-- The flash copies of a device-reserved slot written anew. -/
def State.writeDevice (s : State) (k : Nat) : State :=
  s.mapKs (fun ks => { ks with devs := ks.devs.put .init k ((ks.devs.get .init k).write s.ph.c) })

/-- The storage root destroyed (R513): slot 0x0000. -/
def State.dropRoot (s : State) : State :=
  if s.ks.root.isSome then (s.mapKs (fun k => { k with root := none })).freeDevice 0 noOrigin else s

/-- The device-reserved slots, the storage root apart, that hold a key under the storage root (Table 09-2). -/
def State.rootedSlots (s : State) : List Nat :=
  (if s.vpA.key.isSome then [4] else []) ++ (if s.vpB.key.isSome then [5] else [])
    ++ (if s.ks.pairKey.isSome then [6] else [])
    ++ ((List.range 8).filter (fun i => (s.ks.regs.get none i).isSome)).map (· + 8)

/-- Keys of the store that are orphaned. -/
def State.orphanCount (s : State) : Nat := (s.keys.filter (fun (_, k) => s.orphaned k)).length

/-- Keys orphaned by freeing slot `k` (ORPHANED of R349). -/
def State.newOrphans (s : State) (k : Nat) : Nat :=
  let t := s.freeSlot k noOrigin
  (t.keys.filter (fun (i, key) => t.orphaned key && i != k && !(s.orphaned key))).length

/-- Whether a KEY.DESTROY waits for the users of a key: later commands get ST_NO_KEY, those that wait past their own checks
do not (Table 09-10). -/
def State.doomed (s : State) (rq : Rq) (k : Nat) : Bool := !rq.past && s.live.any (fun l => l.job == .keyDestroy k)

/-- Whether a signing request names a slot in which its owner's HSS private key was lost (R384). -/
def State.hssLost (s : State) (rq : Rq) (k : Nat) : Bool :=
  rq.op == .pkSign && at8 rq.body 2 == 4 && (s.slot k).key.isNone && (s.slot k).lostHss == some rq.owner

/-- The checks of a command that uses a key (R324, R329, R335, R228): ownership, orphan, freeze, usage; of a lost HSS key,
R384. -/
def State.keyChecks (s : State) (rq : Rq) (k : Nat) (ok : Key → Bool) : List (Bool × Status × Nat) :=
  match s.keyFor rq.owner k with
  | none => [(s.hssLost rq k, .fault, 0x00A3), (true, .noKey, 0)]
  | some key =>
    [(s.doomed rq k, .noKey, 0), (s.orphaned key, .keyOrphaned, 0), (key.frozen, .emigrating, 0), (!ok key, .policy, 0x0090)]

/-- A key that the checks accept, in the cache (R339). -/
def State.cachedKey (s : State) (owner k : Nat) : Option Key :=
  if k ∈ s.ks.cache then s.keyFor owner k else none

/-- The curve that an owner may name (R429, R430): a named curve, or one its own context loaded. -/
def State.curve (s : State) (owner id : Nat) : Option Curve :=
  match namedCurve id with
  | some c => some c
  | none =>
    let mine := if owner < 64 then 0x100 + 4 * owner ≤ id && id < 0x104 + 4 * owner else 0x200 ≤ id && id < 0x204
    if mine then s.ks.curves.get none id else none

/-- Whether a curve identifier is one that PK.LOAD_CURVE can give (R327). -/
def loadedCurveId (id : Nat) : Bool := decide (0x100 ≤ id) && decide (id ≤ 0x203)

/-- The secret encoding of a key (Table 09-7); of an HSS key with its NEXT. -/
def Key.secretEnc (k : Key) : List Byte := if k.attr.type = 0x30 then k.secret ++ be 6 k.hss.next else k.secret

/-- Whether using a key is a non-approved service (Table 19-3): a key on a loaded curve. -/
def Key.unapproved (k : Key) : Bool := (k.attr.type == 0x10 || k.attr.type == 0x11) && loadedCurveId k.attr.size

end Sys2Proof.Machine
end

