-- ==== Sys2Proof/Machine/Lms.lean ====
section
/-! DEFINITION. LMS and LM-OTS of SP 800-208 with LMS_SHA256_M32_H20 and LMOTS_SHA256_N32_W4 (R626), and the two-level
HSS keys of R366. PRESUMED (log entry 8): the algorithms are those of the standard; how the secret of a bottom tree
follows from the key's SEED is a free value (log entry 11). -/

namespace Sys2Proof.Machine

/-- Height of every LMS tree (R366). -/
def lmsHeight : Nat := 20

/-- Type codes of LMS_SHA256_M32_H20 and LMOTS_SHA256_N32_W4. -/
def lmsType : Nat := 8
def lmotsType : Nat := 3

/-- Number of hash chains of LMOTS_SHA256_N32_W4. -/
def lmotsChains : Nat := 67

/-- The secret start of chain `i` of leaf `q`. -/
def lmotsStart (seed ident : List Byte) (q i : Nat) : List Byte :=
  sha256 (ident ++ be 4 q ++ be 2 i ++ [0xFF#8] ++ seed)

/-- `n` steps of a hash chain from position `j`. -/
def lmotsChain (ident : List Byte) (q i : Nat) : (n j : Nat) → List Byte → List Byte
  | 0, _, x => x
  | n + 1, j, x => lmotsChain ident q i n (j + 1) (sha256 (ident ++ be 4 q ++ be 2 i ++ [byte j] ++ x))

/-- The 67 base-16 digits of a message hash and its checksum. -/
def lmotsDigits (h : List Byte) : List Nat :=
  let nib (bs : List Byte) : List Nat := bs.flatMap fun b => [b.toNat / 16, b.toNat % 16]
  let ds := nib h
  let sum := ds.foldl (fun a d => a + (15 - d)) 0
  ds ++ (nib (be 2 (sum * 16))).take 3

/-- The message hash that LM-OTS signs. -/
def lmotsHash (ident : List Byte) (q : Nat) (c msg : List Byte) : List Byte :=
  sha256 (ident ++ be 4 q ++ be 2 0x8181 ++ c ++ msg)

/-- The one-time public key from chain ends. -/
def lmotsPub (ident : List Byte) (q : Nat) (ends : List (List Byte)) : List Byte :=
  sha256 (ident ++ be 4 q ++ be 2 0x8080 ++ ends.flatten)

/-- The one-time public key of leaf `q`. -/
def lmotsKey (seed ident : List Byte) (q : Nat) : List Byte :=
  lmotsPub ident q ((List.range lmotsChains).map fun i => lmotsChain ident q i 15 0 (lmotsStart seed ident q i))

/-- The LM-OTS signature with randomiser `c`. -/
def lmotsSign (seed ident : List Byte) (q : Nat) (c msg : List Byte) : List Byte :=
  be 4 lmotsType ++ c ++ ((lmotsDigits (lmotsHash ident q c msg)).zipIdx).flatMap fun (d, i) =>
    lmotsChain ident q i d 0 (lmotsStart seed ident q i)

/-- The node `r` of a tree at height `k` above its leaves. -/
def lmsNode (seed ident : List Byte) : (k r : Nat) → List Byte
  | 0, r => sha256 (ident ++ be 4 r ++ be 2 0x8282 ++ lmotsKey seed ident (r - 2 ^ lmsHeight))
  | k + 1, r => sha256 (ident ++ be 4 r ++ be 2 0x8383 ++ lmsNode seed ident k (2 * r) ++ lmsNode seed ident k (2 * r + 1))

/-- The 56-byte public key of a tree. -/
def lmsPub (seed ident : List Byte) : List Byte :=
  be 4 lmsType ++ be 4 lmotsType ++ ident ++ lmsNode seed ident lmsHeight 1

/-- The LMS signature of leaf `q`: 2,828 bytes. -/
def lmsSign (seed ident : List Byte) (q : Nat) (c msg : List Byte) : List Byte :=
  be 4 q ++ lmotsSign seed ident q c msg ++ be 4 lmsType ++
    (List.range lmsHeight).flatMap fun k => lmsNode seed ident k ((q + 2 ^ lmsHeight) / 2 ^ k ^^^ 1)

/-- The root that a signature's path leads to, from node `r` with value `x`. -/
def lmsClimb (ident : List Byte) : List (List Byte) → (r : Nat) → List Byte → List Byte
  | [], _, x => x
  | y :: ys, r, x =>
    lmsClimb ident ys (r / 2)
      (sha256 (ident ++ be 4 (r / 2) ++ be 2 0x8383 ++ (if r % 2 == 1 then y ++ x else x ++ y)))

/-- LMS verification under a 56-byte public key. -/
def lmsVerify (pub msg sig : List Byte) : Bool :=
  let ident := slice pub 8 16
  let q := fld sig 0 4
  let c := slice sig 8 32
  let ys := blocks 32 (slice sig 40 (32 * lmotsChains))
  let ends := ((lmotsDigits (lmotsHash ident q c msg)).zipIdx).map fun (d, i) =>
    lmotsChain ident q i (15 - d) d (ys.getD i [])
  let leaf := sha256 (ident ++ be 4 (q + 2 ^ lmsHeight) ++ be 2 0x8282 ++ lmotsPub ident q ends)
  let path := blocks 32 (slice sig (44 + 32 * lmotsChains) (32 * lmsHeight))
  sig.length == 2828 && pub.length == 56 && q < 2 ^ lmsHeight && fld pub 0 4 == lmsType && fld pub 4 4 == lmotsType &&
    fld sig 4 4 == lmotsType && fld sig (40 + 32 * lmotsChains) 4 == lmsType &&
    lmsClimb ident path (q + 2 ^ lmsHeight) leaf == slice pub 24 32

/-- The 60-byte HSS public key over the top tree (Table 09-7). -/
def hssPub (seed ident : List Byte) : List Byte := be 4 2 ++ lmsPub seed ident

/-- The 56-byte public key of bottom tree `t`. -/
def bottomPub (seed ident : List Byte) (t : Nat) : List Byte :=
  let (s, i) := Config.bottomSecret seed ident t
  lmsPub (padTo 32 s) (padTo 16 i)

/-- The signature of bottom tree `t` with leaf `q` over a message. -/
def bottomSig (seed ident : List Byte) (t q : Nat) (c msg : List Byte) : List Byte :=
  let (s, i) := Config.bottomSecret seed ident t
  lmsSign (padTo 32 s) (padTo 16 i) q c msg

/-- HSS verification of the 5,716-byte layout of R372. -/
def hssVerify (pub msg sig : List Byte) : Bool :=
  let top := slice sig 4 2828
  let bpub := slice sig 2832 56
  sig.length == 5716 && pub.length == 60 && fld pub 0 4 == 2 && fld sig 0 4 == 1 && lmsVerify (pub.drop 4) bpub top &&
    lmsVerify bpub msg (sig.drop 2888)

end Sys2Proof.Machine
end

