-- ==== Sys2Proof/Machine/Signing.lean ====
section
/-! DEFINITION. Hash-based leaves (R366-R370), the dual signature of the identity keys (R371-R374), tree certificates and
the bodies of the statements that more than one command issues. -/

namespace Sys2Proof.Machine

/-! ### Leaves -/

/-- Leaves an HSS key offers (R381). -/
def hssLeaves : Nat := 2 ^ 40

/-- Whether an HSS key has no leaf left (R381). -/
def Hss.spent (h : Hss) : Bool := h.leaf == h.next && decide (hssLeaves ≤ h.next)

/-- Checks before a leaf is used: state lost (R384), no leaf left (R381), bottom tree not built (R382). -/
def Hss.checks (h : Hss) : List (Bool × Status × Nat) :=
  [(h.lost, .fault, 0x00A3), (h.spent, .policy, 0x00A0), (decide (h.built < h.leaf / 2 ^ 20), .busy, 0x00A2)]

/-- The HSS state after its next leaf is used: a spent block reserves the next 1,024 leaves first (R367), and the first
use of a bottom tree starts the build of the next (R369). -/
def Hss.use (h : Hss) : Hss :=
  { h with
    next := if h.leaf = h.next then h.next + 1024 else h.next
    leaf := h.leaf + 1
    building := h.building || (h.built == h.leaf / 2 ^ 20 && decide (h.leaf / 2 ^ 20 + 1 < 2 ^ 20)) }

/-- The LM-OTS randomiser of the top-tree signature over bottom tree `t`: fixed when the tree is built (log entry 11). -/
def topRandom (seed ident : List Byte) (t : Nat) : List Byte :=
  padTo 32 (Config.bottomSecret seed ident (2 ^ 20 + t)).1

/-- The top-tree signature over bottom tree `t` (R369). -/
def topSig (seed ident : List Byte) (t : Nat) : List Byte :=
  lmsSign seed ident t (topRandom seed ident t) (bottomPub seed ident t)

/-- A full HSS signature of SP 800-208 (R435) with leaf `leaf` and randomiser `c`. -/
def hssSign (seed ident : List Byte) (leaf : Nat) (c msg : List Byte) : List Byte :=
  be 4 1 ++ topSig seed ident (leaf / 2 ^ 20) ++ bottomPub seed ident (leaf / 2 ^ 20)
    ++ bottomSig seed ident (leaf / 2 ^ 20) (leaf % 2 ^ 20) c msg

/-- The tree certificate of Table 10-1. -/
def treeCertificate (deviceId seed ident : List Byte) (t : Nat) : List Byte :=
  be 2 0x0F05 ++ be 2 2900 ++ deviceId ++ be 3 t ++ zeros 1 ++ bottomPub seed ident t ++ topSig seed ident t

/-! ### Dual signature -/

/-- Checks before an identity signature for a context (R357, R374, R384, R381, R382). Index 66 stands for the module itself and
for the vital ports, which are no contexts (R99). -/
def State.dualChecks (s : State) (ctx : Nat) : List (Bool × Status × Nat) :=
  (decide (1 ∈ s.ks.gone), .fault, 0x009A) :: s.ks.hss.checks ++
    [(decide (16 ≤ s.ks.sigs) || (decide (ctx < 66) && decide (4 ≤ (s.ctx ctx).sigs)), .busy, 0x00A1)]

/-- The signature block of Table 10-2 over a body. -/
def State.dualSign (s : State) (body : List Byte) : List Byte :=
  let k := s.drawScalar p384.n
  let (r, t) := ecdsaSign p384 s.ks.ecPriv k (Hash.sha384.digest body)
  let leaf := s.ks.hss.leaf
  let c := (s.drewBytes 80).drawBytes 32
  be 2 0x0D01 ++ be 2 2992 ++ be 48 r ++ be 48 t ++ be 5 leaf ++ zeros 3
    ++ bottomPub s.ks.hssSeed s.ks.hssIdent (leaf / 2 ^ 20)
    ++ bottomSig s.ks.hssSeed s.ks.hssIdent (leaf / 2 ^ 20) (leaf % 2 ^ 20) c body

/-- The state after an identity signature drawn by a context: values drawn, leaf used (NEXT written first when it opens a block,
R367), signatures counted. -/
def State.dualSigned (s : State) (ctx : Nat) : State :=
  let s := (s.drewBytes 80).drewBytes 32
  let s := if ctx < 66 then s.setCtx ctx { s.ctx ctx with sigs := (s.ctx ctx).sigs + 1 } else s
  let s := if s.ks.hss.leaf = s.ks.hss.next then s.writeDevice 2 else s
  { s with ks := { s.ks with hss := s.ks.hss.use, sigs := s.ks.sigs + 1 } }

/-- EV_LMS_STATE_LOST of a signing request refused under R384. -/
def State.noteLost (s : State) (origin slot : Nat) (h : Hss) : State :=
  if h.lost then s.event 0x0704 origin (be 2 slot) else s

/-- Verification of a dual signature under the keys of a chain bundle (R372): `keys` holds the P-384 public key, the HSS
public key and the tree certificate. -/
def dualVerify (keys : List Byte × List Byte × List Byte) (body block : List Byte) : Bool :=
  let (ec, hss, tree) := keys
  let leaf := fld block 100 5
  let bottom := slice block 108 56
  let full := be 4 1 ++ slice tree 72 2828 ++ bottom ++ slice block 164 2828
  block.length == 2992 && fld block 0 2 == 0x0D01 && fld block 2 2 == 2992
    && ecdsaVerify p384 (p384.decode ec) (Hash.sha384.digest body) (fld block 4 48) (fld block 52 48)
    && fld tree 12 3 == leaf / 2 ^ 20 && slice tree 16 56 == bottom && hssVerify hss body full

/-- The chain bundle of R365: each element after its length. -/
def State.chainBundle (s : State) : List Byte :=
  let elem := fun (c : List Byte) => be 4 c.length ++ c
  elem s.ks.certs.ec ++ elem s.ks.certs.ecCa ++ elem s.ks.certs.hss ++ elem s.ks.certs.hssCa ++
    elem (treeCertificate s.ks.deviceId s.ks.hssSeed s.ks.hssIdent (s.ks.hss.leaf / 2 ^ 20))

/-! ### Statements -/

/-- The running firmware bank. -/
def State.bank (s : State) : Bank := if s.pow.running = 0 then s.pow.bank0 else s.pow.bank1

/-- The VIEW 0 payload of TAMPER.STATUS (R521). -/
def State.tamperView0 (s : State) : List Byte :=
  be 2 s.tam.fused ++ (List.range 16).map (fun i => byte (s.tam.response.getD i 0)) ++ be 2 s.tam.options

/-- MODE codes of a vital port (R251) and VP_CFG (Table 07-13): see Registers. -/
def VpMode.code : VpMode → Nat
  | .disabled => 0 | .plain => 1 | .guarded => 2

/-- The device statement body of Table 10-3. `vpCfgs` are VP_CFG of VPA and VPB. -/
def State.deviceBody (s : State) (vpCfgs nonce : List Byte) : List Byte :=
  be 2 0x0F01 ++ be 2 176 ++ s.ks.deviceId ++ [byte s.tam.life.code, byte s.pow.silicon] ++ be 2 s.bank.version
    ++ be 2 s.bank.build ++ be 2 s.pow.floor ++ [byte s.ph.band, byte s.pow.approved] ++ be 2 s.tam.fused ++ s.ph.stamp
    ++ be 5 (if s.ph.resumed then s.ph.resume else 0) ++ zeros 3 ++ (if s.ks.pairKey.isSome then s.ks.peerId else zeros 8)
    ++ padTo 48 s.bank.digest ++ sha256 (vpCfgs ++ s.tamperView0 ++ [byte s.ph.band]) ++ s.evr.head ++ padTo 16 nonce

/-- The tombstone body of Table 10-7. LEAF_END lies above the leaf that signs the tombstone itself. -/
def State.tombstoneBody (s : State) (before cause : Nat) : List Byte :=
  be 2 0x0F04 ++ be 2 64 ++ s.ks.deviceId ++ s.ph.stamp ++ [byte before, byte cause] ++ zeros 2
    ++ be 5 (s.ks.hss.leaf + 1) ++ zeros 3 ++ s.evr.head

/-- A lineage hop of Table 10-5. -/
def Hop.bytes (h : Hop) : List Byte :=
  padTo 8 h.device ++ [byte h.origin, byte h.slice] ++ be 2 h.slot ++ be 5 h.transfer ++ be 5 h.c ++ zeros 2

/-- The provenance body of Table 10-4; with `nonce` zeros it is the EXT of a transfer record (R378). -/
def State.provenance (s : State) (k : Nat) (key : Key) (nonce : List Byte) : List Byte :=
  be 2 0x0F02 ++ be 2 (92 + 24 * key.hops.length) ++ s.ks.deviceId ++ be 2 k ++ key.attr.bytes
    ++ [byte key.hops.length, byte key.pflags] ++ s.ph.stamp
    ++ (if key.attr.type ≤ 2 then zeros 32 else sha256 key.pub) ++ padTo 16 nonce ++ key.hops.flatMap Hop.bytes

/-- Every held entry, founding record first (R548). -/
def State.entries (s : State) : List Entry := s.evr.flash ++ s.evr.staged

/-- Entries in the founding record (FOUNDING of Table 16-2). -/
def State.founding (s : State) : Nat := (s.entries.filter (fun e => decide (e.seq < 4096))).length

/-- Lowest SEQ held in the circulating record, NEXT when it holds none (OLDEST of Table 16-2). -/
def State.oldest (s : State) : Nat :=
  match circulating s.entries with
  | [] => s.evr.next
  | e :: _ => e.seq

/-- The event head body of Table 10-6. -/
def State.headBody (s : State) (nonce : List Byte) : List Byte :=
  be 2 0x0F03 ++ be 2 80 ++ s.ks.deviceId ++ s.ph.stamp ++ be 2 s.founding ++ zeros 2
    ++ be 5 (s.evr.next - 1) ++ zeros 3 ++ s.evr.head ++ padTo 16 nonce

end Sys2Proof.Machine
end

