-- ==== Sys2Proof/Machine/Secure.lean ====
section
/-! DEFINITION. What makes the module forget: WINDFALL of a record, ceremony ends, tamper responses (R513-R518),
life-cycle transitions (R527, Table 09-11), decisions taken twice (R525), and the parts that several resets share. -/

namespace Sys2Proof.Machine

/-! ### Work on the lanes (R397) -/

/-- Priority of work (Table 11-5). -/
def Work.priority : Work → Nat
  | .first _ _ => 1
  | .second _ _ => 2
  | .bulk _ | .kat => 3

/-- Priority number of what a lane runs; 4 when it is idle. -/
def Lane.load (l : Lane) : Nat :=
  match l.work with
  | [] => 4
  | w :: _ => w.priority

/-- The work of the highest priority that waits for a lane, the earliest first. -/
def Lane.next (l : Lane) : Option Work :=
  l.queue.foldl (fun best w => match best with
    | none => some w
    | some b => if w.priority < b.priority then some w else some b) none

/-- A copy of work that starts on an in-service lane, for each lane in PROBATION that has comparisons still due (R412). -/
def State.copyWork (s : State) (w : Work) : State :=
  (List.range 4).foldl (fun s i =>
    let l := s.lane i
    if l.st == .probation && decide (l.copies.length < l.left) then s.setLane i { l with copies := l.copies ++ [w] } else s) s

/-- Waiting work of a lane started when it preempts what the lane runs, which becomes a saved context (R397). -/
def State.startNext (s : State) (i : Nat) : State :=
  let l := s.lane i
  match l.next with
  | none => s
  | some w =>
    if w.priority < l.load then (s.setLane i { l with work := w :: l.work, queue := l.queue.erase w }).copyWork w else s

/-- Work chosen for a lane (R397): it wakes the lane (R564) and preempts work of a lower priority, or else waits. Contexts on a
lane therefore differ in priority, and at most two are saved (R413). -/
def State.startWork (s : State) (i : Nat) (w : Work) : State :=
  let l := s.lane i
  (s.setLane i { l with queue := l.queue ++ [w], gated := false }).startNext i

/-- Work of a lane that `p` picks out taken off it; what waits for the lane goes on. -/
def State.clearLane (s : State) (i : Nat) (p : Work → Bool) : State :=
  let l := s.lane i
  (s.setLane i { l with
    work := l.work.filter (fun w => !p w), queue := l.queue.filter (fun w => !p w)
    copies := l.copies.filter (fun w => !p w) }).startNext i

/-! ### Release records -/

/-- Whether a request in flight is the field command of a record. -/
def Live.isRecord (ch seq : Nat) (l : Live) : Bool := l.job == .record ch seq

/-- Lane work of a record taken off every lane. -/
def State.dropWork (s : State) (p : Work → Bool) : State :=
  (List.range 4).foldl (fun s i => if ((s.lane i).work ++ (s.lane i).queue).any p then s.clearLane i p else s) s

/-- The lane work of a record. -/
def Work.ofRecord (ch seq : Nat) : Work → Bool
  | .first c q | .second c q => c == ch && q == seq
  | .bulk _ | .kat => false

/-- A record removed, with its lane work. -/
def State.dropRecord (s : State) (ch seq : Nat) : State :=
  { s with recs := s.recs.filter (fun r => !(r.ch == ch && r.seq == seq)) }.dropWork (Work.ofRecord ch seq)

/-- WINDFALL: the record is cleared, never offered, and its request answered. EV_FIELD_WINDFALL is recorded for a failed check
(R294) and a double-bit error (R319): `event`. -/
def State.windfall (s : State) (r : Rec) (st : Status) (detail : Nat) (event : Bool) : State :=
  let n := s.evr.next
  let s := s.dropRecord r.ch r.seq
  let s := if event then s.event 0x0601 r.slice ([byte r.ch] ++ be 5 r.seq ++ be 2 st.code) else s
  match s.takeLive (Live.isRecord r.ch r.seq) with
  | none => s
  | some (l, s) => s.complete l.rq (s.evr.next != n) st detail []

/-- WINDFALL without an entry of every record that `p` picks out. -/
def State.windfallAll (s : State) (p : Rec → Bool) (st : Status) (detail : Nat) : State :=
  (s.recs.filter p).foldl (fun s r => s.windfall r st detail false) s

/-- The highest accepted sequence number plus one (R211, R300); 0 when none was ever accepted (log entry 12). -/
def Chan.above (c : Chan) : Nat :=
  match c.backup with
  | none => 0
  | some h => h + 1

/-- The sequence window after a power cycle (Table 08-12): TOP above the highest accepted, every MASK bit set. -/
def Chan.restart (c : Chan) : Chan := { c with top := c.above, mask := 2 ^ 64 - 1 }

/-! ### Ceremonies -/

/-- A card port without power (R457 step 4). -/
def State.deactivate (s : State) (card : Serial) : State :=
  (s.setSerial card { s.serial card with powered := false }).emit (.cardPower card false)

/-- The card exchange in progress is given up: its card is deactivated. -/
def State.endExchange (s : State) : State :=
  match s.cus.exch with
  | none => s
  | some e => (s.deactivate e.card).mapCus (fun v => { v with exch := none })

/-- The open ceremony ends without its effect: LAST_OUTCOME 2 CANCELLED, 3 EXPIRED, 4 FAILED (R456, R457). The card
exchange ends, and a pairing that is half done is discarded (R462). -/
def State.endCeremony (s : State) (outcome origin : Nat) : State :=
  match s.cus.cer with
  | none => s
  | some c =>
    let s := s.endExchange.mapCus (fun v => { v with cer := none, outcome := outcome })
    let s := if c.type = 4 then { s with ks := { s.ks with eph := none, offer := [] } } else s
    s.event 0x0904 origin (be 4 c.number ++ [byte c.type, byte outcome])

/-! ### Zeroing -/

/-- Lane work, stream contexts, multiplier scratch memory and accumulator, and the key cache zeroed (Tables 11-9, 12-13). -/
def State.zeroEngines (s : State) : State :=
  let s := (s.closeStreams (fun _ => true)).dropWork (fun _ => true)
  { s with mult := { s.mult with acc := List.replicate 16 0, scratch := [] }, ks := { s.ks with cache := [] } }

/-- What a request in flight that uses a key gets when the key is destroyed under ALARM (Table 09-10). -/
def State.endUser (s : State) (l : Live) : State :=
  { s with live := s.live.erase l }.complete l.rq false .noKey 0 []

/-- A key destroyed under a response: its users end with ST_NO_KEY, a KEY.DESTROY that waits for them replies ORPHANED 0,
and GREEN and RIPE records that use it turn WINDFALL (Table 09-10). -/
def State.alarmKey (s : State) (k : Nat) : State :=
  let s := (s.live.filter (fun l => l.uses s k)).foldl State.endUser s
  let s := s.windfallAll (fun r => (r.st == .green || r.st == .ripe) && entryKey r.entry == k) .noKey 0
  let waits := s.live.filter (fun l => l.job == .keyDestroy k)
  let s := s.freeSlot k noOrigin
  waits.foldl (fun s l => { s with live := s.live.erase l }.complete l.rq false .ok 0 (be 2 0)) s

/-- ALARM (R513): every key with ERASE_ON_ALARM is destroyed. -/
def State.alarm (s : State) : State :=
  ((s.keys.filter (fun (_, k) => bit k.attr.flags 1)).map (·.1)).foldl State.alarmKey s

/-- Every request in flight waits for the restart of the command processor (R517). -/
def State.awaitRestart (s : State) : State :=
  { s with tam := { s.tam with restart := true }
           live := s.live.map (fun l => match l.job with
             | .again => l
             | _ => { l with job := .restart }) }

/-! ### Resets of parts -/

/-- A context's rings, registers, write buffer and streams at reset values (Table 04-12); a reset that advances its epoch
follows it. -/
def Ctx.clear (c : Ctx) : Ctx :=
  { Ctx.init with epoch := c.epoch, cache := c.cache, floor := c.floor, sigs := c.sigs }

/-- Host-port registers, rings, write buffers, dirty-page maps and MSI-X at reset values (Table 04-12). -/
def State.clearPort (s : State) : State :=
  let s := (List.range 65).foldl (fun s i => s.setCtx i (s.ctx i).clear) s
  { s with hp := { s.hp with
             pasid := 0, valid := false, causes := 0, further := 0, masked := List.range 72, msixPend := [], vectors := []
             dpm := [] } }

/-- The same with EVR_CTRL and the W1C bits of EVR_STATUS, for the resets that R561 names. -/
def State.clearHost (s : State) : State :=
  s.clearPort.mapEvr (fun e => { e with notice := 0, overflow := false, brk := false })

/-- Data regions and the manager region zero-filled (Table 05-7); frame-table areas kept. -/
def State.zeroData (s : State) : State :=
  s.slices.foldl (fun s (_, v) => match v.run with
    | none => s
    | some r => s.wmZero r.data.base r.data.len) (s.wmZero 0x4100 2048)

/-- A lane after a reset (Table 11-10): saved contexts discarded, RETIRING completes to RETIRED (R410), TESTING becomes
RETIRED. -/
def State.resetLane (s : State) (i : Nat) : State :=
  let l := s.lane i
  match l.st with
  | .retiring =>
    ((s.setLane i { l with st := .retired, cause := 1, work := [], queue := [] }).event 0x0801 noOrigin [byte i, 1#8]).fire 3
  | .testing => s.setLane i { l with st := .retired, work := [], queue := [] }
  | .inService | .retired | .probation => s.setLane i { l with work := [], queue := [], copies := [] }

/-- Lanes after a reset (Table 11-10). -/
def State.resetLanes (s : State) : State := (List.range 4).foldl State.resetLane s

/-- A vital port after a device reset (Table 07-15): session CLOSED, replies discarded, counters at reset values. -/
def Vp.close (v : Vp) : Vp :=
  { Vp.init with mode := v.mode, key := v.key, failed := v.failed, vio := v.vio }

/-- A serial port with its queue emptied and counters zero (Table 13-10). -/
def SerialPort.clear (q : SerialPort) : SerialPort :=
  { q with queue := [], noise := 0, errors := 0, overruns := 0 }

/-- Loops after a device reset (Table 14-8): windows and results cleared, states cleared, assignments kept. -/
def Loop.clear (l : Loop) : Loop :=
  { Loop.init with slice := l.slice, wiring := l.wiring, drops := l.drops, hart := l.hart, window := l.window
                   low := l.low, high := l.high, hyst := l.hyst }

/-- The state of a slice after a reset that ends the commands in flight (Table 06-8): QUIESCING becomes QUIESCED. The
SLICE.IMMIGRATE of an IMMIGRATING slice has failed, so the slice is CREATED (Table 06-1). -/
def SlSt.settle : SlSt → SlSt
  | .quiescing => .quiesced
  | .immigrating => .created
  | .free => .free | .created => .created | .active => .active | .quiesced => .quiesced | .emigrating => .emigrating

/-- Entry cache emptied and table address cleared, and the slice states settled (Table 06-8). -/
def State.clearTable (s : State) : State :=
  let s := { s with cached := [], table := none }
  s.slices.foldl (fun s (n, v) => s.setSlc n { v with st := v.st.settle }) s

/-- Serial queues emptied and counters zero. -/
def State.clearSerial (s : State) : State :=
  { s with cus := { s.cus with cardA := s.cus.cardA.clear, cardB := s.cus.cardB.clear, console := s.cus.console.clear } }

/-- Every loop at its state after a device reset. -/
def State.clearLoops (s : State) : State :=
  (List.range 8).foldl (fun s i => s.setLoop i (s.loop i).clear) s

/-! ### Life cycle -/

/-- A transition (R527): EV_LIFE with old code, new code and cause, MGR_EVENT bit 0 and vector 65. The EV_LIFE of a transition to
DECOMMISSIONED is the final entry of the record (R562). -/
def State.toLife (s : State) (new : Life) (cause origin : Nat) : State :=
  let old := s.tam.life
  let s := { s with tam := { s.tam with life := new } }
  let s := s.event 0x0B03 origin [byte old.code, byte new.code, byte cause]
  ((s.mapEvr (fun e => { e with frozen := e.frozen || new == .decommissioned })).fire 0).evaluate origin

/-- The storage root and every key under it destroyed (Table 09-11): generations are kept and advance with each key (R334). -/
def State.eraseKeys (s : State) : State :=
  let s := (s.keys.map (·.1)).foldl (fun s k => s.freeSlot k noOrigin) s
  let s := (s.rootedSlots.foldl (fun s k => s.freeDevice k noOrigin) s).dropRoot
  { s with ks := { s.ks with
    cache := [], regs := [], pairKey := none, peerId := zeros 8, peerKeys := none, eph := none, offer := []
    transfer := none, curves := [] } }

/-- Sequence windows after a power cycle or ERASE (Table 08-12). -/
def State.restartWindows (s : State) : State := s.chans.foldl (fun s (i, c) => s.setChan i (Chan.restart c)) s

/-- A vital port whose key is destroyed: DISABLED, session CLOSED (Table 07-15). -/
def Vp.disable (v : Vp) : Vp := { v.close with mode := .disabled, key := none }

/-- Both vital ports disabled. -/
def State.disablePorts (s : State) : State := { s with vpA := s.vpA.disable, vpB := s.vpB.disable }

/-- Working memory zeroed, every slice FREE without its run, every loop unassigned, every record discarded. -/
def State.eraseTenants (s : State) : State :=
  { s with wm := ⟨[], []⟩, slices := [], loops := [], recs := [] }

/-- Pending replies of the vital ports discarded (Table 07-15). -/
def State.dropVital (s : State) : State :=
  { s with live := s.live.filter (fun l => match l.rq.route with
    | .vital _ _ => false
    | .ring _ _ _ _ _ | .push _ _ | .console => true) }

/-- What every ERASE resets, in every life-cycle state (Tables 04-12, 05-7, 06-8, 07-15, 08-12, 11-10, 12-14, 13-10, 14-8): a
reset of all contexts (R99, R124). -/
def State.eraseReset (s : State) : State :=
  let s := (s.endCeremony 2 noOrigin).zeroEngines.resetLanes
  let s := s.clearPort.clearTable.clearSerial.eraseTenants.restartWindows.disablePorts
  s.dropVital.advance (List.range 66)

/-- The destruction of an ERASE in SERVICE or LOCKED: Table 09-11 and the reset. -/
def State.eraseAll (s : State) : State := s.eraseKeys.eraseReset

/-- The KEY.DESTROY requests that wait for the users of a key, when their keys are destroyed under a response (Table 09-10). -/
def State.answerDestroys (s : State) : State :=
  (s.live.filter (fun l => match l.job with
    | .keyDestroy _ => true
    | _ => false)).foldl (fun s l => { s with live := s.live.erase l }.complete l.rq false .ok 0 (be 2 0)) s

/-- Whether the identity tree can make one more signature. -/
def Hss.canSign (h : Hss) : Bool := !h.lost && !h.spent && decide (h.leaf / 2 ^ 20 ≤ h.built)

/-- The tombstone issued, when the identity keys can sign (R380, R515). `ok` tells whether the signature verifies inside the
module (R373): one that does not is not released, and its leaf stays used (R383). -/
def State.issueTombstone (s : State) (before cause : Nat) (ok : Bool) : State :=
  let body := s.tombstoneBody before cause
  if !s.ks.hss.canSign || 1 ∈ s.ks.gone then s.mapKs (fun k => { k with tombstone := none, tombed := false })
  else
    (s.dualSigned 66).mapKs (fun k =>
      if ok then { k with tombstone := some (body ++ s.dualSign body), tombed := true }
      else { k with tombstone := none, tombed := false })

/-- The key store of a decommissioned module: the tombstone is left, and DEVICE_ID, which never changes (Table 09-11, R363,
R385). -/
def KeyStore.dropIdentity (k : KeyStore) : KeyStore :=
  { KeyStore.init with
    identity := false, ecPriv := 0, ecPub := [], hssSeed := [], hssIdent := [], hssPub := [], deviceId := k.deviceId
    tombstone := k.tombstone, tombed := k.tombed, sigs := k.sigs }

/-- The end of a transition to DECOMMISSIONED (R380, R515): the record takes no further entry (R562), the identity root and
every key are destroyed, and the phase unit enters STOPPED (R92). -/
def State.entomb (s : State) : State :=
  let s := (s.mapEvr (fun e => { e with frozen := true })).mapKs KeyStore.dropIdentity
  ((s.mapPh (fun p => { p with st := .stopped })).eraseTenants.disablePorts).mapTam (fun t => { t with decom := none })

/-- The transition to DECOMMISSIONED of the ceremony (R380): EV_LIFE, then the tombstone when one can be signed, then the
destruction. -/
def State.decommission (s : State) (origin : Nat) (ok : Bool) : State :=
  let before := s.tam.life.code
  let s := { s with recs := [] }.zeroEngines
  ((s.toLife .decommissioned 1 origin).issueTombstone before 0 ok).entomb

/-- The transition that an ERASE of TS12 has begun (R515): the tombstone, with CAUSE 1, and the destruction. -/
def State.endDecom (s : State) : State :=
  match s.tam.decom with
  | none => s
  | some before => (s.issueTombstone before.code 1 true).entomb

/-! ### Tamper responses -/

/-- EV_TAMPER of a source recorded now, with the firings left out before it. -/
def State.recordFiring (s : State) (i resp supp : Nat) : State :=
  (s.mapTam (fun t => { t with quiet := t.quiet.put (none, 0) i (some s.ph.now, 0) })).event 0x0B01 noOrigin
    ([byte i, byte resp] ++ be 2 supp ++ be 4 0)

/-- EV_TAMPER of a source, at most once per 64 cycles (R518), with MGR_EVENT bit 0 and vector 65 (R513). -/
def State.tamperEvent (s : State) (i resp : Nat) : State :=
  let (last, supp) := s.tam.quiet.get (none, 0) i
  match last with
  | none => (s.recordFiring i resp supp).fire 0
  | some start =>
    if s.ph.now < start + 64 * 65536 then
      (s.mapTam (fun t => { t with quiet := t.quiet.put (none, 0) i (last, sat 16 (supp + 1)) })).fire 0
    else (s.recordFiring i resp supp).fire 0

/-- LOCK (R513): in SERVICE the module goes to LOCKED; records are discarded, engines zeroed, the open ceremony cancelled
(Table 13-8), and the command processor restarts (R517). -/
def State.lockDown (s : State) : State :=
  let s := (s.endCeremony 2 noOrigin)
  let s := { s with recs := [] }.zeroEngines
  let s := if s.tam.life == .service then s.toLife .locked 2 noOrigin else s
  s.awaitRestart

/-- ERASE (R513, R515, R516) taken by source `i`, a reset kind of Table 17-7 in every state. TS12 moves the module to
DECOMMISSIONED, and the backup domain latches the transition until `State.endDecom`; in SERVICE or LOCKED the module goes to
BLANK; in BLANK nothing more is destroyed. -/
def State.erase (s : State) (i : Nat) : State :=
  if i = 12 && s.tam.life != .decommissioned then
    let life := s.tam.life
    let s := (s.dropRoot.eraseReset.toLife .decommissioned 2 noOrigin).answerDestroys
    (s.mapTam (fun t => { t with decom := some life })).awaitRestart
  else if s.tam.life == .service || s.tam.life == .locked then
    ((s.eraseAll.toLife .blank 2 noOrigin).answerDestroys).awaitRestart
  else s.eraseReset.awaitRestart

/-- The actions of a response (Table 15-2), each with those of the weaker ones. -/
def State.respond (s : State) (i resp : Nat) : State :=
  let s := s.tamperEvent i resp
  let s := if 1 ≤ resp then s.alarm else s
  if resp = 2 then s.lockDown else if 3 ≤ resp then s.erase i else s

/-- The response that source `i` takes: RECORD in FACTORY (R516), else as configured. -/
def State.responseOf (s : State) (i : Nat) : Nat :=
  if s.tam.life == .factory then 0 else s.tam.response.getD i 0

/-- A source fires with main power present (R510): LATCHED, the LAST_ fields, and its response. A fused source never
fires (R522). -/
def State.fireSource (s : State) (i : Nat) : State :=
  if bit s.tam.fused i then s
  else
    let resp := s.responseOf i
    let s := { s with tam := { s.tam with
      latched := setBit s.tam.latched i true, lastSrc := i, lastResp := resp, lastStamp := s.ph.stamp } }
    s.respond i resp

/-- A source that becomes asserted (R510): it fires once, until it has cleared. -/
def State.assertSource (s : State) (i : Nat) : State :=
  if bit s.tam.fused i || bit s.tam.asserted i then s
  else { s with tam := { s.tam with asserted := setBit s.tam.asserted i true } }.fireSource i

/-! ### Decisions taken twice -/

/-- A decision split (R525): EV_DECISION_SPLIT with kind and subject, and TS14 fires. -/
def State.splitDecision (s : State) (kind subject origin : Nat) : State :=
  let s := { s with tam := { s.tam with split := true } }
  (s.event 0x0603 origin ([byte kind] ++ be 2 subject)).fireSource 14

/-- A request that takes a second decision of row `kind` of Table 15-4 after a drawn delay (R523, R524): its effect
follows only when both agree; otherwise it waits for the reply of R517. -/
def Act.twice (s : State) (rq : Rq) (kind subject : Nat) (k : State → Act) : Act :=
  if rq.x.split then
    .park .restart (s.drewDelay.splitDecision kind subject rq.route.origin)
  else k s.drewDelay

/-! ### Signatures verified before their release (R373, R383) -/

/-- EV_PK_FAULT, and TS13 when the known-answer tests fail afterwards (R446, R447). -/
def State.pkFault (s : State) (rq : Rq) (kind : Nat) (kat : Bool) : State :=
  let s := s.event 0x0805 rq.route.origin (byte kind :: be 2 rq.op.code)
  if kat then s else s.fireSource 13

/-- A dual signature released only after both parts have verified inside the module (R373). When that fails, the reply is
ST_FAULT, the leaf stays used, and the fault is that of R446 (R383). -/
def Act.verified (s : State) (rq : Rq) (k : Act) : Act :=
  match rq.x.verify with
  | none => k
  | some kat => .refuse ((s.dualSigned rq.ctx).pkFault rq 1 kat) .fault 0x00C6

/-- The work of a command in the hash units, which run in lockstep: a mismatch ends it with ST_FAULT, DETAIL 0x00B8, and is
handled as TS13 (R387, R420). -/
def Act.onHash (s : State) (rq : Rq) (k : State → Act) : Act :=
  if rq.x.misses = 0 then k s else .refuse (s.fireSource 13) .fault 0x00B8

/-- A statement under the dual signature (R371, R373): the checks, then body and block as the reply's payload. -/
def State.statement (s : State) (rq : Rq) (body : List Byte) : Act :=
  Act.guard (s.noteLost rq.route.origin 2 s.ks.hss) (s.dualChecks rq.ctx)
    (.onHash s rq fun s => .verified s rq (.done .ok 0 (body ++ s.dualSign body) (s.dualSigned rq.ctx)))

end Sys2Proof.Machine
end

