-- ==== Sys2Proof/Machine/Entry.lean ====
section
/-! DEFINITION. How a Lirov request enters: where its packet comes from, the entry checks of Table 03-6 in their order, the
reply-cache decision of Table 03-3, the frames of the vital ports (chapter 07) with the checks of Table 07-7, and
`State.request`, which every request row calls. -/

namespace Sys2Proof.Machine

/-! ### CONSOLE frames (R472, R475) -/

/-- Consistent overhead byte unstuffing; none when a code byte is zero or runs past the end. -/
def uncobs : (fuel : Nat) → List Byte → Option (List Byte)
  | 0, _ => none
  | _ + 1, [] => some []
  | f + 1, c :: r =>
    let k := c.toNat - 1
    if c = 0#8 || r.length < k then none
    else
      match uncobs f (r.drop k) with
      | none => none
      | some rest => some (r.take k ++ (if r.length = k || c = 0xFF#8 then [] else [0#8]) ++ rest)

/-- The queue entries of the oldest CONSOLE frame, its delimiter last, and the entries after it; none without a delimiter. -/
def splitFrame : List (BitVec 16) → Option (List (BitVec 16) × List (BitVec 16))
  | [] => none
  | e :: r =>
    if e.setWidth 8 = 0#8 then some ([e], r)
    else
      match splitFrame r with
      | none => none
      | some (f, rest) => some (e :: f, rest)

/-- Whether an entry rejects its CONSOLE frame: FRAMING, OVERRUN or BREAK (R472). -/
def rejects (e : BitVec 16) : Bool := e.getLsbD 10 || e.getLsbD 11 || e.getLsbD 12

/-- The packet of a CONSOLE frame; none when a character, the COBS code or the CRC rejects it (R475). -/
def framePacket (es : List (BitVec 16)) : Option (List Byte) :=
  if es.any rejects || 4118 < es.length then none
  else
    match uncobs (es.length + 1) (es.dropLast.map (fun e => e.setWidth 8)) with
    | none => none
    | some bs =>
      let p := bs.take (bs.length - 4)
      if bs.length < 4 || fromBe (bs.drop (bs.length - 4)) != crc32c p then none else some p

/-! ### Where a packet comes from -/

/-- What a request row finds: nothing, something that is discarded without reply, or a packet, with the stamp at which its last
byte reached the D256 (R293). -/
inductive Found where
  | nothing
  | discard (s : State)
  | packet (rt : Route) (bytes : List Byte) (arr : Nat × Nat) (s : State)

/-- The stamp now, as cycle and phase. -/
def Phase.at (p : Phase) : Nat × Nat := (p.c, p.phi)

/-- The packet of a request row (R136, R142, R475). Before the module is ready push-window writes and CONSOLE frames are
discarded (R572); in D3hot and without a link nothing reaches a push window (R127, R170). -/
def State.find (s : State) : Via → Found
  | .ring o =>
    match (s.ctx (ownerIdx o)).inbox with
    | [] => .nothing
    | f :: r =>
      if !ownerOk o then .nothing
      else .packet (.ring o f.index f.addr f.cap f.pidx) f.packet (f.c, f.phi)
        (s.setCtx (ownerIdx o) { s.ctx (ownerIdx o) with inbox := r })
  | .push n w tlp =>
    if 64 ≤ n || s.hp.d3hot || !s.hp.linkUp || !s.pow.main then .nothing
    else if !s.pow.ready || tlp.length != 64 || 4 ≤ w then .discard (s.setCtx n { s.ctx n with pwErr := true })
    else .packet (.push n w) (if hdrLength tlp ≤ 48 then tlp.take (16 + hdrLength tlp) else tlp) s.ph.at s
  | .console =>
    match splitFrame s.cus.console.queue with
    | none => .nothing
    | some (f, r) =>
      if !s.pow.main then .nothing else
      let s' := s.setSerial .console { s.cus.console with queue := r }
      if !s.pow.ready then .discard s'
      else
        match framePacket f with
        | none => .discard (s'.setSerial .console { s'.cus.console with errors := sat 16 (s'.cus.console.errors + 1) })
        | some p => .packet .console p s.ph.at s'
  | .vital _ _ => .nothing

/-! ### Entry checks (Table 03-6) -/

/-- Step 1: VERSION and KIND, then LENGTH against the bytes received and R95. DESIGN CHOICE (log entry 138): header bytes that
a CONSOLE packet shorter than 16 B does not have read as zero, here and in the reply that copies them. -/
def formChecks (p : List Byte) : List (Bool × Status × Nat) :=
  [(hdrVersion p != 1 || hdrKind p != 1, .unsupported, 0),
   (p.length != 16 + hdrLength p || 4096 < p.length, .length, 0),
   (hdrFlags p / 2 != 0, .unsupported, 0)]

/-- Steps 1 to 4 on a context: form, reserved header bits, SOURCE (R153, R635), EPOCH (R101). -/
def State.headChecks (s : State) (i : Nat) (p : List Byte) : List (Bool × Status × Nat) :=
  formChecks p ++ [(hdrSource p != ctxSource i, .spoof, 0x0010), (hdrEpoch p != (s.ctx i).epoch, .staleEpoch, 0)]

/-- Whether the reply ring has an entry free for one more reply (R140, R146): log entry 15 counts the waiting replies. -/
def Ctx.freeEntry (c : Ctx) : Bool :=
  c.cq.enable && !c.halt && decide ((c.cq.tail + 65536 - c.cq.head) % 65536 + c.outbox.length < 2 ^ c.cq.sizeLog2)

/-- A reply that is not cached and whose request took no credit of its own at step 5. -/
def State.answer (s : State) (rt : Route) (i : Nat) (p : List Byte) (st : Status) (detail : Nat) (credit : Bool) : State :=
  s.deliver rt (replyBytes p (s.ctx i).epoch (hdrSource p) 0 st detail s.ph.stamp []) (bit (hdrFlags p) 0) credit

/-- Level and port of a request against Table 03-4 (R109, R110) and the push windows (R143). -/
def accessChecks (rt : Route) (o : Op) : List (Bool × Status × Nat) :=
  let (m, t, p) := o.levels
  let (h, c, v) := o.ports
  match rt with
  | .ring .mgr _ _ _ _ => [(!m || !h, .access, 0)]
  | .ring (.slice _) _ _ _ _ => [(!t || !h, .access, 0)]
  | .push _ _ => [(o != .fieldCommand && o != .stampRead, .access, 0x0004), (!t || !h, .access, 0)]
  | .console => [(!p || !c, .access, 0)]
  | .vital _ _ => [(!p || !v, .access, 0)]

/-- The life-cycle states of a ceremony TYPE (Table 13-2), as codes. -/
def ceremonyStates (type : Nat) : List Nat :=
  if type = 1 then [1]
  else if type = 2 || type = 9 then [2, 3]
  else if type = 3 || type = 4 || type = 5 || type = 7 then [2]
  else if type = 6 then [3]
  else if type = 8 then [1, 2, 3]
  else []

/-- Step 9: life-cycle state (R528, R461), then halted (R574). -/
def State.lifeChecks (s : State) (o : Op) (body : List Byte) : List (Bool × Status × Nat) :=
  let life := s.tam.life
  [(!o.runsIn life || (o == .ceremonyStart && life == .locked && 3 ∉ ceremonyStates (at8 body 0)),
      .locked, 0x0100 + life.code),
   (s.pow.halted && !o.runsHalted, .fault, 0x0136)]

/-- Step 10: the state of a tenant's slice (Table 06-1). -/
def State.sliceChecks (s : State) (rt : Route) (o : Op) : List (Bool × Status × Nat) :=
  match rt.tenant with
  | none => []
  | some n =>
    match (s.slc n).st with
    | .active => []
    | .free | .created | .immigrating => [(true, .quiesced, 0x0050)]
    | .quiescing => [(o != .sliceStatus, .quiesced, 0)]
    | .quiesced => [(o != .sliceStatus && o != .sliceReset, .quiesced, 0)]
    | .emigrating => [(o != .sliceStatus, .emigrating, 0)]

/-- Entries that a command may record beyond the limited codes (R639); log entry 16. -/
def Op.room : Op → Nat
  | .sysInfo | .sysReset | .stampRead | .sliceBind | .sliceQuota | .sliceQuiesce | .sliceResume | .sliceStatus
  | .channelInvalidate | .channelStatus | .sealAbort | .rngDraw | .laneStatus | .loopRead | .loopHart
  | .loopAssign | .logRead | .ceremonyStatus | .peerStatus | .fwStatus | .tamperStatus
  | .vpPoll => 0
  | .sysSelftest => 40
  | .sliceCreate | .sliceReset | .fieldCommand | .stampReport | .keyImport | .keyWrap | .keyUnwrap
  | .keyDerive | .keyAttr | .sealOnce | .sealInit | .sealUpdate | .sealFinal | .hashDigest | .laneRetire | .laneRestore
  | .loopReport | .loopPower | .logClear | .logHead | .attestDevice | .keyDestroy | .attestKey | .ceremonyStart | .ceremonyCancel
  | .peerUnpair | .fwLoad | .fwActivate | .powerDomain | .vpOpen | .vpResync | .bnMac | .bnMul | .bnModmul | .bnModinv
  | .bnModexp | .pkLoadCurve => 1
  | .sliceRemove | .sliceEmigrate | .sliceImmigrate | .sliceReceipt | .sliceRefuse | .keyGen | .tamperConfig | .peerPair => 2
  | .pkSign | .pkVerify | .pkAgree | .pkEncrypt | .pkDecrypt => 3
  | .ceremonyStep => 16

/-- Step 11, first check: staging room (R639). -/
def State.roomChecks (s : State) (o : Op) : List (Bool × Status × Nat) :=
  [(decide (256 < s.evr.staged.length + s.roomHeld + o.room) && decide (0 < o.room), .busy, 0x0122)]

/-- What the reply cache decides (Table 03-3). -/
inductive CacheVerdict where
  | replay (reply : List Byte)
  | conflict (detail : Nat)
  | hold
  | accept

/-- Table 03-3. -/
def State.cacheCheck (s : State) (i : Nat) (p digest : List Byte) : CacheVerdict :=
  let c := s.ctx i
  match c.cache.find? (fun e => e.id == hdrId p) with
  | some e => if e.digest = digest then .replay e.reply else .conflict 0x0001
  | none =>
    match s.live.find? (fun l => l.rq.route.ctx? == some i && hdrId l.rq.hdr == hdrId p) with
    | some l => if l.rq.digest = digest then .hold else .conflict 0x0001
    | none =>
      match c.floor with
      | some f => if hdrId p ≤ f then .conflict 0x0002 else .accept
      | none => .accept

/-- Steps 7 to 10 for a known opcode (R585 puts ST_BUSY in place of step 7). -/
def State.stepChecks (s : State) (rt : Route) (o : Op) (body : List Byte) : List (Bool × Status × Nat) :=
  (s.pow.warned, .busy, 0x0137) :: accessChecks rt o ++ s.lifeChecks o body ++ s.sliceChecks rt o ++ s.roomChecks o

/-- The request of a packet that arrived at `arr`. -/
def State.rq (s : State) (rt : Route) (p digest : List Byte) (arr : Nat × Nat) (o : Op) (x : Ext) : Rq :=
  ⟨rt, p.take 16, o, p.drop 16, digest, x, arr.1, arr.2, o.room, false, false, (s.ctx (rt.ctx?.getD 66)).taken,
    if o == .loopReport then some (s.loop (at8 p 16)) else none⟩

/-- Whether a SLICE.QUOTA waits to change the rules of a slice: new commands of the slice are held (Table 05-6). -/
def State.ruleChange (s : State) (n : Nat) : Bool := s.live.any (fun l => l.job == .held (.rules n) && l.rq.route.isMgr)

/-- Steps 7 to 11 and the command-specific part `run` of a request that the cache accepts. -/
def State.execute (s : State) (rt : Route) (p digest : List Byte) (arr : Nat × Nat) (x : Ext) (run : Rq → State → Act) : State :=
  match Op.ofCode (hdrOpcode p) with
  | none =>
    let rq := s.rq rt p digest arr .sysInfo x
    if s.pow.warned then s.complete rq false .busy 0x0137 [] else s.complete rq false .unsupported 0 []
  | some o =>
    let rq := s.rq rt p digest arr o x
    match firstFail (s.stepChecks rt o (p.drop 16)) with
    | some (st, d) => s.complete rq false st d []
    | none =>
      match rt.tenant with
      | none => (Act.sound s rq (run rq s)).settle s.evr.next rq
      | some n =>
        if s.ruleChange n then s.hold s.evr.next rq (.held (.rules n))
        else (Act.sound s rq (run rq s)).settle s.evr.next rq

/-- One more request that a context has accepted; their numbers tell the order of acceptance. -/
def State.accepted (s : State) (i : Nat) : State := s.setCtx i { s.ctx i with taken := (s.ctx i).taken + 1 }

/-- Step 6 onwards (R106). The request holds its credit. -/
def State.fromCache (s : State) (rt : Route) (i : Nat) (p : List Byte) (arr : Nat × Nat) (x : Ext)
    (run : Rq → State → Act) : State :=
  let digest := digestOf p
  match s.cacheCheck i p digest with
  | .replay r => s.deliver rt (replayOf r) (bit (hdrFlags p) 0) true
  | .conflict d => s.answer rt i p .idConflict d true
  | .hold => { s with live := s.live ++ [⟨{ s.rq rt p digest arr .sysInfo x with room := 0 }, .again⟩] }
  | .accept => (s.accepted i).execute rt p digest arr x run

/-- Step 5 for each arrival point (R113, R114, R146), then step 6. -/
def State.takeIn (s : State) (rt : Route) (p : List Byte) (arr : Nat × Nat) (x : Ext) (run : Rq → State → Act) : State :=
  let i := rt.ctx?.getD 66
  match rt, firstFail (s.headChecks i p) with
  | .ring _ _ _ _ _, some (st, d) => s.answer rt i p st d true
  | _, some (st, d) => s.answer rt i p st d false
  | .ring _ _ _ _ _, none => s.fromCache rt i p arr x run
  | .push n _, none =>
    let c := s.ctx n
    if c.credits = 0 then
      if c.freeEntry then s.answer rt i p .busy 0x0003 false
      else s.setCtx n { c with pwErr := true, drops := sat 16 (c.drops + 1) }
    else (s.setCtx n { c with credits := c.credits - 1 }).fromCache rt i p arr x run
  | _, none =>
    if s.live.any (fun l => l.rq.route.ctx? == some i) then s.answer rt i p .busy 0x0003 false
    else s.fromCache rt i p arr x run

/-! ### Vital frames (R243-R269) -/

/-- Whether RDY of a port is high, that is, whether the port takes the start of a frame (R248, R250, R574, R585). -/
def State.rdyHigh (s : State) (p : Port) : Bool :=
  let v := s.vp p
  s.pow.main && s.pow.ready && !s.pow.warned && !s.pow.halted && v.mode != .disabled && !v.failed && v.held.isNone
    && s.ph.st != .none && s.ph.st != .fault

/-- The ordinary stretch of RDY ends on both ports: their responses are ready (R248; log entry 152). -/
def State.rdyRises (s : State) : State :=
  { s with vpA := { s.vpA with stretch := false }, vpB := { s.vpB with stretch := false } }

/-- What a frame is, once started (R247, Table 07-3). -/
inductive FrameKind where
  | bad
  | idle
  | fetch
  | request (opcode : Nat)
deriving DecidableEq, Repr

/-- Steps 1 and 2 of Table 07-7, and the kind of an acceptable frame. -/
def Vp.kind (v : Vp) (f : Frame) : FrameKind :=
  let t := at8 f.bytes 0
  let g := v.mode == .guarded
  if f.clocks != 512 || f.bytes.length != 64 || t / 128 != b01 g || (t % 128 != 1 && t % 128 != 2)
    || (g && fld f.bytes 60 4 != crc32c (f.bytes.take 60)) then .bad
  else if t % 128 = 2 then .idle
  else if bit (at8 f.bytes 1) 1 then .fetch
  else .request (fld f.bytes 6 2)

/-- A response of Table 07-4 without own ALIVE: TYPE, RFLAGS, ECHO, body. -/
def response (type fl echo : Nat) (body : List Byte) : List Byte :=
  [byte type, byte fl, 0#8, 0#8] ++ be 2 echo ++ padTo 54 body

/-- Whether a request of a port is still executing (R263). -/
def State.portPending (s : State) (p : Port) : Bool :=
  s.live.any (fun l => match l.rq.route with
    | .vital q _ => q == p
    | .ring _ _ _ _ _ | .push _ _ | .console => false)

/-- TYPE NONE, with PENDING while a reply is pending (R254, R263). -/
def State.noneResponse (s : State) (p : Port) : List Byte := response 0 (8 * b01 (s.portPending p)) 0 []

/-- Part `part` of a reply (Table 07-5). -/
def VReply.part (r : VReply) (part echo : Nat) : List Byte :=
  response 1 0 echo (be 2 r.op ++ be 2 r.status ++ be 2 r.detail ++ be 2 r.body.length ++ padTo 8 r.stamp
    ++ padTo 38 (slice r.body (38 * part) 38))

/-- What SDO carries for a response (R257, R258): G, BAD_PREV, own ALIVE and CRC in GUARDED, zeros in their places in PLAIN. -/
def Vp.sdo (v : Vp) (own : Nat) : List Byte :=
  let r := padTo 60 v.resp
  if v.mode == .guarded then
    let b := [byte (at8 r 0 + 128), byte (at8 r 1 / 2 * 2 + b01 v.badPrev)] ++ be 2 own ++ r.drop 4
    b ++ be 4 (crc32c b)
  else r.take 1 ++ zeros 5 ++ r.drop 6 ++ zeros 4

/-- The own ALIVE that the next response carries (R266). -/
def Vp.nextOwn (v : Vp) : Nat := if v.session == .open' then (v.own + 1) % 65536 else v.own

/-- A frame started: SDO carries the response to the preceding one (R254), CLK gives the mode (R244), and at its end RDY falls
(R248). -/
def State.startFrame (s : State) (p : Port) (clkHigh : Bool) : State :=
  let v := s.vp p
  (s.setVp p { v with own := v.nextOwn, ownSent := some v.nextOwn, badPrev := false, clkMode := clkHigh, stretch := true }).emit
    (.vital p (v.sdo v.nextOwn))

/-- A frame attempted while RDY is low (R246): zeros are shifted out. Without VIO the port takes no notice (R607). -/
def State.unstarted (s : State) (p : Port) : State :=
  let v := s.vp p
  if !v.vio || !s.pow.main then s
  else (s.setVp p { v with ignored := sat 16 (v.ignored + 1), badPrev := true }).emit (.vital p (zeros 64))

/-- PORT code of a vital port. -/
def portCode (p : Port) : Byte := if p == .a then 0x0A#8 else 0x0B#8

/-- An ignored frame (R247, R254, R268): the third in a row loses the session. -/
def State.ignoreFrame (s : State) (p : Port) : State :=
  let v := s.vp p
  let v := { v with ignored := sat 16 (v.ignored + 1), badPrev := true, resp := s.noneResponse p }
  if v.mode != .guarded || v.session != .open' then s.setVp p v
  else if v.misses < 2 then s.setVp p { v with misses := v.misses + 1 }
  else
    ((s.setVp p { v with misses := 3, session := .lost }).event 0x0503 noOrigin
      ([portCode p] ++ be 2 v.lostFr ++ be 2 v.ignored)).fire 6

/-- The response to an accepted frame. In an OPEN session it is kept as the stored response of L when the frame has become L, as
every frame but a refused VP.OPEN does (R267). -/
def State.answerFrame (s : State) (p : Port) (stored : Bool) (r : List Byte) : State :=
  let v := s.vp p
  s.setVp p { v with resp := r, stored := if stored && v.session == .open' then r else v.stored }

/-- A request frame refused: status and DETAIL, no payload; FETCH keeps the earlier reply. -/
def State.refuseFrame (s : State) (p : Port) (op alive : Nat) (st : Status) (detail : Nat) : State :=
  s.answerFrame p (op != Op.code .vpOpen) (VReply.part ⟨op, st.code, detail, s.ph.stamp, [], alive⟩ 0 alive)

/-- A frame turned away because the session is not OPEN (Table 07-8). -/
def State.turnAway (s : State) (p : Port) (op alive : Nat) (detail : Nat) : State := s.refuseFrame p op alive .policy detail

/-- A retransmission (Table 07-8): the stored response with RETX. -/
def Vp.again (v : Vp) : Vp :=
  { v with misses := 0, retx := sat 16 (v.retx + 1), resp := v.stored.set 1 (byte (setBit (at8 v.stored 1) 1 true)) }

/-- A new frame of an OPEN session: L and LOST_FRAMES (Table 07-8). -/
def Vp.advance (v : Vp) (alive d : Nat) : Vp := { v with last := alive, misses := 0, lostFr := sat 16 (v.lostFr + (d - 1)) }

/-- ECHO of a frame checked against the ALIVE of the response that the preceding started frame carried, where there was one
(R269). -/
def Vp.checkEcho (v : Vp) (f : Frame) (sent : Option Nat) : Vp :=
  if v.mode == .guarded && !bit (at8 f.bytes 1) 0 && sent.any (fun a => a != fld f.bytes 4 2) then
    { v with echoErr := sat 16 (v.echoErr + 1) }
  else v

/-- Step 3 of Table 07-7 for an accepted frame, and then `serve`. PLAIN ports have no session (R264). Table 07-8 names other
opcodes in CLOSED and LOST, so an IDLE frame is answered there as R254 says (log entry 153). -/
def State.stepThree (s : State) (p : Port) (f : Frame) (k : FrameKind) (serve : State → State) : State :=
  let v := s.vp p
  let alive := fld f.bytes 2 2
  let op := fld f.bytes 6 2
  let d := (alive + 65536 - v.last) % 65536
  if v.mode != .guarded then serve s
  else if k == .request (Op.code .vpOpen) then serve (s.setVp p { v with misses := 0 })
  else
    match v.session with
    | .closed => if k == .idle then serve s else s.turnAway p op alive 0x0073
    | .lost => if k == .idle || k == .request (Op.code .vpResync) then serve s else s.turnAway p op alive 0x0074
    | .open' =>
      if k == .request (Op.code .vpResync) then serve (s.setVp p { v with last := alive, misses := 0 })
      else if d = 0 then s.setVp p v.again
      else if d ≤ 3 then serve (s.setVp p (v.advance alive d))
      else s.ignoreFrame p

/-- A frame on a port: not started, ignored, or served (Table 07-7, steps 1 to 3). -/
def State.frame (s : State) (p : Port) (f : Frame) (serve : State → State) : State :=
  if !s.rdyHigh p || !(s.vp p).vio then s.unstarted p
  else
    let t := s.startFrame p f.clkHigh
    match (s.vp p).kind f with
    | .bad => t.ignoreFrame p
    | k => (t.setVp p ((t.vp p).checkEcho f (s.vp p).ownSent)).stepThree p f k serve

/-- Bytes of a frame that its mode wants zero (R256, R257): reserved CFLAGS; in PLAIN also BAD_PREV, ALIVE, ECHO and CRC. FETCH
stays allowed in PLAIN (R280; log entry 30). -/
def Vp.frameChecks (v : Vp) (f : Frame) : List (Bool × Status × Nat) :=
  [(at8 f.bytes 1 / 4 != 0 ||
      (v.mode == .plain && (bit (at8 f.bytes 1) 0 || !zeroAt f.bytes 2 4 || !zeroAt f.bytes 60 4)), .unsupported, 0)]

/-- Payload length of a command that a vital port can carry (R260). -/
def Op.vitalLen : Op → Nat
  | .logRead | .logClear | .vpOpen | .vpPoll => 8
  | .logHead => 16
  | .vpResync => 4
  | _ => 0

/-- Commands that a PLAIN port accepts (R117). -/
def Op.plain (o : Op) : Bool := o == .sysInfo || o == .stampRead || o == .logRead || o == .vpPoll

/-- Steps 5 and 6 of Table 07-7. -/
def State.portChecks (s : State) (rt : Route) (p : Port) (o : Op) : List (Bool × Status × Nat) :=
  ((s.vp p).mode == .plain && !o.plain, .access, 0x0070) :: accessChecks rt o ++ s.lifeChecks o []

/-- Steps 5 to 7 of Table 07-7 as far as they are the same for every command: bytes of the frame that are to be zero, PART,
and the bytes after the payload (R256, R257, R260). -/
def State.vitalChecks (s : State) (rt : Route) (p : Port) (o : Op) (f : Frame) : List (Bool × Status × Nat) :=
  s.portChecks rt p o ++ (s.vp p).frameChecks f ++
    [(fld f.bytes 8 2 != 0 || !zeroAt f.bytes (10 + o.vitalLen) (50 - o.vitalLen), .unsupported, 0)] ++ s.roomChecks o

/-- The request of a frame. -/
def State.vitalRq (s : State) (rt : Route) (o : Op) (f : Frame) (x : Ext) : Rq :=
  ⟨rt, [1#8, 1#8] ++ be 2 o.code ++ zeros 12, o, slice f.bytes 10 o.vitalLen, [], x, s.ph.c, s.ph.phi, o.room, false,
    false, 0, none⟩

/-- The end of one execution on a port (R254, R263): the reply, or NONE with PENDING while it is late. A request that has executed
takes the place of the earlier one whose parts FETCH reads (R262, Table 07-14); one refused by its checks has not executed. -/
def portReply (p : Port) (rq : Rq) (n alive : Nat) : Act → State
  | .done st d b t =>
    let done := st == Status.ok
    if rq.x.late then
      let u := t.hold n rq (.late st d b)
      (if done then u.setVp p { u.vp p with reply := none } else u).answerFrame p (done || rq.op != .vpOpen) (u.noneResponse p)
    else
      let r : VReply := ⟨rq.op.code, st.code, d, t.ph.stamp, b, alive⟩
      (if done then t.setVp p { t.vp p with reply := some r } else t).answerFrame p (done || rq.op != .vpOpen) (r.part 0 alive)
  | .park j t =>
    let u := t.hold n rq j
    u.answerFrame p true (u.noneResponse p)

/-- A request frame past step 3: while a reply is pending every request but VP.POLL and VP.OPEN is turned away (R263, Table
07-14); then steps 4 to 7, then `run`. `run` is given the reply or the response itself. -/
def State.serveRequest (s : State) (p : Port) (f : Frame) (x : Ext) (run : Rq → State → Act)
    (answer : Rq → Nat → Act → State) : State :=
  let alive := fld f.bytes 2 2
  let code := fld f.bytes 6 2
  let rt := Route.vital p alive
  if s.portPending p && code != Op.code .vpPoll && code != Op.code .vpOpen then s.refuseFrame p code alive .busy 0x0072
  else
    match Op.ofCode code with
    | none => s.refuseFrame p code alive .unsupported 0
    | some o =>
      match firstFail (s.vitalChecks rt p o f) with
      | some (st, d) => s.refuseFrame p code alive st d
      | none =>
        let rq := s.vitalRq rt o f x
        answer rq alive (.sound s rq (run rq s))

/-- Whether a frame belongs to a row: an unacceptable one to every row, a request to the row of its command. -/
def Vp.isMine (v : Vp) (f : Frame) (mine : Op → List Byte → Bool) : Bool :=
  match v.kind f with
  | .bad => true
  | .idle | .fetch => false
  | .request code =>
    match Op.ofCode code with
    | none => true
    | some o => mine o (slice f.bytes 10 50)

/-- A request frame on a vital port, for a command whose answer is a reply. -/
def State.vitalRequest (s : State) (p : Port) (f : Frame) (x : Ext) (mine : Op → List Byte → Bool)
    (run : Rq → State → Act) : State :=
  if (s.vp p).isMine f mine then
    s.frame p f (fun s => s.serveRequest p f x run (fun rq alive a => portReply p rq s.evr.next alive a))
  else s

/-- A request row. `mine` picks the packets and frames the row is about; a packet of another known command stays where it is,
and the row has no effect (log entry 4). -/
def State.request (s : State) (v : Via) (x : Ext) (mine : Op → List Byte → Bool) (run : Rq → State → Act) : State :=
  match v with
  | .vital p f => s.vitalRequest p f x mine run
  | .ring _ | .push _ _ _ | .console =>
    match s.find v with
    | .nothing => s
    | .discard s' => s'
    | .packet rt p arr s' =>
      match Op.ofCode (hdrOpcode p) with
      | some o => if mine o (p.drop 16) then s'.takeIn rt p arr x run else s
      | none => s'.takeIn rt p arr x run

/-! ### Checks that command families share at step 11 -/

/-- R62: the refusal of a command that needs a stamp while none is issued. -/
def State.needStamp (s : State) : List (Bool × Status × Nat) :=
  match s.ph.st with
  | .acquire => [(true, .busy, 0)]
  | .none => [(true, .policy, 0)]
  | .fault => [(true, .fault, 0)]
  | .stopped => [(true, .locked, 0)]
  | .lock | .hold | .coast | .slew => []

/-- R629: the refusal of a request that needs a random value while the DRBG is stopped. -/
def State.needRandom (s : State) : List (Bool × Status × Nat) := [(s.pow.drbgStop, .fault, 0x0140)]

/-- Whether a lane is in service. -/
def State.laneInService (s : State) : Bool := (List.range 4).any (fun i => (s.lane i).st == .inService)

/-- R417: the refusal of a command that needs a lane while none is in service. -/
def State.needLane (s : State) : List (Bool × Status × Nat) := [(!s.laneInService, .fault, 0x00BA)]

/-- R636: LENGTH equal to the size of the layout. -/
def needLength (rq : Rq) (n : Nat) : List (Bool × Status × Nat) := [(rq.body.length != n, .length, 0)]

/-- R94: reserved bytes of a payload. -/
def needZero (rq : Rq) (at' n : Nat) : List (Bool × Status × Nat) := [(!zeroAt rq.body at' n, .unsupported, 0)]

/-- R151 on the descriptor at an offset of the payload, which must be present. -/
def State.needDesc (s : State) (rq : Rq) (at' dir : Nat) : List (Bool × Status × Nat) :=
  descCheck rq.body at' dir (s.indices rq.owner)

/-- R151 on a descriptor that may be absent. -/
def State.mayDesc (s : State) (rq : Rq) (at' dir : Nat) : List (Bool × Status × Nat) :=
  if descAbsent rq.body at' then [] else s.needDesc rq at' dir

/-- A cache entry cleared (R358). -/
def State.dropCache (s : State) (k : Nat) : State := s.mapKs (fun v => { v with cache := v.cache.filter (· != k) })

/-- A request waits for a key that is not in the cache (R339). A double-bit error in its entry clears the entry, and the request
waits for the reload (R358). -/
def Act.withKey (s : State) (rq : Rq) (k : Nat) (f : Key → State → Act) : Act :=
  match s.cachedKey rq.owner k with
  | some key =>
    if k ∈ rq.x.keyErrs then .park (.held (.key k)) (s.dropCache k)
    else f key (s.touchKey k)
  | none => .park (.held (.key k)) s

/-- A request reads an input range (R157): the bytes, a wait, or ST_ACCESS with DETAIL 0x0020 (R167). -/
def Act.withInput (s : State) (rq : Rq) (i : Nat) (d : Desc) (f : List Byte → State → Act) : Act :=
  match s.input rq i d with
  | .data bs => f bs (s.didInput rq d)
  | .wait => .park (.held (.writes rq.owner)) s
  | .fail c => .refuse (s.dmaEvent rq.route.origin rq.owner 2 c) .access 0x0020

/-- A request reads an input range that may be absent: no bytes then. -/
def Act.withInput? (s : State) (rq : Rq) (i at' : Nat) (f : List Byte → State → Act) : Act :=
  if descAbsent rq.body at' then f [] s else .withInput s rq i (descAt rq.body at') f

/-- Output of a request through a descriptor; without DMA the request fails (R637, R170). -/
def Act.withOutput (s : State) (rq : Rq) (d : Desc) (bytes : List Byte) (kind : Nat) (k : State → Act) : Act :=
  match s.dmaStop rq.owner with
  | some c => .refuse (s.dmaEvent rq.route.origin rq.owner kind c) .access 0x0020
  | none => k (s.output rq.owner d bytes)

end Sys2Proof.Machine
end

