-- ==== Sys2Proof/Machine/LaneOps.lean ====
section
/-! DEFINITION. Cipher lanes: choosing a lane (R398, R565), preemption (R397), bulk work in round robin (R396), and what a
retired lane leaves behind (R410, R415-R417). -/

namespace Sys2Proof.Machine

/-- Vector 68 (Table 04-7). -/
def State.fireLane (s : State) : State := s.fire 3

/-- The lanes in service. -/
def State.inService (s : State) : List Nat := (List.range 4).filter (fun i => (s.lane i).st == .inService)

/-- The two lowest-numbered in-service lanes, which automatic gating leaves awake (R565, R399). -/
def State.keptAwake (s : State) : List Nat := s.inService.take 2

/-- Those lanes woken, when a lane has left service and they were gated before (R399, R565). -/
def State.wakeKept (s : State) : State :=
  s.keptAwake.foldl (fun s i => if (s.lane i).gated then s.setLane i { s.lane i with gated := false } else s) s

/-- In-service lanes that may take work: the ungated ones, or the gated ones when every one is gated (R565). -/
def State.candidates (s : State) : List Nat :=
  let ins := s.inService
  let awake := ins.filter (fun i => !(s.lane i).gated)
  if awake.isEmpty then ins else awake

/-- The lane with the lowest priority running, lowest number first (R398). -/
def State.leastLoaded (s : State) (is : List Nat) : Option Nat :=
  is.foldl (fun best i => match best with
    | none => some i
    | some b => if (s.lane b).load < (s.lane i).load then some i else some b) none

/-- The lane of a first computation (R398). -/
def State.pickFirst (s : State) : Option Nat := s.leastLoaded s.candidates

/-- The lane of a recomputation: another in-service lane than `l` when one exists (R398). -/
def State.pickSecond (s : State) (l : Nat) : Option Nat :=
  let others := s.candidates.filter (· != l)
  let rest := s.inService.filter (· != l)
  if !others.isEmpty then s.leastLoaded others
  else if !rest.isEmpty then s.leastLoaded rest
  else s.leastLoaded s.candidates

/-- Work that ends: it leaves the lane that holds it, OPS counts it, and what waits for the lane goes on. -/
def State.endWork (s : State) (w : Work) : State :=
  (List.range 4).foldl (fun s i =>
    let l := s.lane i
    if w ∈ l.work ++ l.queue then
      (s.setLane i { l with work := l.work.erase w, queue := l.queue.erase w, ops := sat 40 (l.ops + 1) }).startNext i
    else s) s

/-- Whether work is on some lane. -/
def State.onLane (s : State) (w : Work) : Bool := (List.range 4).any (fun i => w ∈ (s.lane i).work ++ (s.lane i).queue)

/-! ### Bulk work -/

/-- The bulk work at the front of a context's queue. -/
def Live.bulkOf (i : Nat) (l : Live) : Bool :=
  match l.job with
  | .bulk b => ctxOf b.owner == i
  | _ => false

/-- Whether a context has queued bulk work that no lane runs. -/
def State.bulkReady (s : State) (i : Nat) : Bool := s.live.any (Live.bulkOf i) && !s.onLane (.bulk i)

/-- The next context in turn with queued bulk work: slices in number order, then the manager (R396). -/
def State.nextBulk (s : State) : Option Nat :=
  ((List.range 65).map (fun k => (s.pow.turn + k) % 65)).find? s.bulkReady

/-- Idle in-service lanes, ungated first (R565). -/
def State.idleLanes (s : State) : List Nat :=
  let ins := s.inService.filter (fun i => (s.lane i).work.isEmpty)
  ins.filter (fun i => !(s.lane i).gated) ++ ins.filter (fun i => (s.lane i).gated)

/-- One queued segment started on an idle lane, if there are both. -/
def State.startBulk (s : State) : State :=
  match s.idleLanes, s.nextBulk with
  | l :: _, some i => (s.mapPow (fun p => { p with turn := (i + 1) % 65 })).startWork l (.bulk i)
  | _, _ => s

/-- Every idle in-service lane given a queued segment. -/
def State.schedule (s : State) : State := times State.startBulk 4 s

/-- The handle that a bulk operation works on. -/
def Bulk.handle (b : Bulk) : Option Nat :=
  match b.keep with
  | some k => some k.handle
  | none => b.close

/-- What a finished bulk operation releases: its output (overwritten with zeros after a failed tag, R407), its stream and
its reply. -/
def Bulk.finish (b : Bulk) (origin : Nat) (s : State) : Act :=
  let i := ctxOf b.owner
  match b.out with
  | none => .done b.status b.detail b.reply (s.setCtx i ((s.ctx i).setStreams b.keep b.close))
  | some d =>
    match s.dmaStop b.owner with
    | some c =>
      .refuse (s.setCtx i ((s.ctx i).setStreams none b.handle) |>.dmaEvent origin b.owner 4 c) .access 0x0020
    | none =>
      let s := s.output b.owner d b.bytes
      let s := if b.status = Status.ok then s else s.output b.owner d (zeros b.bytes.length)
      .done b.status b.detail b.reply (s.setCtx i ((s.ctx i).setStreams b.keep b.close))

/-- A bulk operation that ends with ST_FAULT, DETAIL 0x00B8 (R416): output overwritten with zeros, stream closed. Without DMA
the overwriting is a failed transfer (R637, R170). -/
def Bulk.fail (b : Bulk) (origin : Nat) (s : State) : Act :=
  let s := match b.out with
    | none => s
    | some d =>
      match s.dmaStop b.owner with
      | some c => s.dmaEvent origin b.owner 4 c
      | none => s.output b.owner d (zeros b.bytes.length)
  let i := ctxOf b.owner
  .done .fault 0x00B8 [] (s.setCtx i ((s.ctx i).setStreams none b.handle))

/-- Every bulk operation ends when no lane is in service (R416). -/
def State.failAllBulk (s : State) : State :=
  (s.live.filter (fun l => match l.job with
    | .bulk _ => true
    | _ => false)).foldl (fun s l => match l.job with
      | .bulk b => (b.fail l.rq.route.origin { s with live := s.live.erase l }).settle s.evr.next l.rq
      | _ => s) s

/-! ### Retirement -/

/-- The lane that a record names for a piece of its work. -/
def State.noteLane (s : State) (i : Nat) (w : Work) : State :=
  { s with recs := s.recs.map (fun r => match w with
    | .first c q => if r.ch = c && r.seq = q then { r with lane := i } else r
    | .second c q => if r.ch = c && r.seq = q then { r with lane2 := i } else r
    | .bulk _ | .kat => r) }

/-- The lane for work that must move (R398): a recomputation goes to another lane than the first computation of its record. -/
def State.pickAgain (s : State) (w : Work) : Option Nat :=
  match w with
  | .bulk _ | .kat => none
  | .first _ _ => s.pickFirst
  | .second c q =>
    match s.recs.find? (fun r => r.ch == c && r.seq == q) with
    | none => s.pickFirst
    | some r => s.pickSecond r.lane

/-- Work of a lane that no longer takes it, put on other in-service lanes (R415, Table 08-11). -/
def State.rehome (s : State) (ws : List Work) : State :=
  ws.foldl (fun s w => match s.pickAgain w with
    | none => s
    | some i => (s.startWork i w).noteLane i w) s

/-- What follows when no lane is left in service (R416, R417). -/
def State.noLaneLeft (s : State) : State :=
  if s.laneInService then s.schedule
  else (s.windfallAll (fun r => r.st == .green || r.st == .ripe) .fault 0x00BA).failAllBulk

/-- A LANE.RETIRE that waits replies once its lane is RETIRED (R409). -/
def State.answerRetire (s : State) (i : Nat) : State :=
  s.finish (fun l => l.job == .laneRetire i) (fun _ s => .done .ok 0 [] s)

/-- A lane retired at once (R415, R417, R419): its work restarts elsewhere, vector 68 fires, and a LANE.RETIRE of it replies. -/
def State.retireNow (s : State) (i cause : Nat) : State :=
  let l := s.lane i
  let s := s.setLane i { l with st := .retired, cause := cause, left := 0, gated := false, work := [], queue := [], copies := [] }
  (((s.wakeKept.rehome (l.work ++ l.queue)).fireLane).noLaneLeft).answerRetire i

/-- A fault-mode mismatch on an in-service lane (R415): EV_LANE_FAULT, CAUSE 2. -/
def State.laneFault (s : State) (i cause : Nat) : State :=
  let l := s.lane i
  let s := s.setLane i { l with misses := if cause = 2 then sat 32 (l.misses + 1) else l.misses }
  (s.event 0x0803 noOrigin [byte i, byte cause]).retireNow i cause

end Sys2Proof.Machine
end

