-- ==== Sys2Proof/Machine/Field.lean ====
section
/-! DEFINITION. Field channels (chapter 08) and the binding entries that govern them (R208-R213): FIELD.COMMAND in both
forms, the decisions on a release record, and its ripening. -/

namespace Sys2Proof.Machine

/-! ### Binding entries (Table 06-4) -/

def entryGen (e : List Byte) : Nat := fldLe e 0 3
def entryFlags (e : List Byte) : Nat := at8 e 3
def entryMode (e : List Byte) : Nat := at8 e 5
def entryArea (e : List Byte) : Nat := at8 e 8
def entrySteps (e : List Byte) : Nat := at8 e 9
def entryOffset (e : List Byte) : Nat := fldLe e 10 2
def entryLead (e : List Byte) : Nat := fldLe e 12 2
def entrySeqStart (e : List Byte) : Nat := fldLe e 16 5
def entryLabel (e : List Byte) : List Byte := slice e 24 8
def entryCheck (e : List Byte) : Nat := fldLe e 60 4

/-- A frame-table area of a slice. -/
def State.area (s : State) (n a : Nat) : Option Part :=
  match (s.slc n).run with
  | none => none
  | some r => if a = 0 then r.ft0 else if a = 1 then r.ft1 else none

/-- Whether an entry is usable (R209). -/
def State.usable (s : State) (e : List Byte) : Bool :=
  let n := entrySlice e
  let st := (s.slc n).st
  e.length == 64 && entryCheck e == crc32c (e.take 60) && bit (entryFlags e) 0 && decide (entryFlags e < 8)
    && zeroAt e 14 2 && zeroAt e 21 3 && zeroAt e 32 28 && decide (n < 64)
    && (st == .active || st == .quiescing || st == .quiesced)
    && (match s.area n (entryArea e) with
      | none => false
      | some p => decide (1 ≤ entrySteps e) && decide (entrySteps e ≤ 128)
          && decide (entryOffset e + entrySteps e ≤ p.len))

/-- The cached entry of a channel (R213). -/
def State.entryOf (s : State) (ch : Nat) : Option (List Byte) := (s.cached.find? (fun e => e.1 == ch)).map (·.2)

/-- An entry of the cache as its most recently used one. -/
def State.touchEntry (s : State) (ch : Nat) : State :=
  match s.cached.find? (fun e => e.1 == ch) with
  | none => s
  | some e => { s with cached := s.cached.filter (fun x => x.1 != ch) ++ [e] }

/-- The window of a channel when an entry takes effect (R212, R299). DESIGN CHOICE (log entry 147): an entry of the same GEN with
another CHECK, fetched after an invalidation or a reset and not after an eviction (R220), keeps the window. -/
def Chan.take (c : Chan) (e : List Byte) : Chan :=
  if entryGen e = c.gen && !c.entry.isEmpty then { c with entry := e, check := entryCheck e, evicted := false }
  else
    { c with
      entry := e, gen := entryGen e, check := entryCheck e, evicted := false, top := max (entrySeqStart e) c.above
      mask := 2 ^ 64 - 1 }

/-- A usable entry taken into the cache; the least recently used entry leaves a full cache (R213). -/
def State.cacheEntry (s : State) (ch : Nat) (e : List Byte) : State :=
  let others := s.cached.filter (fun x => x.1 != ch)
  let n := others.length - 63
  let s := (others.take n).foldl (fun s x => s.setChan x.1 { s.chan x.1 with evicted := true }) s
  { s with cached := others.drop n ++ [(ch, e)] }.setChan ch ((s.chan ch).take e)

/-! ### Sequence window (R299) -/

/-- `check(s)` of R299: none to accept, otherwise the DETAIL of ST_DUPLICATE. Once 0xFF_FFFF_FFFF has been accepted every
further command is a duplicate (R316). DESIGN CHOICE (log entry 148): a number not seen then has the DETAIL below window. -/
def Chan.duplicate (c : Chan) (seq : Nat) : Option Nat :=
  if c.top ≤ seq then none
  else
    let d := c.top - 1 - seq
    if 64 ≤ d then some 0x0085
    else if bit c.mask d then some 0x0084
    else if 2 ^ 40 ≤ c.top then some 0x0085
    else none

/-- `ripen(s)` of R299. -/
def Chan.ripen (c : Chan) (seq : Nat) : Chan :=
  if c.top ≤ seq then
    let n := seq + 1 - c.top
    { c with mask := (if 64 ≤ n then 0 else c.mask * 2 ^ n % 2 ^ 64) / 2 * 2 + 1, top := seq + 1 }
  else { c with mask := setBit c.mask (c.top - 1 - seq) true }

/-- The copies of TOP - 1 (R300): to backup memory at every ripening, to flash when a multiple of 1,024 is crossed. -/
def Chan.persist (old : Chan) (c : Chan) : Chan :=
  { c with
    backup := some (c.top - 1)
    flash := if old.backup.getD 0 / 1024 = (c.top - 1) / 1024 then c.flash else c.top - 1 }

/-! ### Slots (R56, R57, R301-R303) -/

/-- Period in ns of the last good cycle; nominal where none has been measured. -/
def Phase.base (p : Phase) : Nat := if p.period = 0 then nominalCycle p.band else p.period

/-- Length of the stamp cycle in progress in ns, spread evenly over its 65,536 phase units and so over its 64 slots (R50): the
mean of the history in COAST (R48), the period of the last good cycle in HOLD (R47), and in LOCK and SLEW that period with
the correction of the cycle (R46, R49). -/
def Phase.rate (p : Phase) : Nat :=
  match p.st with
  | .coast => p.meanPeriod
  | .lock | .slew => ((p.base : Int) * (65536 + p.corr) / 65536).toNat
  | .none | .acquire | .hold | .fault | .stopped => p.base

/-- Whether absolute slot `a` opens at least 4 µs from now, at the current rate (R301). -/
def Phase.inTime (p : Phase) (a : Nat) : Bool := decide (p.now * p.rate + 4000 * 65536 ≤ a * 1024 * p.rate)

/-- The first slot that opens at least 4 µs from now. -/
def Phase.firstInTime (p : Phase) : Nat :=
  let r := p.rate
  if r = 0 then p.slot + 1 else (p.now * r + 4000 * 65536 + 1024 * r - 1) / (1024 * r)

/-- The ports of a record: bit 1 VPA, bit 2 VPB (Table 06-4). -/
def Rec.ports (r : Rec) : Nat := entryFlags r.entry / 2 % 4

/-- Whether a slot holds 1,024 records for one of some ports (R314). -/
def State.slotFull (s : State) (ports a : Nat) : Bool :=
  let load := fun k => (s.recs.filter (fun r => r.st != .green && r.target == a && bit r.ports k)).length
  (bit ports 0 && decide (1024 ≤ load 0)) || (bit ports 1 && decide (1024 ≤ load 1))

/-- The first slot from `a` on that has space (R301). -/
def State.withSpace (s : State) (ports : Nat) : (fuel a : Nat) → Nat
  | 0, a => a
  | f + 1, a => if s.slotFull ports a then s.withSpace ports f (a + 1) else a

/-- The slots of RIPE and CONFIRMED records of a channel with a lower SEQ. -/
def State.lowerSlots (s : State) (ch seq : Nat) : List Nat :=
  (s.recs.filter (fun r => r.ch == ch && decide (r.seq < seq) && (r.st == .ripe || r.st == .confirmed))).map (·.target)

/-- The target slot of R301 at this moment. -/
def State.targetFor (s : State) (r : Rec) : Nat :=
  let want := fld r.body 7 6 % 2 ^ 46
  let a := if s.ph.inTime want then want else max (want + 1) s.ph.firstInTime
  let a := (s.lowerSlots r.ch r.seq).foldl (fun a b => max a (b + 1)) a
  s.withSpace r.ports (s.recs.length + 1) a

/-- NO_ROLL of a record. -/
def Rec.noRoll (r : Rec) : Bool := bit (at8 r.body 0) 0

/-- The slot a record asks for. -/
def Rec.want (r : Rec) : Nat := fld r.body 7 6 % 2 ^ 46

/-- Whether a target slot begins at or after EXPIRY:0x0000 (R303). -/
def Rec.expired (r : Rec) (a : Nat) : Bool := decide (fld r.body 13 5 * 64 ≤ a)

/-- Step 13 of Table 08-3 (R302, R303). -/
def Rec.slotChecks (r : Rec) (a : Nat) : List (Bool × Status × Nat) :=
  [(a != r.want && r.noRoll, .tooLate, 0x0082), (r.expired a, .notFresh, 0x0080)]

/-- ROLLS of Table 08-2. -/
def Rec.rollCount (r : Rec) : Nat := sat 8 (r.target - (if r.arrSlot < r.want then r.want else r.arrSlot + 1))

/-- The reply payload of Table 08-2. -/
def Rec.reply (r : Rec) : List Byte :=
  [byte r.ch] ++ be 5 r.seq ++ be 6 r.target ++ [byte r.rollCount] ++ zeros 3

/-! ### Frame tables (Tables 08-7, 08-8) -/

/-- A step word's fields. -/
def stepOp (w : Word) : Nat := w.toNat / 2 ^ 36
def stepDst (w : Word) : Nat := w.toNat / 2 ^ 31 % 32
def stepLen (w : Word) : Nat := w.toNat / 2 ^ 25 % 64
def stepSrc (w : Word) : Nat := w.toNat / 2 ^ 20 % 32
def stepRes (w : Word) : Nat := w.toNat / 2 ^ 16 % 16
def stepImm (w : Word) : Nat := w.toNat % 2 ^ 16

/-- Output bytes with `bs` placed from `dst` on. -/
def place (out : List Byte) (dst : Nat) (bs : List Byte) : List Byte :=
  bs.zipIdx.foldl (fun o (b, i) => o.set (dst + i) b) out

/-- One step on the output and the framed length (R310, R311). -/
def frameStep (pt hdr : List Byte) (a : List Byte × Nat) (w : Word) : List Byte × Nat :=
  let (out, n) := a
  let dst := stepDst w
  let len := stepLen w
  let src := stepSrc w
  let imm := stepImm w
  let idx := List.range len
  if stepOp w = 1 then (place out dst (idx.map fun _ => byte imm), n)
  else if stepOp w = 2 then (place out dst (idx.map fun i => pt.getD (src + i) 0#8), n)
  else if stepOp w = 3 then (place out dst (idx.map fun i => hdr.getD (src + i) 0#8), n)
  else if stepOp w = 4 then (place out dst (idx.map fun i => out.getD (dst + i) 0#8 ^^^ byte imm), n)
  else if stepOp w = 5 then (place out dst (idx.map fun i => out.getD (dst + i) 0#8 &&& byte imm), n)
  else if stepOp w = 6 then (place out dst [crc8 (byte imm) (byte (imm / 256)) (slice out src len)], n)
  else if stepOp w = 7 then (place out dst (be 2 (crc16 (BitVec.ofNat 16 imm) (slice out src len)).toNat), n)
  else if stepOp w = 8 then (out, len)
  else (out, n)

/-- A frame table run over plaintext and payload bytes 0-17: output and framed data length. -/
def runFrame (table : List Word) (pt hdr : List Byte) : List Byte × Nat := table.foldl (frameStep pt hdr) (zeros 32, 0)

/-- Whether a step passes the check of R313. -/
def stepOk (w : Word) : Bool :=
  let op := stepOp w
  let len := stepLen w
  let src := stepSrc w
  decide (op ≤ 8) && stepRes w == 0 && decide (1 ≤ len) && decide (stepDst w + len ≤ 32)
    && (op != 2 || decide (src + len ≤ 32)) && (op != 3 || decide (src + len ≤ 18))
    && ((op != 6 && op != 7) || decide (src + len ≤ 32)) && (op != 7 || decide (stepDst w ≤ 30))

/-! ### FIELD.COMMAND -/

/-- LOAD of FCFLAGS: the load form (R312). -/
def isLoad (body : List Byte) : Bool := bit (at8 body 0) 7

/-- The key bits that MODE asks for. -/
def modeBits (mode : Nat) : Nat := if mode = 1 || mode = 3 then 128 else if mode = 2 || mode = 4 then 256 else 0

/-- Whether a key fits a channel (R289). -/
def Key.fits (k : Key) (ch mode : Nat) : Bool :=
  k.attr.type == 1 && bit k.attr.usage uDecrypt && bit k.attr.flags 2 && k.attr.channel == ch
    && k.attr.size == modeBits mode

/-- Step 7 of Table 08-3 on an entry. -/
def State.fieldKeyChecks (s : State) (rq : Rq) (ch : Nat) (e : List Byte) : List (Bool × Status × Nat) :=
  match s.keyFor (entrySlice e) (entryKey e) with
  | none => [(true, .noKey, 0)]
  | some k => [(s.doomed rq (entryKey e), .noKey, 0), (s.orphaned k, .keyOrphaned, 0),
      (entryFlags e / 2 % 4 == 0 || !k.fits ch (entryMode e), .policy, 0x008A)]

/-- Step 9: queue space (R314). -/
def State.queueFull (s : State) (ch : Nat) : Bool :=
  decide (8192 ≤ s.recs.length) ||
    decide (64 ≤ (s.recs.filter (fun r => r.ch == ch && r.st != .offered)).length)

/-- Whether an invalidation in flight covers a channel (R216). -/
def Live.invalidates (ch : Nat) (l : Live) : Bool :=
  match l.job with
  | .invalidate first count => decide (first ≤ ch) && decide (ch < first + count)
  | _ => false

/-- The first word of the frame table that an entry names (R309). -/
def State.tableAt (s : State) (e : List Byte) : Nat :=
  match s.area (entrySlice e) (entryArea e) with
  | none => 0
  | some p => p.base + entryOffset e

/-- After step 9: the GREEN record is allocated and a lane chosen (R293, R398); without a lane in service the record
turns WINDFALL at once (R417). -/
def stageRecord (rq : Rq) (e : List Byte) (n : Nat) (s : State) : Act :=
  let ch := at8 rq.body 1
  let seq := fld rq.body 2 5
  match s.pickFirst with
  | none => .refuse s .fault 0x00BA
  | some l =>
    let r : Rec :=
      { ch := ch, seq := seq, slice := n, st := .green, body := rq.body, entry := e, arrC := rq.c
        arrSlot := rq.c * 64 + rq.phi / 1024, passed := false, target := 0, rolls := 0, data := [], len := 0
        table := s.tableAt e, lane := l, lane2 := l, delay := 0 }
    .park (.record ch seq) ({ s with recs := s.recs ++ [r] }.startWork l (.first ch seq))

/-- Steps 6 to 9 of Table 08-3, once the entry in force is known. A double-bit error in the cached key clears its entry, and the
command waits for the reload (R358). DESIGN CHOICE (log entry 149): a command uses the cached binding entry, for the order in
which entries leave the cache, when its record is staged. -/
def fieldWithEntry (rq : Rq) (e : List Byte) (n : Nat) (s : State) : Act :=
  let ch := at8 rq.body 1
  let seq := fld rq.body 2 5
  Act.guard s ((entrySlice e != n, .spoof, 0x0088) :: s.fieldKeyChecks rq ch e)
    (if entryKey e ∉ s.ks.cache then .park (.held (.key (entryKey e))) s
     else if entryKey e ∈ rq.x.keyErrs then .park (.held (.key (entryKey e))) (s.dropCache (entryKey e))
     else if s.recs.any (fun r => r.ch == ch && r.seq == seq && r.st == .green) then .park (.held (.sameSeq ch seq)) s
     else
       Act.guard s
         [(((s.chan ch).duplicate seq).isSome, .duplicate, ((s.chan ch).duplicate seq).getD 0),
          (s.queueFull ch, .busy, 0x0087)]
         (stageRecord rq e n ((s.touchKey (entryKey e)).touchEntry ch)))

/-- FIELD.COMMAND, command form (Table 08-3). -/
def doFieldCommand (rq : Rq) (s : State) : Act :=
  let b := rq.body
  let ch := at8 b 1
  let push := match rq.route with
    | .push _ _ => true
    | _ => false
  Act.guard s
    ([(b.length < 35 || 66 < b.length || (push && 48 < b.length), .length, 0x0089)] ++ s.needStamp ++ s.needRandom ++
      [(at8 b 0 / 2 != 0 || at8 b 7 / 64 != 0, .unsupported, 0)])
    (if s.live.any (Live.invalidates ch) then .park (.held (.invalidate ch)) s
     else
       Act.guard s [(s.table.isNone, .policy, 0x005A), ((s.chan ch).suspended, .tableStale, 0)]
         (match s.entryOf ch with
          | none => .park (.held (.binding ch)) s
          | some e => Act.guard s [(!s.usable e, .policy, 0x0059)] (fieldWithEntry rq e (rq.route.tenant.getD 64) s)))

/-- Words of a reference. -/
def State.wmWords (s : State) (r : Ref) : List Word := s.wmRange r.addr r.words

/-- Whether a reference lies in the data region of a slice. -/
def State.inData (s : State) (n : Nat) (r : Ref) : Bool :=
  match (s.slc n).run with
  | none => false
  | some run => decide (run.data.base ≤ r.addr) && decide (r.addr + r.words ≤ run.data.base + run.data.len)

/-- Whether the sequencer still runs a frame table of an area, for a first computation or a recomputation: a load into the
area waits (Table 05-6). -/
def State.areaRuns (s : State) (n a : Nat) : Bool :=
  s.recs.any (fun r => entrySlice r.entry == n && entryArea r.entry == a
    && ((r.st == .green && !r.passed) || r.st == .ripe))

/-! ### Operands in working memory (Tables 05-6, 12-2) -/

/-- The references of a BN command (Table 12-2), the last one its output. -/
def bnRefs (o : Op) (b : List Byte) : List Ref :=
  (List.range (if o == .bnModmul || o == .bnModexp then 4 else 3)).map (fun i => refAt b (6 * i))

/-- The reference that a BN command writes. -/
def bnOut (o : Op) (b : List Byte) : Ref := (bnRefs o b).getLastD ⟨0, 0⟩

/-- The references that a BN command reads. -/
def bnReads (o : Op) (b : List Byte) : List Ref := if o == .bnMac then bnRefs o b else (bnRefs o b).dropLast

/-- Whether two references overlap. -/
def Ref.overlaps (p q : Ref) : Bool := decide (p.addr < q.addr + q.words) && decide (q.addr < p.addr + p.words)

/-- The BN commands. -/
def Op.isBn (o : Op) : Bool := o == .bnMac || o == .bnMul || o == .bnModmul || o == .bnModinv || o == .bnModexp

/-- Whether a request is a frame-table load. -/
def Rq.loads (rq : Rq) : Bool := rq.op == .fieldCommand && isLoad rq.body

/-- What a request reads in working memory. -/
def Rq.reads (rq : Rq) : List Ref :=
  if rq.op.isBn then bnReads rq.op rq.body else if rq.loads then [refAt rq.body 6] else []

/-- What a request writes in working memory. -/
def State.writes (s : State) (rq : Rq) : List Ref :=
  if rq.op.isBn then [bnOut rq.op rq.body]
  else if rq.loads then
    match s.area (rq.route.tenant.getD 64) (at8 rq.body 1) with
    | none => []
    | some p => [⟨p.base + fld rq.body 2 2, at8 rq.body 4⟩]
  else []

/-- Whether a request in flight has still to use its operands in working memory. -/
def Live.unsettled (l : Live) : Bool :=
  match l.job with
  | .held _ | .mult _ _ _ _ _ => true
  | _ => false

/-- Whether a request must wait for an earlier one of its context: one that writes a range that this one reads or writes (R192).
DESIGN CHOICE (log entry 150): one that reads a range which this one writes as well. -/
def State.mustWait (s : State) (rq : Rq) : Bool :=
  s.live.any (fun l => l.before rq && l.unsettled &&
    ((s.writes l.rq).any (fun w => (rq.reads ++ s.writes rq).any w.overlaps) ||
      l.rq.reads.any (fun r => (s.writes rq).any r.overlaps)))

/-- FIELD.COMMAND, load form (R312, R313). -/
def doFieldLoad (rq : Rq) (s : State) : Act :=
  let b := rq.body
  let n := rq.route.tenant.getD 64
  let steps := at8 b 4
  let off := fld b 2 2
  let r := refAt b 6
  Act.guard s
    [(b.length != 12, .length, 0x0089),
     (at8 b 0 != 0x80 || !zeroAt b 5 1 || refReserved b 6, .unsupported, 0),
     (steps < 1 || 128 < steps || r.badSize || r.words != steps, .length, 0)]
    (if !s.holdsAll n .r r then .refuse (s.wmAccess rq.route.origin ⟨.command, n, .r, r⟩) .access 0x0040
     else if !s.inData n r then .refuse s .policy 0x008B
     else if s.mustWait rq then .park (.held (.operands n)) s
     else
       match (s.meet rq.x.bad [r]).badWord r with
       | some a => .refuse ((s.meet rq.x.bad [r]).wmEcc rq.route.origin .command a) .fault 0x0042
       | none =>
         let ws := s.wmWords r
         match s.area n (at8 b 1) with
         | none => .refuse s .policy 0x008B
         | some p =>
           if s.areaRuns n (at8 b 1) then .park (.held (.operands n)) s
           else Act.guard s
             [(decide (p.len < off + steps) || !ws.all stepOk || !ws.any (fun w => stepOp w == 8), .policy, 0x008B)]
             (.done .ok 0 [] (s.wmWriteAll (p.base + off) ws)))

def execFieldCommand (v : Via) (x : Ext) (s : State) : Host.Outcome State Fault Refusal :=
  .next (s.request v x (fun o b => o == .fieldCommand && !isLoad b) doFieldCommand)

def execFieldCommandLoad (v : Via) (x : Ext) (s : State) : Host.Outcome State Fault Refusal :=
  .next (s.request v x (fun o b => o == .fieldCommand && isLoad b) doFieldLoad)

/-! ### The first decision -/

/-- A record of the release queue. -/
def State.record (s : State) (ch seq : Nat) : Option Rec := s.recs.find? (fun r => r.ch == ch && r.seq == seq)

/-- A record put in place of the one of its channel and SEQ. -/
def State.setRecord (s : State) (r : Rec) : State :=
  { s with recs := s.recs.map (fun q => if q.ch = r.ch && q.seq = r.seq then r else q) }

/-- Plaintext and tag check of a record under its channel key (R291). -/
def openField (key : List Byte) (mode : Nat) (b : List Byte) : List Byte × Bool :=
  let n := b.length - 34
  let nonce := [b.getD 1 0#8] ++ zeros 6 ++ slice b 2 5
  let aad := b.take 18
  let ct := slice b 18 n
  let tag := slice b (18 + n) 16
  if mode = 1 || mode = 2 then (gcmCrypt key nonce ct, gcmTag key nonce aad ct 16 == tag)
  else
    let pt := ccmCrypt key nonce 1 ct
    (pt, ccmTag key nonce aad pt 16 == tag)

/-- The words of a record's frame table. -/
def Rec.steps (r : Rec) : Ref := ⟨r.table, entrySteps r.entry⟩

/-- The frame table of a record, as working memory holds it. -/
def State.frameTable (s : State) (r : Rec) : List Word := s.wmWords r.steps

/-- The fetches of a frame table by the sequencer, a step each, at the tenant level of the channel's slice (R174, R179). -/
def Rec.fetches (r : Rec) : List Access := r.steps.addrs.map (fun a => ⟨.sequencer, r.slice, .x, ⟨a, 1⟩⟩)

/-- What stops a frame table before its output: a fetch that the sequencer's access control unit refuses (R189), or a step word
with a double-bit error (R193), among those of `bad` or flagged before; the state with its event, status and DETAIL. -/
def State.tableStop (s : State) (r : Rec) (bad : List Nat) : Option (State × Status × Nat) :=
  match s.refused r.fetches with
  | some a => some (s.wmAccess r.slice a, .access, 0x0041)
  | none =>
    let t := s.meet bad [r.steps]
    match t.badWord r.steps with
    | some a => some (t.wmEcc r.slice .sequencer a, .fault, 0x0042)
    | none => none

/-- A record whose frame table stops: it is discarded with its work, and its command ends. -/
def State.stopRecord (s : State) (r : Rec) (t : State) (st : Status) (d : Nat) : State :=
  (t.noteCause (Live.isRecord r.ch r.seq) s.evr.next).windfall r st d false

/-- Checks 10 to 13 of Table 08-3; `tagOk` is the result of the tag computation. -/
def State.firstChecks (s : State) (r : Rec) (tagOk : Bool) : List (Bool × Status × Nat) :=
  [(!tagOk, .authFail, 0x0086),
   (decide (fld r.body 13 5 ≤ r.arrC), .notFresh, 0x0080),
   (decide (r.arrC + entryLead r.entry < r.want / 64), .notFresh, 0x0081)] ++ r.slotChecks (s.targetFor r)

/-- The end of decryption, framing and tag computation (R293, R294); `bad` holds the words of the frame table in which the run
finds a double-bit error (R193). DESIGN CHOICE (log entry 151): a run in which no LENSET step stands frames no data, which R315
excludes; the record turns WINDFALL with the status that R313 gives such a table. -/
def State.decide1 (s : State) (r : Rec) (bad : List Nat) : State :=
  let s := s.endWork (.first r.ch r.seq)
  match (s.slot (entryKey r.entry)).key with
  | none => s.windfall r .noKey 0 false
  | some k =>
    match s.tableStop r bad with
    | some (t, st, d) => s.stopRecord r t st d
    | none =>
      let (pt, ok) := openField k.secret (entryMode r.entry) r.body
      match firstFail (s.firstChecks r ok) with
      | some (st, d) => s.windfall r st d true
      | none =>
        let (out, len) := runFrame (s.frameTable r) pt (r.body.take 18)
        if len = 0 then s.windfall r .policy 0x008B false
        else s.setRecord { r with passed := true, data := out, len := len }

/-- FIRST_DECISION, before held requests are looked at again: a mismatch ends the record and retires its lane (R318). -/
def State.firstDecision (s : State) (ch seq : Nat) (mismatch : Bool) (bad : List Nat) : State :=
  match s.record ch seq with
  | none => s
  | some r =>
    if r.st != .green || r.passed then s
    else if mismatch then (s.windfall r .fault 0x008D false).laneFault r.lane 2
    else (s.decide1 r bad).schedule

/-! ### Ripening -/

/-- Whether a GREEN record of the channel has a lower SEQ (R308). -/
def State.lowerGreen (s : State) (ch seq : Nat) : Bool :=
  s.recs.any (fun q => q.ch == ch && decide (q.seq < seq) && q.st == .green)

/-- The transition to RIPE (R299-R304, R308): target slot, window, copies of TOP - 1, delay, recomputation. -/
def State.ripen (s : State) (r : Rec) : State :=
  let a := s.targetFor r
  match firstFail (r.slotChecks a) with
  | some (st, d) => s.windfall r st d true
  | none =>
    let c := s.chan r.ch
    let l2 := (s.pickSecond r.lane).getD r.lane
    let s := s.setChan r.ch (Chan.persist c (c.ripen r.seq))
    let s := s.setRecord { r with st := .ripe, target := a, lane2 := l2, delay := s.delay }
    s.drewDelay.startWork l2 (.second r.ch r.seq)

/-- IN_SEQUENCE_COMMIT, before held requests are looked at again. -/
def State.commit (s : State) (ch seq : Nat) : State :=
  match s.record ch seq with
  | none => s
  | some r => if r.st != .green || !r.passed || s.lowerGreen ch seq then s else s.ripen r

/-! ### The second decision -/

/-- CONFIRMED, and the reply is written (R305). -/
def State.confirm (s : State) (r : Rec) : State :=
  let s := (s.endWork (.second r.ch r.seq)).setRecord { r with st := .confirmed }
  (s.finish (Live.isRecord r.ch r.seq) (fun _ s => .done .ok 0 r.reply s)).schedule

/-- A split (R307): WINDFALL, EV_DECISION_SPLIT, TS14; the reply is that of R517. -/
def State.splitRecord (s : State) (r : Rec) : State :=
  let s := s.dropRecord r.ch r.seq
  let toRestart := fun (l : Live) => if l.isRecord r.ch r.seq then { l with job := Job.restart } else l
  { s with live := s.live.map toRestart }.splitDecision 1 r.ch r.slice

/-- SECOND_DECISION (R305, R307, R318), before held requests are looked at again. The recomputation runs the frame table again
(R304), under the same access control and error checks. -/
def State.secondDecision (s : State) (ch seq : Nat) (e : Second) (bad : List Nat) : State :=
  match s.record ch seq with
  | none => s
  | some r =>
    if r.st != .ripe then s
    else
      match e, s.tableStop r bad with
      | .mismatch, _ => (s.windfall r .fault 0x008D false).laneFault r.lane2 2
      | _, some (t, st, d) => (s.stopRecord r t st d).schedule
      | .agree, none => s.confirm r
      | .split, none => s.splitRecord r

/-! ### Slots opening -/

/-- A RIPE record whose target slot opens before its second decision (R306, R303). -/
def State.roll (s : State) (r : Rec) : State :=
  if r.noRoll then s.windfall r .tooLate 0x0083 true
  else
    let a := s.withSpace r.ports (s.recs.length + 1) (r.target + 1)
    let n := s.evr.next
    let s := s.event 0x0602 r.slice ([byte r.ch] ++ be 5 r.seq ++ [byte (sat 8 (r.rolls + 1))])
    let s := s.noteCause (Live.isRecord r.ch r.seq) n
    if r.expired a then s.windfall { r with target := a } .notFresh 0x0080 true
    else s.setRecord { r with target := a, rolls := r.rolls + 1 }

/-- What a slot opening does to one record (Table 08-5). -/
def State.openRecord (a : Nat) (s : State) (r : Rec) : State :=
  if r.st == .confirmed && r.target == a then s.setRecord { r with st := .offered }
  else if r.st == .ripe && r.target == a then s.roll r
  else if r.st == .offered && r.target + 4 == a then s.dropRecord r.ch r.seq
  else s

/-- Slot `a` opens: every record of the queue in order of channel queue and arrival. -/
def State.openSlot (s : State) (a : Nat) : State := s.recs.foldl (State.openRecord a) s

/-- A double-bit error in a record (R319): found by the hardware, with no request as its cause. -/
def State.spoil (s : State) (bad : Option (Nat × Nat)) : State :=
  match bad with
  | none => s
  | some (ch, seq) =>
    match s.record ch seq with
    | none => s
    | some r =>
      (s.event 0x0601 noOrigin ([byte r.ch] ++ be 5 r.seq ++ be 2 Status.fault.code)).windfall r .fault 0x008D false

/-- A double-bit error found outside the execution of a request. In the firmware area, with no command in execution, EV_WM_ECC is
recorded and the word flagged (R193). -/
def State.findEcc (s : State) (e : Option Ecc) : State :=
  match e with
  | none => s
  | some (.record ch seq) => s.spoil (some (ch, seq))
  | some (.firmware a) => if a < 0x4000 then (s.meet [a] [⟨a, 1⟩]).wmEcc noOrigin .command a else s

end Sys2Proof.Machine
end

