-- ==== Sys2Proof/Machine/Key.lean ====
section
/-! DEFINITION. KEY commands, the key cache and the sweeper (chapter 09). -/

namespace Sys2Proof.Machine

/-! ### Key specifications (Tables 09-4, 09-5) -/

/-- TYPEs of Table 09-4. -/
def keyTypes : List Nat := [0x01, 0x02, 0x10, 0x11, 0x20, 0x21, 0x30, 0x31]

/-- Whether a TYPE is a public key. -/
def publicType (t : Nat) : Bool := t == 0x11 || t == 0x21 || t == 0x31

/-- Whether a SIZE is listed for a TYPE (R327). -/
def sizeListed (t size : Nat) : Bool :=
  if t = 0x01 then size == 128 || size == 192 || size == 256
  else if t = 0x02 then decide (112 ≤ size) && decide (size ≤ 1024) && size % 8 == 0
  else if t = 0x10 || t = 0x11 then (namedCurve size).isSome || loadedCurveId size
  else if t = 0x20 || t = 0x21 then decide (2048 ≤ size) && decide (size ≤ 8192) && size % 8 == 0
  else size == 0

/-- Permitted usage of a TYPE (Table 09-4). -/
def usageMask (t : Nat) : Nat :=
  if t = 0x01 then 0x173 else if t = 0x02 then 0x110 else if t = 0x10 then 0x084 else if t = 0x11 then 0x008
  else if t = 0x20 then 0x006 else if t = 0x21 then 0x009 else if t = 0x30 then 0x004 else 0x008

/-- Permitted fault modes of a TYPE (Table 09-4). -/
def faultModes (t : Nat) : List Nat :=
  if t = 0x01 then [1, 2] else if t = 0x02 then [1] else if publicType t then [0] else [3, 4]

/-- Whether every usage bit of a specification is permitted. -/
def usageOk (t u : Nat) : Bool := (List.range 16).all (fun i => !bit u i || bit (usageMask t) i)

/-- The key specification at bytes 4-15 of a payload. -/
structure Spec where
  type  : Nat
  size  : Nat
  usage : Nat
  flags : Nat
  fault : Nat
  chan  : Nat

def specAt (b : List Byte) : Spec := ⟨at8 b 4, fld b 6 2, fld b 8 2, at8 b 10, at8 b 11, at8 b 12⟩

/-- Reserved fields and bits of a specification (R94). -/
def specReserved (b : List Byte) : Bool :=
  !zeroAt b 5 1 || !zeroAt b 13 3 || decide (512 ≤ fld b 8 2) || decide (8 ≤ at8 b 10)

/-- R327, R328, R330 on a specification, and R430 on the curve it names. -/
def State.specChecks (s : State) (owner : Nat) (p : Spec) : List (Bool × Status × Nat) :=
  [(p.type ∉ keyTypes || !sizeListed p.type p.size, .unsupported, 0x009B),
   (p.usage == 0 || !usageOk p.type p.usage || p.fault ∉ faultModes p.type
     || (bit p.flags 2 && (p.type != 1 || p.usage != 2)) || (!bit p.flags 2 && p.chan != 0)
     || (p.type == 0x30 && bit p.flags 0), .policy, 0x0091),
   ((p.type == 0x10 || p.type == 0x11) && (s.curve owner p.size).isNone, .policy, 0x00C8)]

/-! ### Parents and targets -/

/-- Whether a command other than a field command may use a key at all: no channel-bound key (R328), no key whose USAGE is zero
(R331). -/
def Key.usable (k : Key) : Bool := !bit k.attr.flags 2 && k.attr.usage != 0

/-- The checks of a parent (R324, R335, R328, R331, R332). -/
def State.parentChecks (s : State) (rq : Rq) (k : Nat) : List (Bool × Status × Nat) :=
  s.keyChecks rq k Key.usable ++
    [(match s.keyFor rq.owner k with
      | none => false
      | some key => decide (key.attr.level < 1) || decide (4 < key.attr.level), .policy, 0x0094)]

/-- Slots that creating commands in flight have chosen. -/
def State.claimed (s : State) : List (Nat × Nat) :=
  s.live.filterMap (fun l => match l.job with
    | .mult o _ t _ _ => if t = 0 then none else some (t, o)
    | _ => none)

/-- Whether a slot can be filled. -/
def State.free (s : State) (k : Nat) : Bool :=
  (s.slot k).key.isNone && !(s.slot k).retired && s.claimed.all (fun e => e.1 != k)

/-- Slots of an owner's pool: first slot and how many. -/
def pool (owner : Nat) : Nat × Nat := if owner < 64 then (0x100, 16128) else (0x81, 127)

/-- The lowest free slot of a pool. -/
def State.lowestFree (s : State) (owner : Nat) : Option Nat :=
  ((List.range (pool owner).2).map (fun i => (pool owner).1 + i)).find? s.free

/-- Whether a slice has filled its quota (R325). -/
def State.quotaFull (s : State) (owner : Nat) : Bool :=
  decide (owner < 64) &&
    decide ((s.slc owner).quota ≤ s.poolUsed owner + (s.claimed.filter (fun e => e.2 == owner)).length)

/-- Whether TARGET lies in the owner's pool. -/
def inPool (owner t : Nat) : Bool := decide ((pool owner).1 ≤ t) && decide (t < (pool owner).1 + (pool owner).2)

/-- The checks of TARGET (R324, R325, R336, R340). A slot of the pool that another slice filled is answered like every slot
of another owner. -/
def State.targetChecks (s : State) (owner t : Nat) : List (Bool × Status × Nat) :=
  if t = 0 then [(s.quotaFull owner || (s.lowestFree owner).isNone, .noKey, 0x0092)]
  else
    let mine := (s.keyFor owner t).isSome || s.claimed.any (fun e => e.1 == t && e.2 == owner)
    [(mine || (inPool owner t && (s.slot t).retired), .policy, 0x0093),
     (!inPool owner t || !s.free t, .noKey, 0),
     (s.quotaFull owner, .noKey, 0x0092)]

/-- The slot that a creating command fills. -/
def State.target (s : State) (owner t : Nat) : Nat := if t = 0 then (s.lowestFree owner).getD 0 else t

/-- The lane work of a key command: a fault-mode mismatch retires the lane (R415), and the work restarts on another lane; it
ends with ST_FAULT, DETAIL 0x00B8, when that mismatches too or no other lane is in service (R416). -/
def Act.onLane (s : State) (rq : Rq) (k : State → Act) : Act :=
  if rq.x.misses = 0 then k s
  else
    let fail := fun (s : State) => s.laneFault ((s.idleLanes.head?.orElse fun _ => s.pickFirst).getD 0) 2
    let s := fail s
    if !s.laneInService then .refuse s .fault 0x00B8
    else if rq.x.misses = 1 then k s
    else .refuse (fail s) .fault 0x00B8

/-! ### Creating keys -/

/-- Flash writes of a key's record (R341, R352): both copies good, one more write, rewritten now. -/
def Key.stored (k : Key) (c : Nat) : Key := { k with flash := k.flash.write c }

/-- An HSS state at the start of an HSS key: the first bottom tree is built (R439). -/
def Hss.at (next : Nat) : Hss := ⟨next, next, next / 2 ^ 20, false, false⟩

/-- A key record with the attributes of its slot, parent and owner, and its first hop (R334, R376). -/
def State.makeKey (s : State) (owner slot parent : Nat) (p : Spec) (origin : Nat) (secret pub : List Byte)
    (next : Nat) : Key :=
  let par := (s.slot parent).key
  let attr : Attr :=
    { type := p.type, level := ((par.map (·.attr.level)).getD 0) + 1, size := p.size, usage := p.usage, flags := p.flags
      origin := origin, faultMode := p.fault, channel := p.chan, parent := parent, parentGen := (s.slot parent).gen
      gen := (s.slot slot).gen, owner := owner }
  let hop : Hop := ⟨s.ks.deviceId, origin, owner, slot, 0, s.ph.c⟩
  { attr := attr, secret := secret, pub := pub, hops := [hop]
    pflags := b01 (bit p.flags 0) + 4 * b01 (origin == 1)
    gcm := 0, gcmMem := 0, hss := Hss.at next, frozen := false, flash := Flash.init.write s.ph.c }

/-- How many cache entries are not pinned: identity keys and port keys in use are (R339). -/
def State.cacheRoom (s : State) : Nat :=
  1024 - 2 * b01 s.ks.identity - b01 s.vpA.key.isSome - b01 s.vpB.key.isSome

/-- The key cache with a slot loaded: the least recently used entry that nothing uses leaves a full cache (R339). -/
def State.loadCache (s : State) (k : Nat) : Option State :=
  if s.ks.cache.length < s.cacheRoom then some (s.touchKey k)
  else
    match s.ks.cache.find? (fun j => !s.keyBusy j) with
    | none => none
    | some j => some ((s.mapKs (fun v => { v with cache := v.cache.filter (· != j) })).touchKey k)

/-- A key put in its slot; it enters the key cache when there is room (R342). -/
def State.install (s : State) (slot : Nat) (key : Key) : State :=
  let s := s.setSlot slot { s.slot slot with key := some key, lostHss := none }
  (s.loadCache slot).getD s

/-- Whether the key cache can take one more key (R339). -/
def State.cacheReady (s : State) : Bool := decide (s.ks.cache.length < s.cacheRoom) || s.ks.cache.any (fun j => !s.keyBusy j)

/-- The generation of a key, whose material enters the key cache directly (R342): it waits until an entry is released when
every entry is in use (R339), with `j` as what the request is then. -/
def Act.needEntry (s : State) (j : Job) (k : State → Act) : Act := if s.cacheReady then k s else .park j s

/-- The reply of R341. -/
def keyReply (slot : Nat) (key : Key) : List Byte := be 2 slot ++ key.attr.bytes ++ be 2 key.pub.length ++ key.pub

/-- A new key: installed, and the reply of R341. -/
def Act.create (s : State) (slot : Nat) (key : Key) : Act := .done .ok 0 (keyReply slot key) (s.install slot key)

/-! ### Key material -/

/-- Length of one RSA prime in bytes (Table 09-7; log entry 18). -/
def primeLen (size : Nat) : Nat := (size + 15) / 16

/-- The public encoding `n ‖ e` of an RSA key. -/
def rsaPub (size p q e : Nat) : List Byte := be (size / 8) (p * q) ++ be 4 e

/-- The public encoding of a private key's secret (Table 09-7). -/
def State.publicOf (s : State) (owner t size : Nat) (secret : List Byte) : List Byte :=
  if t = 0x10 then
    match s.curve owner size with
    | none => []
    | some c => c.encode (c.mul (fromBe secret) c.gen)
  else if t = 0x20 then
    let n := primeLen size
    rsaPub size (fld secret 4 n) (fld secret (4 + n) n) (fld secret 0 4)
  else if t = 0x30 then hssPub (secret.take 32) (slice secret 32 16)
  else []

/-- Length of the secret encoding (Table 09-7). -/
def State.secretLen (s : State) (owner t size : Nat) : Nat :=
  if t = 0x01 || t = 0x02 then size / 8
  else if t = 0x10 || t = 0x11 then ((s.curve owner size).map Curve.len).getD 0
  else if t = 0x20 || t = 0x21 then 4 + 2 * primeLen size
  else 54

/-- Length of the public encoding (Table 09-7). -/
def State.publicLen (s : State) (owner t size : Nat) : Nat :=
  if t = 0x10 || t = 0x11 then 1 + 2 * ((s.curve owner size).map Curve.len).getD 0
  else if t = 0x20 || t = 0x21 then size / 8 + 4
  else 60

/-- The secret that KEY.GEN draws for a specification, and the state after the draw (R342, R439). -/
def State.generate (s : State) (owner : Nat) (p : Spec) : List Byte × State :=
  if p.type = 0x10 then
    match s.curve owner p.size with
    | none => ([], s)
    | some c => (be c.len (s.drawScalar c.n), s.drewBytes 80)
  else if p.type = 0x20 then
    let (a, b, e) := Config.rsaPrimes p.size s.drawn
    let n := primeLen p.size
    (be 4 e ++ be n a ++ be n b, s.drewBytes (2 * n))
  else if p.type = 0x30 then (s.drawBytes 48, s.drewBytes 48)
  else (s.drawBytes (p.size / 8), s.drewBytes (p.size / 8))

/-- Point checks of Table 12-10 on a public encoding. -/
def Curve.pointChecks (c : Curve) (bs : List Byte) : List (Bool × Status × Nat) :=
  let lead := at8 bs 0
  let x := fld bs 1 c.len
  let y := fld bs (1 + c.len) c.len
  [(lead == 2 || lead == 3, .unsupported, 0x00C9),
   (bs.all (· == 0#8), .pointZero, 0),
   (lead != 4, .notOnCurve, 0),
   (decide (c.p ≤ x) || decide (c.p ≤ y), .range, 0x00C0),
   (!c.on x y, .notOnCurve, 0)]

/-- Scalar check of Table 12-10 on a secret encoding. -/
def State.scalarChecks (s : State) (owner t size : Nat) (secret : List Byte) : List (Bool × Status × Nat) :=
  if t = 0x10 then
    match s.curve owner size with
    | none => []
    | some c => [(fromBe secret == 0 || decide (c.n ≤ fromBe secret), .scalarRange, 0)]
  else []

/-- NEXT of an HSS secret encoding, the start of a block (R367). DESIGN CHOICE (log entry 141): an encoding from outside whose
NEXT is no multiple of 1,024 counts from the next one, and one beyond the last leaf as that of a spent key. -/
def nextOf (t : Nat) (secret : List Byte) : Nat :=
  if t = 0x30 then min ((fld secret 48 6 + 1023) / 1024 * 1024) hssLeaves else 0

/-- The part of an HSS secret encoding that a record keeps apart from its state. -/
def secretOf (t : Nat) (secret : List Byte) : List Byte := if t = 0x30 then secret.take 48 else secret

/-! ### KEY.GEN -/

/-- KEY.GEN (R342). Keys of EC and RSA types are generated on the multiplier (R442). -/
def doKeyGen (rq : Rq) (s : State) : Act :=
  let b := rq.body
  let p := specAt b
  let parent := fld b 0 2
  let t := fld b 2 2
  Act.guard s
    (needLength rq 16 ++ s.needStamp ++ s.needRandom ++ [(specReserved b, .unsupported, 0)] ++
      s.specChecks rq.owner p ++ [(publicType p.type, .policy, 0x0091)] ++ s.parentChecks rq parent ++
      s.targetChecks rq.owner t)
    (.twice s rq 4 0 (fun s =>
      let slot := s.target rq.owner t
      if p.type = 0x10 || p.type = 0x20 then
        .park (.mult rq.owner 0 slot [] []) (s.mapMult (fun m => { m with gated := false }))
      else
        .needEntry s (.held .entry) (fun s =>
          let (secret, s') := s.generate rq.owner p
          .create s' slot (s.makeKey rq.owner slot parent p 0 secret (s.publicOf rq.owner p.type p.size secret) 0))))

/-- The end of a KEY.GEN on the multiplier. -/
def endKeyGen (rq : Rq) (slot : Nat) (s : State) : Act :=
  let p := specAt rq.body
  .needEntry s (.mult rq.owner 0 slot [] []) (fun s =>
    let (secret, s') := s.generate rq.owner p
    let key := s.makeKey rq.owner slot (fld rq.body 0 2) p 0 secret (s.publicOf rq.owner p.type p.size secret) 0
    let s' := if key.unapproved then s'.unapproved rq.route.origin else s'
    .create s' slot key)

/-! ### KEY.IMPORT -/

/-- The checks of KEY.IMPORT before it reads DATA (R343 steps 1 and 2). -/
def State.importChecks (s : State) (rq : Rq) : List (Bool × Status × Nat) :=
  let b := rq.body
  let p := specAt b
  let clear := fld b 16 2 == 0xFFFF
  let len := fld b 28 4
  [(clear && !publicType p.type, .policy, 0x0099), (!clear && publicType p.type, .policy, 0x0091)] ++
    s.parentChecks rq (fld b 0 2) ++
    (if clear then [] else s.needLane ++
      s.keyChecks rq (fld b 16 2) (fun k => k.attr.type == 1 && k.may uUnwrap)) ++
    s.targetChecks rq.owner (fld b 2 2) ++
    [(descAbsent b 20, .length, 0x009C)] ++ s.needDesc rq 20 1 ++
    [(decide (4096 < len) || (clear && len != s.publicLen rq.owner p.type p.size), .length, 0x009C)]

/-- An imported key installed. -/
def State.importKey (s : State) (rq : Rq) (secret pub : List Byte) : Act :=
  let p := specAt rq.body
  let slot := s.target rq.owner (fld rq.body 2 2)
  let key := s.makeKey rq.owner slot (fld rq.body 0 2) p 1 (secretOf p.type secret) pub (nextOf p.type secret)
  .create (if key.unapproved then s.unapproved rq.route.origin else s) slot key

/-- KEY.IMPORT of a public key in clear (R343, Table 12-10). -/
def importClear (rq : Rq) (data : List Byte) (s : State) : Act :=
  let p := specAt rq.body
  let checks := if p.type = 0x11 then (match s.curve rq.owner p.size with
    | none => []
    | some c => c.pointChecks data) else []
  Act.guard s checks (s.importKey rq [] data)

/-- KEY.IMPORT of a wrapped key (R343 steps 3 and 4, Table 12-10). -/
def importWrapped (rq : Rq) (k : Key) (data : List Byte) (s : State) : Act :=
  let p := specAt rq.body
  match kwpOpen k.secret data with
  | none => .refuse s .authFail 0x0097
  | some secret =>
    Act.guard s
      ((secret.length != s.secretLen rq.owner p.type p.size, .length, 0x009C) ::
        s.scalarChecks rq.owner p.type p.size secret)
      (s.importKey rq secret (s.publicOf rq.owner p.type p.size secret))

/-- KEY.IMPORT (R343). -/
def doKeyImport (rq : Rq) (s : State) : Act :=
  let b := rq.body
  let u := fld b 16 2
  Act.guard s
    (needLength rq 36 ++ s.needStamp ++ s.needRandom ++ [(specReserved b || !zeroAt b 18 2, .unsupported, 0)] ++
      s.specChecks rq.owner (specAt b) ++ s.importChecks rq)
    (if u = 0xFFFF then
      .withInput s rq 0 (descAt b 20) (fun data s => .twice s rq 4 0 (importClear rq data))
     else
      .withKey s rq u (fun k s =>
        .withInput s rq 0 (descAt b 20) (fun data s =>
          .onLane s rq (fun s => .twice s rq 4 0 (importWrapped rq k data)))))

/-! ### KEY.DERIVE -/

/-- The PRF of R344 under a key: CMAC or HMAC, with its output length. -/
def prfOf (key : List Byte) (prf : Nat) : (List Byte → List Byte) × Nat :=
  if prf = 0 then (cmac key, 16)
  else
    let h := if prf = 1 then Hash.sha256 else if prf = 2 then Hash.sha384 else Hash.sha512
    (hmac h key, h.len)

/-- Whether a PRF fits a source (R344). -/
def prfFits (t prf : Nat) : Bool := (t == 1 && prf == 0) || (t == 2 && decide (1 ≤ prf) && decide (prf ≤ 3))

/-- The PRF of a KEY.DERIVE: CMAC runs on a lane (R417), HMAC in the hash units. -/
def Act.derive (s : State) (rq : Rq) (prf : Nat) (k : State → Act) : Act := if prf = 0 then .onLane s rq k else .onHash s rq k

/-- KEY.DERIVE (R344). -/
def doKeyDerive (rq : Rq) (s : State) : Act :=
  let b := rq.body
  let p := specAt b
  let src := fld b 0 2
  let prf := at8 b 16
  let ll := at8 b 17
  let cl := at8 b 18
  let st := ((s.keyFor rq.owner src).map (·.attr.type)).getD 0
  Act.guard s
    ([(decide (b.length < 20) || decide (ll < 1) || decide (64 < ll) || decide (128 < cl) || b.length != 20 + ll + cl,
        .length, 0)] ++ s.needStamp ++ s.needRandom ++
      [(specReserved b || !zeroAt b 19 1, .unsupported, 0),
       (p.type ∈ keyTypes && p.type != 1 && p.type != 2, .policy, 0x0091)] ++
      s.specChecks rq.owner p ++ s.keyChecks rq src (fun k => k.may uDerive) ++ s.parentChecks rq src ++
      [(!prfFits st prf, .policy, 0x0091)] ++ (if prf = 0 then s.needLane else []) ++
      s.targetChecks rq.owner (fld b 2 2))
    (.withKey s rq src (fun k s => .derive s rq prf (fun s => .twice s rq 4 0 (fun s =>
      let (f, n) := prfOf k.secret prf
      let secret := kdf f n (slice b 20 ll) (slice b (20 + ll) cl) p.size
      let slot := s.target rq.owner (fld b 2 2)
      .create s slot (s.makeKey rq.owner slot src p 2 secret [] 0)))))

/-! ### KEY.WRAP and KEY.UNWRAP -/

/-- The curve parameter block of a loaded curve (Table 12-5), empty for every other key (R432). -/
def State.curveBlock (s : State) (owner t size : Nat) : List Byte :=
  if (t = 0x10 || t = 0x11) && loadedCurveId size then
    match s.curve owner size with
    | none => []
    | some c =>
      [byte c.len, byte c.h] ++ zeros 2 ++ be c.len c.p ++ be c.len c.a ++ be c.len c.b ++ be c.len c.gx
        ++ be c.len c.gy ++ be c.len c.n
  else []

/-- The material that a wrap carries: the parameters of a loaded curve, then the secret encoding; for a public type, whose
record holds no secret, the public encoding (log entry 19). -/
def State.material (s : State) (k : Key) : List Byte :=
  s.curveBlock k.attr.owner k.attr.type k.attr.size ++ (if publicType k.attr.type then k.pub else k.secretEnc)

/-- Attributes as a wrap blob of TYPE 0x0901 carries them (Table 09-8). -/
def Attr.blob (a : Attr) : Attr := { a with parent := 0, parentGen := 0, gen := 0, owner := 0 }

/-- Length of KWP output over `m` bytes (Table 09-8). -/
def kwpLen (m : Nat) : Nat := (m + 7) / 8 * 8 + 8

/-- The blob key of R346 for a salt and a header. -/
def blobKey (wrapper salt header : List Byte) : List Byte :=
  kdf (cmac wrapper) 16 (ascii "D256-WRAP") (salt ++ sha256 header) 256

/-- A wrap blob or transfer record (Table 09-8). -/
def wrapBlob (type : Nat) (wrapper : List Byte) (attr : Attr) (ext salt plain : List Byte) : List Byte :=
  let header := be 2 type ++ be 2 (42 + ext.length + kwpLen plain.length) ++ attr.bytes ++ be 2 ext.length ++ ext
  header ++ salt ++ kwpProtect (blobKey wrapper salt header) plain

/-- The plaintext of a blob at its place, when it opens (R346). -/
def openBlob (wrapper blob : List Byte) : Option (List Byte) :=
  let n := fld blob 24 2
  kwpOpen (blobKey wrapper (slice blob (26 + n) 16) (blob.take (26 + n))) (blob.drop (42 + n))

/-- KEY.WRAP (R345). -/
def doKeyWrap (rq : Rq) (s : State) : Act :=
  let b := rq.body
  let w := fld b 0 2
  let j := fld b 2 2
  let len := match s.keyFor rq.owner j with
    | none => 0
    | some k => 42 + kwpLen (s.material k).length
  Act.guard s
    (needLength rq 24 ++ s.needRandom ++ s.needLane ++ needZero rq 4 4 ++
      s.keyChecks rq w (fun k => k.attr.type == 1 && k.may uWrap) ++
      s.keyChecks rq j Key.usable ++
      [(match s.keyFor rq.owner j with
        | none => false
        | some k => !bit k.attr.flags 0, .policy, 0x0096)] ++ s.needDesc rq 8 2)
    (if (descAt b 8).len < len then .done .length 0x0095 (be 4 len) s
     else
      .withKey s rq w (fun wk s => .withKey s rq j (fun k s => .onLane s rq (fun s => .twice s rq 4 0 (fun s =>
        let s := s.drewDelay
        let salt := s.drawBytes 16
        let blob := wrapBlob 0x0901 wk.secret k.attr.blob [] salt (s.material k)
        let k' := { k with pflags := setBit k.pflags 1 true }.stored s.ph.c
        .withOutput (s.drewBytes 16) rq (descAt b 8) blob 4 (fun s =>
          .done .ok 0 (be 4 len) (s.setSlot j { s.slot j with key := some k' })))))))

/-- A curve loaded for an owner under R430: the identifier it has or takes, or the refusal. -/
inductive Loaded where
  | held (id : Nat)
  | new (id : Nat) (c : Curve)
  | refuse (st : Status) (detail : Nat)

/-- First identifier of an owner's loaded curves (Table 12-4). -/
def curveBase (owner : Nat) : Nat := if owner < 64 then 0x100 + 4 * owner else 0x200

/-- R430 and R431 on a parameter block. -/
def State.tryCurve (s : State) (owner : Nat) (blk : List Byte) : Loaded :=
  let n := at8 blk 0
  let f := fun i => fld blk (4 + n * i) n
  let c : Curve := ⟨f 0, f 1, f 2, f 3, f 4, f 5, at8 blk 1⟩
  let ids := (List.range 4).map (fun i => curveBase owner + i)
  match ids.find? (fun i => s.ks.curves.get none i == some c) with
  | some i => .held i
  | none =>
    match c.reject n with
    | some d => .refuse .curveRejected d
    | none =>
      match ids.find? (fun i => (s.ks.curves.get none i).isNone) with
      | none => .refuse .policy 0x00C7
      | some i => .new i c

/-- A loaded curve recorded. -/
def State.setCurve (s : State) (id : Nat) (c : Curve) : State :=
  s.mapKs (fun k => { k with curves := k.curves.put none id (some c) })

/-- Whether the attributes of a blob are a combination that a key may have (R327, R328, R330). DESIGN CHOICE (log entry 142):
such a blob is answered as an invalid specification, and an HSS private key, whose state moves only with a transfer package, never
enters by KEY.UNWRAP. -/
def blobChecks (a : Attr) : List (Bool × Status × Nat) :=
  [(a.type ∉ keyTypes || !sizeListed a.type a.size, .unsupported, 0x009B),
   (!usageOk a.type a.usage || a.faultMode ∉ faultModes a.type || decide (8 ≤ a.flags)
     || (bit a.flags 2 && (a.type != 1 || (a.usage != 0 && a.usage != 2))) || (!bit a.flags 2 && a.channel != 0)
     || a.type == 0x30, .policy, 0x0091)]

/-- The end of a KEY.UNWRAP once the curve of the key is known: `t` is the state with that curve loaded. A refusal leaves the
state without it (R98). -/
def unwrapInto (rq : Rq) (a : Attr) (plain : List Byte) (t s : State) : Act :=
  let b := rq.body
  let p : Spec := ⟨a.type, a.size, a.usage &&& fld b 6 2, a.flags, a.faultMode, a.channel⟩
  let want := if publicType a.type then t.publicLen rq.owner a.type a.size else t.secretLen rq.owner a.type a.size
  Act.guard s
    ((plain.length != want, .length, 0x009C) ::
      (if a.type = 0x11 then (match t.curve rq.owner a.size with
        | none => []
        | some c => c.pointChecks plain) else t.scalarChecks rq.owner a.type a.size plain))
    (let slot := t.target rq.owner (fld b 4 2)
     let pub := if publicType a.type then plain else t.publicOf rq.owner a.type a.size plain
     let secret := if publicType a.type then [] else secretOf a.type plain
     let key := t.makeKey rq.owner slot (fld b 2 2) p 1 secret pub (nextOf a.type plain)
     .create (if key.unapproved then t.unapproved rq.route.origin else t) slot key)

/-- KEY.UNWRAP of a blob that was read (R348, R432). -/
def unwrapBlob (rq : Rq) (k : Key) (blob : List Byte) (s : State) : Act :=
  let a := attrAt blob 4
  Act.guard s
    [(fld blob 0 2 != 0x0901, .unsupported, 0),
     (decide (blob.length < 58) || fld blob 2 2 != blob.length || fld blob 24 2 != 0, .length, 0)]
    (match openBlob k.secret blob with
     | none => .refuse s .authFail 0x0097
     | some plain =>
       Act.guard s (blobChecks a)
         (if (a.type = 0x10 || a.type = 0x11) && loadedCurveId a.size then
            let n := 4 + 6 * at8 plain 0
            match s.tryCurve rq.owner (plain.take n) with
            | .refuse st d => .refuse s st d
            | .held i => unwrapInto rq { a with size := i } (plain.drop n) s s
            | .new i c => unwrapInto rq { a with size := i } (plain.drop n) (s.setCurve i c) s
          else unwrapInto rq a plain s s))

/-- KEY.UNWRAP (R348). -/
def doKeyUnwrap (rq : Rq) (s : State) : Act :=
  let b := rq.body
  let u := fld b 0 2
  Act.guard s
    (needLength rq 24 ++ s.needStamp ++ s.needRandom ++ s.needLane ++
      s.keyChecks rq u (fun k => k.attr.type == 1 && k.may uUnwrap) ++ s.parentChecks rq (fld b 2 2) ++
      s.targetChecks rq.owner (fld b 4 2) ++ s.needDesc rq 8 1 ++
      [(decide (4096 < (descAt b 8).len), .length, 0)])
    (.withKey s rq u (fun k s =>
      .withInput s rq 0 (descAt b 8) (fun blob s => .onLane s rq (fun s => .twice s rq 4 0 (unwrapBlob rq k blob)))))

/-! ### KEY.DESTROY and KEY.ATTR -/

/-- Whether a key is a slice root or the manager root (R333). -/
def Key.isRoot (k : Key) : Bool := k.attr.level == 1

/-- KEY.DESTROY (R349, R356). -/
def doKeyDestroy (rq : Rq) (s : State) : Act :=
  let k := fld rq.body 0 2
  Act.guard s
    (needLength rq 2 ++
      (match s.keyFor rq.owner k with
       | none => [(true, .noKey, 0)]
       | some key => [(s.doomed rq k, .noKey, 0), (key.frozen, .emigrating, 0), (key.isRoot, .policy, 0x0098)]))
    (.park (.keyDestroy k) s)

/-- KEY_DESTROY_COMPLETE (R349, R356): once nothing uses the key. A slot that the sweeper has freed meanwhile is not freed
again (R334): no key is orphaned then. -/
def execKeyDestroyComplete (k : Nat) (s : State) : Host.Outcome State Fault Refusal :=
  .next (if s.keyBusy k then s
    else s.finish (fun l => l.job == .keyDestroy k) (fun l s =>
      if (s.slot k).key.isNone then .done .ok 0 (be 2 0) s
      else .done .ok 0 (be 2 (s.newOrphans k)) (s.freeSlot k l.rq.route.origin)))

/-- KEY.ATTR (R331, R350). -/
def doKeyAttr (rq : Rq) (s : State) : Act :=
  let b := rq.body
  let j := fld b 0 2
  let cu := fld b 2 2
  let sf := at8 b 4
  let cf := at8 b 5
  Act.guard s
    (needLength rq 8 ++ needZero rq 6 2 ++
      [(decide (512 ≤ cu) || (sf != 0 && sf != 2) || decide (1 < cf), .unsupported, 0)])
    (match s.keyFor rq.owner j with
     | none => .refuse s .noKey 0
     | some k =>
       Act.guard s
         [(s.doomed rq j, .noKey, 0), (k.frozen, .emigrating, 0),
          (k.isRoot && (cu != 0 || sf != 0 || cf != 0), .policy, 0x0098)]
         (let a := { k.attr with
            usage := k.attr.usage - (k.attr.usage &&& cu)
            flags := (k.attr.flags ||| sf) - (k.attr.flags &&& cf) }
          let changed := decide (a ≠ k.attr)
          let k' := if changed then { k with attr := a }.stored s.ph.c else k
          .done .ok 0 (a.bytes ++ [byte (b01 (s.orphaned k))] ++ be 2 k.pub.length ++ k.pub)
            (s.setSlot j { s.slot j with key := some k' })))

def execKeyGen (v : Via) (x : Ext) (s : State) : Host.Outcome State Fault Refusal :=
  .next (s.request v x (fun o _ => o == .keyGen) doKeyGen)

def execKeyImport (v : Via) (x : Ext) (s : State) : Host.Outcome State Fault Refusal :=
  .next (s.request v x (fun o _ => o == .keyImport) doKeyImport)

def execKeyDerive (v : Via) (x : Ext) (s : State) : Host.Outcome State Fault Refusal :=
  .next (s.request v x (fun o _ => o == .keyDerive) doKeyDerive)

def execKeyWrap (v : Via) (x : Ext) (s : State) : Host.Outcome State Fault Refusal :=
  .next (s.request v x (fun o _ => o == .keyWrap) doKeyWrap)

def execKeyUnwrap (v : Via) (x : Ext) (s : State) : Host.Outcome State Fault Refusal :=
  .next (s.request v x (fun o _ => o == .keyUnwrap) doKeyUnwrap)

def execKeyDestroy (v : Via) (x : Ext) (s : State) : Host.Outcome State Fault Refusal :=
  .next (s.request v x (fun o _ => o == .keyDestroy) doKeyDestroy)

def execKeyAttr (v : Via) (x : Ext) (s : State) : Host.Outcome State Fault Refusal :=
  .next (s.request v x (fun o _ => o == .keyAttr) doKeyAttr)

/-! ### Flash records (R326, R352) -/

/-- The attribute block of a key in a device-reserved slot (R326, Table 09-2): OWNER 0xFE. DESIGN CHOICE (log entry 139): the
fields that the spec does not state of these keys. -/
def State.deviceAttr (s : State) (k : Nat) : Attr :=
  let aes := decide (k = 0) || decide (k = 4) || decide (k = 5) || decide (k = 6)
  let type := if aes then 0x01 else if k = 1 then 0x10 else if k = 2 then 0x30 else 0x11
  { type := type, level := if k = 0 then 0 else 1, size := if aes then 256 else if 8 ≤ k &&
    k < 16 then 2 else if k = 2 then 0 else 3
    usage := if aes then 0x010 else if k = 1 || k = 2 then 0x004 else 0x008
    flags := 0, origin := if k = 0 || k = 1 || k = 2 then 0 else 1
    faultMode := if aes then 1 else if k = 1 || k = 2 then 3 else 0
    channel := 0, parent := 0, parentGen := 0, gen := (s.slot k).gen, owner := 0xFE }

/-- One flash copy of a record (R352): AES-256-GCM under a root, with nonce slot, generation and write count, and slot and
generation as authenticated data. PRESUMED (log entry 140): the plaintext is the attribute block and the material. -/
def flashCopy (root : List Byte) (k gen writes : Nat) (plain : List Byte) : List Byte :=
  gcmSealFrom root (gcmJ0 root (be 2 k ++ be 3 gen ++ be 5 writes)) (be 2 k ++ be 3 gen) plain

/-- The root under which the record of a slot is encrypted (R352, Table 09-2). -/
def State.rootOf (s : State) (k : Nat) : List Byte :=
  if k = 1 || k = 2 || k = 0x10 || k = 0x11 then Config.fuseRoot else s.ks.root.getD []

/-- The copy that flash holds of a key (R352). -/
def State.recordCopy (s : State) (k : Nat) (key : Key) : List Byte :=
  flashCopy (s.rootOf k) k key.attr.gen key.flash.writes (key.attr.bytes ++ key.secretEnc ++ key.pub)

/-! ### Lost keys and the sweeper -/

/-- Both flash copies of a key fail (R357): the slot is freed and EV_KEY_LOST recorded. Of an HSS private key it stays known that
its signing requests are refused as R384 says. -/
def State.loseKey (s : State) (k : Nat) : State :=
  match (s.slot k).key with
  | none => s
  | some key =>
    let s := (s.freeSlot k noOrigin).event 0x0701 noOrigin (be 2 k ++ [byte key.attr.owner])
    if key.attr.type = 0x30 then s.setSlot k { s.slot k with lostHss := some key.attr.owner } else s

/-- Whether a device-reserved slot with a flash record is full (Table 09-2); the storage root has none (R359). -/
def State.deviceFull (s : State) (k : Nat) : Bool :=
  k ∈ s.rootedSlots || (s.ks.identity && (k = 1 || k = 2 || k = 0x10 || k = 0x11) && !(k ∈ s.ks.gone))

/-- Both flash copies of a device-reserved slot fail (R357, R384, R481). -/
def State.loseDevice (s : State) (k : Nat) : State :=
  let s := (s.freeDevice k noOrigin).event 0x0701 noOrigin (be 2 k ++ [0xFE#8])
  let lost := fun (v : KeyStore) => { v with gone := v.gone ++ [k] }
  if k = 1 then s.mapKs (fun v => { lost v with ecPriv := 0 })
  else if k = 2 then s.mapKs (fun v => { lost v with hss := { v.hss with lost := true } })
  else if k = 4 then { s with vpA := s.vpA.disable }
  else if k = 5 then { s with vpB := s.vpB.disable }
  else if k = 6 then s.mapKs (fun v => { v with pairKey := none, peerId := zeros 8, peerKeys := none })
  else if k = 0x10 then s.mapKs (fun v => { lost v with fwKeys := [] })
  else if k = 0x11 then s.mapKs (fun v => { lost v with rootKeys := [] })
  else s.mapKs (fun v => { v with regs := v.regs.put none (k - 8) none })

/-- What the sweeper finds in a slot: whether each flash copy passes its check, and whether it needed corrections (R353). -/
structure Look where
  okA  : Bool
  okB  : Bool
  fixA : Bool
  fixB : Bool

/-- Whether no copy of a record passes. -/
def Flash.fails (f : Flash) (l : Look) : Bool := !(l.okA && f.okA) && !(l.okB && f.okB)

/-- Flash copies after the sweeper's look. -/
def Flash.seen (f : Flash) (l : Look) (c : Nat) : Flash := f.sweep l.okA l.okB l.fixA l.fixB c

/-- What the sweeper does at a slot (R353, R357). -/
def State.visit (s : State) (k : Nat) (l : Look) : State :=
  if k < 0x40 then
    let f := s.ks.devs.get .init k
    if !s.deviceFull k then s
    else if f.fails l then s.loseDevice k
    else s.mapKs (fun v => { v with devs := v.devs.put .init k (f.seen l s.ph.c) })
  else
    match (s.slot k).key with
    | none => s
    | some key =>
      if s.orphaned key then (s.freeSlot k noOrigin).mapKs (fun v => { v with swept := v.swept + 1 })
      else if key.flash.fails l then s.loseKey k
      else s.setSlot k { s.slot k with key := some { key with flash := key.flash.seen l s.ph.c } }

/-- Whether the sweeper waits at a slot: freeing it is serialised with the command that uses its key (R356; log entry 62). -/
def State.sweepWaits (s : State) (k : Nat) (l : Look) : Bool :=
  decide (0x40 ≤ k) && s.keyBusy k && (match (s.slot k).key with
    | none => false
    | some key => s.orphaned key || key.flash.fails l)

/-- KEY_SWEEPER_VISIT (R353): the next of 16,384 slots; the pass ends with EV_KEY_SWEPT when it freed any. -/
def execKeySweeperVisit (okA okB : Bool) (corrected : Bool × Bool) (t : State) : Host.Outcome State Fault Refusal :=
  let s := t
  let k := s.ks.sweepAt
  let l : Look := ⟨okA, okB, corrected.1, corrected.2⟩
  let s := (s.visit k l).mapKs (fun v => { v with sweepAt := (k + 1) % 16384 })
  .next (if !s.pow.main || t.sweepWaits k l then t
  else if k = 16383 then
    let n := s.ks.swept
    let s := s.mapKs (fun v => { v with swept := 0 })
    if n = 0 then s else s.event 0x0702 noOrigin (be 2 (sat 16 n))
  else s)

end Sys2Proof.Machine
end

