-- ==== Sys2Proof/Machine/Mult.lean ====
section
/-! DEFINITION. The Quince multiplier: its steps, the BN and PK commands, the bottom trees of HSS keys, and the random
number commands (chapter 12; R118, R369, R627, R629). A command is checked when it is accepted and computed when
MODULAR_MULTIPLICATION_BOUNDARY reports its end. -/

namespace Sys2Proof.Machine

/-! ### Steps (Table 12-1) -/

/-- MAC: `a × B[j]` added to column j, no carry between columns. -/
def Mult.mac (m : Mult) (a : Word) (b : List Word) : Mult :=
  { m with acc := m.acc.zipIdx.map (fun (c, j) =>
      if j < b.length then c + a.setWidth 96 * (b.getD j 0#40).setWidth 96 else c) }

/-- SHIFT: the word emitted, and the columns moved down by one. -/
def Mult.shift (m : Mult) : Word × Mult :=
  let c := fun j => m.acc.getD j 0#96
  ((c 0).setWidth 40,
    { m with acc := (c 1 + (c 0 >>> (40 : Nat))) :: ((List.range 14).map (fun j => c (j + 2)) ++ [0#96]) })

/-- CLEAR: every column zero. -/
def Mult.clear (m : Mult) : Mult := { m with acc := List.replicate 16 0#96 }

/-- The MAC steps before word `t` of a product is emitted: each word `a[i]` meets the 16-word blocks `k` of `b` for which its
column `i + 16k` has come to the first column. DEDUCED (log entry 157): the one schedule that has the step counts of Table
12-3. -/
def Mult.row (m : Mult) (a b : List Word) (t : Nat) : Mult :=
  (List.range ((b.length + 15) / 16)).foldl (fun m k =>
    if 16 * k ≤ t ∧ t - 16 * k < a.length then m.mac (a.getD (t - 16 * k) 0) ((b.drop (16 * k)).take 16) else m) m

/-- The words that the step sequence of a product emits, one SHIFT each, and the multiplier after it. -/
def Mult.product (m : Mult) (a b : List Word) : List Word × Mult :=
  (List.range (a.length + b.length)).foldl (fun (ys, m) t =>
    let (y, m) := (m.row a b t).shift
    (ys ++ [y], m)) ([], m)

/-! ### BN commands (R426-R428) -/

/-- The length rules of Table 12-2 on the WORDS values. -/
def bnLengthOk (o : Op) (b : List Byte) : Bool :=
  let w := fun i => (refAt b (6 * i)).words
  if o == .bnMac then decide (w 0 + w 1 ≤ w 2)
  else if o == .bnMul then w 2 == w 0 + w 1
  else if o == .bnModmul then w 0 == w 1 && w 1 == w 2 && w 2 == w 3
  else if o == .bnModinv then w 0 == w 1 && w 1 == w 2
  else w 0 == w 2 && w 2 == w 3

/-- Whether the output of a BN command overlaps an input (R427); D of BN.MAC is both. -/
def bnOverlap (o : Op) (b : List Byte) : Bool := (bnRefs o b).dropLast.any (fun r => r.overlaps (bnOut o b))

/-- Internal modular multiplications of a BN command (Table 12-3). -/
def bnCount (o : Op) (b : List Byte) : Nat :=
  if o == .bnModinv then 80 * (refAt b 0).words + 40 else if o == .bnModexp then 50 * (refAt b 6).words + 16 else 1

/-- The accesses of a BN command by a master: its reads in the order of the payload, then the write of its output. -/
def bnAccesses (m : Master) (owner : Nat) (o : Op) (b : List Byte) : List Access :=
  (bnReads o b).map (fun r => ⟨m, owner, .r, r⟩) ++ [⟨m, owner, .w, bnOut o b⟩]

/-- A command queued for the multiplier, which wakes when it was gated (Table 12-13). -/
def Act.queue (s : State) (rq : Rq) (left slot : Nat) (msg sig : List Byte) : Act :=
  .park (.mult rq.owner left slot msg sig) (s.mapMult (fun m => { m with gated := false }))

/-- What the five BN commands share at entry (R188, R427). -/
def doBn (rq : Rq) (s : State) : Act :=
  let b := rq.body
  let o := rq.op
  let n := (bnRefs o b).length
  Act.guard s
    (needLength rq (6 * n) ++
      [((List.range n).any (fun i => refReserved b (6 * i)), .unsupported, 0), ((bnRefs o b).any Ref.badSize, .length, 0)])
    (match s.denied (bnAccesses .command rq.owner o b) with
     | some a => .refuse (s.wmAccess rq.route.origin a) .access 0x0040
     | none =>
       Act.guard s [(!bnLengthOk o b, .length, 0x00C5), (bnOverlap o b, .policy, 0x00C4)]
         (if s.mustWait rq then .park (.held (.operands rq.owner)) s
          else .queue s rq (bnCount o b) 0 [] []))

/-- The value checks of Table 12-10 on the operands of a BN command with a modulus. -/
def bnValueChecks (o : Op) (a b m : Nat) : List (Bool × Status × Nat) :=
  [(m % 2 == 0 || decide (m < 3), .range, 0x00C1), (decide (m ≤ a) || (o == .bnModmul && decide (m ≤ b)), .range, 0x00C2),
   (o == .bnModinv && (a == 0 || Nat.gcd a m != 1), .notInvertible, 0)]

/-- The product of the first two references, by the steps of Table 12-1, the shorter one word by word (Table 12-3). -/
def State.bnProduct (s : State) (b : List Byte) : List Word × Mult :=
  let ws := fun i => s.wmWords (refAt b (6 * i))
  if (refAt b 0).words ≤ (refAt b 6).words then s.mult.product (ws 0) (ws 1) else s.mult.product (ws 1) (ws 0)

/-- The result of a BN command: status, DETAIL, reply payload, and the number written to its output (R426, R440). -/
def State.bnResult (s : State) (o : Op) (b : List Byte) : Status × Nat × List Byte × Nat :=
  let v := fun i => s.wmNum (refAt b (6 * i)).addr (refAt b (6 * i)).words
  if o == .bnMac then
    let r := v 2 + numOf (s.bnProduct b).1
    let top := 2 ^ (40 * (refAt b 12).words)
    (.ok, 0, [byte (r / top)], r % top)
  else if o == .bnMul then (.ok, 0, [], numOf (s.bnProduct b).1)
  else
    let m := if o == .bnModinv then v 1 else v 2
    match firstFail (bnValueChecks o (v 0) (v 1) m) with
    | some (st, d) => (st, d, [], 0)
    | none =>
      (.ok, 0, [], if o == .bnModmul then v 0 * v 1 % m else if o == .bnModinv then invMod (v 0) m else powMod (v 0) (v 1) m)

/-- The end of a BN command: an access that the sequencer's access control unit refuses ends it with the output zero-filled and
nothing else released (R189), a word with a double-bit error ends it (R193); otherwise its result is written. -/
def endBn (rq : Rq) (s : State) : Act :=
  let b := rq.body
  let out := bnOut rq.op b
  match s.refused (bnAccesses .sequencer rq.owner rq.op b) with
  | some a => .refuse ((s.wmZero out.addr out.words).wmAccess rq.route.origin a) .access 0x0041
  | none =>
    let u := s.meet rq.x.bad (bnReads rq.op b)
    match ((bnReads rq.op b).filterMap u.badWord).head? with
    | some a => .refuse (u.wmEcc rq.route.origin .sequencer a) .fault 0x0042
    | none =>
      let (st, d, reply, r) := s.bnResult rq.op b
      let s := if rq.op == .bnMac || rq.op == .bnMul then s.mapMult (fun _ => (s.bnProduct b).2) else s
      let s := s.wmWriteAll out.addr (wordsOf out.words r)
      .done st d reply (if st = .ok then s.unapproved rq.route.origin else s)

/-! ### PK commands: entry -/

/-- A field of the request of Table 12-7. -/
def pkScheme (b : List Byte) : Nat := at8 b 2
def pkHash (b : List Byte) : Hash := (Hash.ofAlg (at8 b 3)).getD .sha256
def pkForm (b : List Byte) : Nat := at8 b 4

/-- Whether SCHEME and HASH fit a TYPE (R434). -/
def schemeFits (b : List Byte) (t : Nat) : Bool :=
  let sc := pkScheme b
  if sc = 4 then (t == 0x30 || t == 0x31) && at8 b 3 == 0
  else if sc = 1 then (t == 0x10 || t == 0x11) && (Hash.ofAlg (at8 b 3)).isSome
  else if sc = 2 || sc = 3 then (t == 0x20 || t == 0x21) && (Hash.ofAlg (at8 b 3)).isSome
  else false

/-- A check on the key that an owner names, once the key checks have passed. -/
def State.onKey (s : State) (owner k : Nat) (bad : Key → Bool) (st : Status) (d : Nat) : List (Bool × Status × Nat) :=
  [(match s.keyFor owner k with
    | none => false
    | some key => bad key, st, d)]

/-- The fields of Table 12-7 that a form or scheme leaves zero or absent (R94, R433). -/
def pkReserved (b : List Byte) (verify : Bool) : Bool :=
  let hss := pkScheme b == 4
  decide (1 < pkForm b) || (hss && pkForm b == 0) || (pkScheme b != 3 && at8 b 5 != 0)
    || (pkForm b == 1 && !zeroAt b 8 64) || (pkForm b == 0 && (!zeroAt b (8 + (pkHash b).len) (64 - (pkHash b).len)
    || !descAbsent b 72)) || (!hss && !descAbsent b 88) || (!verify && !zeroAt b 6 2)

/-- Length of a signature under a key (R435). -/
def State.sigLen (s : State) (k : Key) : Nat :=
  let t := k.attr.type
  if t = 0x10 || t = 0x11 then ((s.curve k.attr.owner k.attr.size).map (fun c => 2 * c.nLen)).getD 0
  else if t = 0x20 || t = 0x21 then k.attr.size / 8
  else 5716

/-- A request reads the message of FORM 0x01, and nothing under FORM 0x00 (R433). -/
def Act.withMessage (s : State) (rq : Rq) (f : List Byte → State → Act) : Act :=
  if pkForm rq.body = 0 then f [] s else .withInput s rq 0 (descAt rq.body 72) f

/-- The checks that PK.SIGN and PK.VERIFY share after their length. -/
def State.pkChecks (s : State) (rq : Rq) (verify : Bool) : List (Bool × Status × Nat) :=
  let b := rq.body
  s.needRandom ++
    [(pkReserved b verify, .unsupported, 0), (pkScheme b == 3 && decide ((pkHash b).len < at8 b 5), .length, 0)] ++
    (if pkForm b = 1 then s.needDesc rq 72 1 else []) ++
    (if pkScheme b = 4 then s.needDesc rq 88 (if verify then 1 else 2) else []) ++
    s.keyChecks rq (fld b 0 2) (fun k => k.may (if verify then uVerify else uSign)) ++
    s.onKey rq.owner (fld b 0 2) (fun k => !schemeFits b k.attr.type) .policy 0x00CB

/-- The HSS state of a key, fresh for other keys. -/
def State.hssOf (s : State) (k : Nat) : Hss := ((s.slot k).key.map (·.hss)).getD Hss.init

/-- An HSS signature under a tenant key: the leaf is used, and NEXT rewritten when its block was spent (R367). -/
def Key.useLeaf (k : Key) (c : Nat) : Key :=
  let h := k.hss.use
  let k' := { k with hss := h }
  if h.next = k.hss.next then k' else k'.stored c

/-- A leaf of the key in a slot used, with its randomiser drawn. -/
def State.spendLeaf (s : State) (k : Nat) (key : Key) : State :=
  (s.drewBytes 32).setSlot k { s.slot k with key := some (key.useLeaf s.ph.c) }

/-- Whether an earlier PK.SIGN of the same HSS key has not taken its leaf yet (Table 10-8). -/
def State.signsBefore (s : State) (rq : Rq) : Bool :=
  s.live.any (fun l => l.before rq && l.rq.op == .pkSign && pkScheme l.rq.body == 4 && fld l.rq.body 0 2 == fld rq.body 0 2
    && (match l.job with
      | .held _ => true
      | _ => false))

/-- The leaf of PK.SIGN under HSS, assigned in the order of acceptance (R382) after the checks of R381, R382 and R384; with its
randomiser it goes along with the request. Other schemes take none. -/
def Act.withLeaf (s : State) (rq : Rq) (k : Nat) (f : List Byte → State → Act) : Act :=
  if pkScheme rq.body = 4 then
    match (s.slot k).key with
    | none => .refuse s .noKey 0
    | some key =>
      if s.signsBefore rq then .park (.held .turn) s
      else
        Act.guard (s.noteLost rq.route.origin k key.hss) key.hss.checks
          (f (be 5 key.hss.leaf ++ s.drawBytes 32) (s.spendLeaf k key))
  else f [] s

/-- The checks of PK.SIGN (R433). -/
def State.signChecks (s : State) (rq : Rq) : List (Bool × Status × Nat) :=
  needLength rq 104 ++ s.pkChecks rq false ++
    [(pkScheme rq.body == 4 && decide ((descAt rq.body 88).len < 5716), .length, 0x00C5)]

/-- EV_LMS_STATE_LOST of a request that names a lost HSS key (R384). -/
def State.noteRefusal (s : State) (rq : Rq) : State :=
  if firstFail (s.signChecks rq) = some (.fault, 0x00A3) then s.event 0x0704 rq.route.origin (be 2 (fld rq.body 0 2)) else s

/-- PK.SIGN (R433). -/
def doPkSign (rq : Rq) (s : State) : Act :=
  let k := fld rq.body 0 2
  Act.guard (s.noteRefusal rq) (s.signChecks rq)
    (.withKey s rq k (fun _ s => .withMessage s rq (fun msg s =>
      .withLeaf s rq k (fun leaf s => .twice s rq 4 0 (fun s => .queue s rq 0 0 msg leaf)))))

/-- PK.VERIFY (R433, R435). -/
def doPkVerify (rq : Rq) (s : State) : Act :=
  let b := rq.body
  let n := fld b 6 2
  let inline := descAbsent b 88
  Act.guard s
    ([(decide (b.length < 104) || b.length != 104 + (if inline then n else 0), .length, 0)] ++ s.pkChecks rq true ++
      s.onKey rq.owner (fld b 0 2) (fun k => n != s.sigLen k) .length 0x00C5 ++
      [(!inline && (descAt b 88).len != n, .length, 0x00C5)])
    (.withKey s rq (fld b 0 2) (fun _ s => .withMessage s rq (fun msg s =>
      if inline then .twice s rq 4 0 (fun s => .queue s rq 0 0 msg (b.drop 104))
      else .withInput s rq 1 (descAt b 88) (fun sig s => .twice s rq 4 0 (fun s => .queue s rq 0 0 msg sig)))))

/-- PK.AGREE (R436). -/
def doPkAgree (rq : Rq) (s : State) : Act :=
  let b := rq.body
  let k := fld b 0 2
  let t := fld b 4 2
  let u := fld b 6 2
  Act.guard s
    ([(decide (b.length < 8), .length, 0)] ++ s.needStamp ++ s.needRandom ++ s.keyChecks rq k (fun k => k.may uAgree) ++
      s.onKey rq.owner k (fun key => b.length - 8 != s.publicLen rq.owner key.attr.type key.attr.size) .length 0x00C5 ++
      [(u == 0 || !(List.range 16).all (fun i => !bit u i || i == uDerive || i == uMac), .policy, 0x0091)] ++
      s.parentChecks rq (fld b 2 2) ++ [(t == 0, .policy, 0x00CC)] ++ s.targetChecks rq.owner t)
    (.withKey s rq k (fun _ s => .twice s rq 4 0 (fun s => .queue s rq 0 t [] [])))

/-- The checks that PK.ENCRYPT and PK.DECRYPT share (R437): `use` is the usage bit and `t` the TYPE. -/
def State.oaepChecks (s : State) (rq : Rq) (use t : Nat) : List (Bool × Status × Nat) :=
  let b := rq.body
  [(decide (b.length < 8) || b.length != 8 + at8 b 3 + fld b 4 2, .length, 0)] ++ s.needRandom ++ needZero rq 6 2 ++
    [(decide (64 < at8 b 3), .length, 0x00C5)] ++ s.keyChecks rq (fld b 0 2) (fun k => k.may use) ++
    s.onKey rq.owner (fld b 0 2) (fun k => k.attr.type != t || (Hash.ofAlg (at8 b 2)).isNone) .policy 0x00CB

/-- The hash of an OAEP request. -/
def oaepHash (b : List Byte) : Hash := (Hash.ofAlg (at8 b 2)).getD .sha256

/-- PK.ENCRYPT (R437). -/
def doPkEncrypt (rq : Rq) (s : State) : Act :=
  let b := rq.body
  Act.guard s
    (s.oaepChecks rq uEncrypt 0x21 ++
      s.onKey rq.owner (fld b 0 2) (fun k => decide (k.attr.size / 8 - 2 * (oaepHash b).len - 2 < fld b 4 2)) .length 0x00C5)
    (.withKey s rq (fld b 0 2) (fun _ s => .twice s rq 4 0 (fun s => .queue s rq 0 0 [] [])))

/-- PK.DECRYPT (R437). -/
def doPkDecrypt (rq : Rq) (s : State) : Act :=
  let b := rq.body
  Act.guard s
    (s.oaepChecks rq uDecrypt 0x20 ++
      s.onKey rq.owner (fld b 0 2) (fun k => fld b 4 2 != k.attr.size / 8) .length 0x00C5)
    (.withKey s rq (fld b 0 2) (fun _ s => .twice s rq 4 0 (fun s => .queue s rq 0 0 [] [])))

/-- PK.LOAD_CURVE (R430). -/
def doPkLoadCurve (rq : Rq) (s : State) : Act :=
  let b := rq.body
  let n := at8 b 0
  Act.guard s
    ([(decide (b.length < 4) || b.length != 4 + 6 * n || decide (n < 20) || decide (80 < n), .length, 0)] ++ needZero rq 2 2)
    (.queue s rq 0 0 [] [])

/-! ### PK commands: results -/

/-- The digest that a request signs or verifies (R433). -/
def pkDigest (b msg : List Byte) : List Byte :=
  let h := pkHash b
  if pkForm b = 0 then slice b 8 h.len else h.digest msg

/-- An ECDSA signature with drawn nonces: a zero part draws a new nonce (R434). -/
def State.ecdsaDraw (c : Curve) (d : Nat) (digest : List Byte) : (fuel : Nat) → State → (Nat × Nat) × State
  | 0, s => (ecdsaSign c d (s.drawScalar c.n) digest, s.drewBytes 80)
  | f + 1, s =>
    let r := ecdsaSign c d (s.drawScalar c.n) digest
    if r.1 = 0 || r.2 = 0 then State.ecdsaDraw c d digest f (s.drewBytes 80) else (r, s.drewBytes 80)

/-- RSA primes and public exponent of a secret encoding. -/
def rsaParts (size : Nat) (secret : List Byte) : Nat × Nat × Nat :=
  let n := primeLen size
  (fld secret 4 n, fld secret (4 + n) n, fld secret 0 4)

/-- The private RSA operation. -/
def rsaPrivate (size : Nat) (secret : List Byte) (x : Nat) : Nat :=
  let (p, q, e) := rsaParts size secret
  powMod x (invMod e (Nat.lcm (p - 1) (q - 1))) (p * q)

/-- Modulus and exponent of a public encoding. -/
def rsaModulus (size : Nat) (pub : List Byte) : Nat := fld pub 0 (size / 8)
def rsaExponent (size : Nat) (pub : List Byte) : Nat := fld pub (size / 8) 4

/-- The reply of PK.SIGN with an inline signature (R435). -/
def sigReply (sig : List Byte) : List Byte := be 2 sig.length ++ zeros 2 ++ sig

/-- The end of PK.SIGN (R434, R435). -/
def endPkSign (rq : Rq) (key : Key) (msg leaf : List Byte) (s : State) : Act :=
  let b := rq.body
  let size := key.attr.size
  let h := pkHash b
  let dig := pkDigest b msg
  let used := fun (s : State) => if key.unapproved then s.unapproved rq.route.origin else s
  if pkScheme b = 4 then
    let sig := hssSign (key.secret.take 32) (slice key.secret 32 16) (fld leaf 0 5) (leaf.drop 5) msg
    .withOutput s rq (descAt b 88) sig 4 (fun s => .done .ok 0 (be 2 sig.length ++ zeros 2) s)
  else if pkScheme b = 1 then
    match s.curve rq.owner size with
    | none => .refuse s .policy 0x00C8
    | some c =>
      let (r, s) := State.ecdsaDraw c (fromBe key.secret) dig 8 s
      .done .ok 0 (sigReply (be c.nLen r.1 ++ be c.nLen r.2)) (used s)
  else
    let (p, q, _) := rsaParts size key.secret
    let bits := (p * q).log2 + 1
    let (em, s) := if pkScheme b = 2 then (emsaPkcs1 h (size / 8) dig, s)
      else (emsaPss h bits dig (s.drawBytes (at8 b 5)), s.drewBytes (at8 b 5))
    .done .ok 0 (sigReply (be (size / 8) (rsaPrivate size key.secret (fromBe em)))) s

/-- The verdict on a signature (R434, Table 12-10); none when an RSA signature is not below n. -/
def State.verdict (s : State) (rq : Rq) (key : Key) (msg sig : List Byte) : Option Bool :=
  let b := rq.body
  let size := key.attr.size
  let h := pkHash b
  let dig := pkDigest b msg
  if pkScheme b = 4 then some (hssVerify key.pub msg sig)
  else if pkScheme b = 1 then
    match s.curve rq.owner size with
    | none => some false
    | some c => some (ecdsaVerify c (c.decode key.pub) dig (fromBe (sig.take c.nLen)) (fromBe (sig.drop c.nLen)))
  else
    let n := rsaModulus size key.pub
    let x := fromBe sig
    if n ≤ x then none
    else
      let m := powMod x (rsaExponent size key.pub) n
      let bits := n.log2 + 1
      if pkScheme b = 2 then some (be (size / 8) m == emsaPkcs1 h (size / 8) dig)
      else some (decide (m < 2 ^ (8 * ((bits - 1 + 7) / 8))) && pssOk h bits dig (be ((bits - 1 + 7) / 8) m) (at8 b 5))

/-- The end of PK.VERIFY (R435, Table 12-10). -/
def endPkVerify (rq : Rq) (key : Key) (msg sig : List Byte) (s : State) : Act :=
  match s.verdict rq key msg sig with
  | none => .refuse s .range 0x00C3
  | some v =>
    .done .ok 0 ([if v then 1#8 else 2#8] ++ zeros 3) (if key.unapproved then s.unapproved rq.route.origin else s)

/-- The end of PK.AGREE (R436, R640, Table 12-10). -/
def endPkAgree (rq : Rq) (key : Key) (slot : Nat) (s : State) : Act :=
  let b := rq.body
  let peer := b.drop 8
  match s.curve rq.owner key.attr.size with
  | none => .refuse s .policy 0x00C8
  | some c =>
    Act.guard s (c.pointChecks peer)
      (match c.mul (c.h * fromBe key.secret) (c.decode peer) with
       | none => .refuse s .pointZero 0
       | some (x, _) =>
         let p : Spec := ⟨2, 8 * c.len, fld b 6 2, 0, 1, 0⟩
         let new := s.makeKey rq.owner slot (fld b 2 2) p 2 (be c.len x) [] 0
         .create (if key.unapproved then s.unapproved rq.route.origin else s) slot new)

/-- The end of PK.ENCRYPT (R437). -/
def endPkEncrypt (rq : Rq) (key : Key) (s : State) : Act :=
  let b := rq.body
  let h := oaepHash b
  let k := key.attr.size / 8
  let em := oaepEncode h k (slice b 8 (at8 b 3)) (b.drop (8 + at8 b 3)) (s.drawBytes h.len)
  let ct := powMod (fromBe em) (rsaExponent key.attr.size key.pub) (rsaModulus key.attr.size key.pub)
  .done .ok 0 (be 2 k ++ be k ct) (s.drewBytes h.len)

/-- The end of PK.DECRYPT (R437, Table 12-10). -/
def endPkDecrypt (rq : Rq) (key : Key) (s : State) : Act :=
  let b := rq.body
  let k := key.attr.size / 8
  let (p, q, _) := rsaParts key.attr.size key.secret
  let ct := fromBe (b.drop (8 + at8 b 3))
  if p * q ≤ ct then .refuse s .range 0x00C3
  else
    match oaepDecode (oaepHash b) k (slice b 8 (at8 b 3)) (be k (rsaPrivate key.attr.size key.secret ct)) with
    | none => .refuse s .authFail 0x00CA
    | some m => .done .ok 0 (be 2 m.length ++ m) s

/-- The end of PK.LOAD_CURVE (R430, R431). -/
def endPkLoadCurve (rq : Rq) (s : State) : Act :=
  match s.tryCurve rq.owner rq.body with
  | .refuse st d => .refuse s st d
  | .held i => .done .ok 0 (be 2 i) (s.unapproved rq.route.origin)
  | .new i c => .done .ok 0 (be 2 i) ((s.setCurve i c).unapproved rq.route.origin)

/-- Whether a PK command hashes: a message, or the mask of a padding (R433, R434, R437). -/
def pkHashes (rq : Rq) : Bool :=
  if rq.op == .pkSign || rq.op == .pkVerify then pkForm rq.body == 1 || pkScheme rq.body == 3 || pkScheme rq.body == 4
  else rq.op == .pkEncrypt || rq.op == .pkDecrypt

/-- The end of a command on the multiplier. -/
def endMult (rq : Rq) (slot : Nat) (msg sig : List Byte) (s : State) : Act :=
  let k := fld rq.body 0 2
  match rq.op with
  | .bnMac | .bnMul | .bnModmul | .bnModinv | .bnModexp => endBn rq s
  | .keyGen => endKeyGen rq slot s
  | .pkLoadCurve => endPkLoadCurve rq s
  | o =>
    match (s.slot k).key with
    | none => .refuse s .noKey 0
    | some key =>
      (if pkHashes rq then Act.onHash s rq else fun k => k s) fun s =>
      if o == .pkSign then endPkSign rq key msg sig s
      else if o == .pkVerify then endPkVerify rq key msg sig s
      else if o == .pkAgree then endPkAgree rq key slot s
      else if o == .pkEncrypt then endPkEncrypt rq key s
      else endPkDecrypt rq key s

def execBnMac (v : Via) (x : Ext) (s : State) : Host.Outcome State Fault Refusal :=
  .next (s.request v x (fun o _ => o == .bnMac) doBn)

def execBnMul (v : Via) (x : Ext) (s : State) : Host.Outcome State Fault Refusal :=
  .next (s.request v x (fun o _ => o == .bnMul) doBn)

def execBnModmul (v : Via) (x : Ext) (s : State) : Host.Outcome State Fault Refusal :=
  .next (s.request v x (fun o _ => o == .bnModmul) doBn)

def execBnModinv (v : Via) (x : Ext) (s : State) : Host.Outcome State Fault Refusal :=
  .next (s.request v x (fun o _ => o == .bnModinv) doBn)

def execBnModexp (v : Via) (x : Ext) (s : State) : Host.Outcome State Fault Refusal :=
  .next (s.request v x (fun o _ => o == .bnModexp) doBn)

def execPkSign (v : Via) (x : Ext) (s : State) : Host.Outcome State Fault Refusal :=
  .next (s.request v x (fun o _ => o == .pkSign) doPkSign)

def execPkVerify (v : Via) (x : Ext) (s : State) : Host.Outcome State Fault Refusal :=
  .next (s.request v x (fun o _ => o == .pkVerify) doPkVerify)

def execPkAgree (v : Via) (x : Ext) (s : State) : Host.Outcome State Fault Refusal :=
  .next (s.request v x (fun o _ => o == .pkAgree) doPkAgree)

def execPkEncrypt (v : Via) (x : Ext) (s : State) : Host.Outcome State Fault Refusal :=
  .next (s.request v x (fun o _ => o == .pkEncrypt) doPkEncrypt)

def execPkDecrypt (v : Via) (x : Ext) (s : State) : Host.Outcome State Fault Refusal :=
  .next (s.request v x (fun o _ => o == .pkDecrypt) doPkDecrypt)

def execPkLoadCurve (v : Via) (x : Ext) (s : State) : Host.Outcome State Fault Refusal :=
  .next (s.request v x (fun o _ => o == .pkLoadCurve) doPkLoadCurve)

/-! ### Turns (R443) and faults (R446-R448) -/

/-- Whether a request in flight is queued for the multiplier by a context. -/
def Live.onMult (i : Nat) (l : Live) : Bool :=
  match l.job with
  | .mult o _ _ _ _ => ctxOf o == i
  | _ => false

/-- The context whose turn it is: slices in number order, then the manager (R443). -/
def State.multCtx (s : State) : Option Nat :=
  ((List.range 65).map (fun k => (s.mult.turn + k) % 65)).find? (fun i => s.live.any (Live.onMult i))

/-- What a fault of the multiplier leaves of a command: a drawn nonce is discarded; a used HSS leaf stays used (R446). -/
def State.spoilt (s : State) (rq : Rq) : State :=
  if rq.op == .pkSign && pkScheme rq.body == 1 then s.drewBytes 80 else s

/-- A faulty command ends with ST_FAULT, DETAIL 0x00C6. -/
def faultMult (f : PkFault) (rq : Rq) (s : State) : Act :=
  let s := s.spoilt rq
  match f with
  | .mode kat => .refuse (s.pkFault rq 1 kat) .fault 0x00C6
  | .residue kat => .refuse (s.pkFault rq 2 kat) .fault 0x00C6
  | .scratch => .refuse s .fault 0x00C6

/-- Scratch memory and accumulator zero at the end of a command (R423, R424). -/
def State.cleanMult (s : State) : State := s.mapMult (fun m => { m.clear with scratch := [] })

/-- The boundary of a modular multiplication, before held requests are looked at again: the context's turn ends, and its
command goes on, completes, or ends by a fault. `last` ends a command whose count of multiplications is open. -/
def State.boundary (s : State) (last : Bool) (fault : Option PkFault) : State :=
  match s.multCtx with
  | none => s
  | some i =>
    match s.live.find? (Live.onMult i) with
    | none => s
    | some l =>
      let s := s.mapMult (fun m => { m with turn := (i + 1) % 65 })
      match l.job, fault with
      | .mult _ _ _ _ _, some f => s.cleanMult.finish (· == l) (fun l s => faultMult f l.rq s)
      | .mult o left t msg sig, none =>
        if 1 < left then
          { s with live := s.live.map (fun m => if m = l then { m with job := .mult o (left - 1) t msg sig } else m) }
        else if left = 1 || last then s.cleanMult.finish (· == l) (fun l s => endMult l.rq t msg sig s)
        else s
      | _, _ => s

/-! ### Bottom trees (R369) -/

/-- The build of the next bottom tree of an HSS key completes. -/
def Hss.finishBuild (h : Hss) : Hss := if h.building then { h with built := h.built + 1, building := false } else h

/-- BOTTOM_TREE_BUILT (R369): slot 0x0002 is the identity tree. -/
def execBottomTreeBuilt (k : Nat) (s : State) : Host.Outcome State Fault Refusal :=
  .next (if k = 2 then
    if s.ks.identity then s.mapKs (fun v => { v with hss := v.hss.finishBuild }) else s
  else
    match (s.slot k).key with
    | none => s
    | some key =>
      if key.attr.type = 0x30 then s.setSlot k { s.slot k with key := some { key with hss := key.hss.finishBuild } } else s)

/-! ### Random numbers -/

/-- RNG.DRAW (R118). -/
def doRngDraw (rq : Rq) (s : State) : Act :=
  let n := fld rq.body 0 2
  Act.guard s (needLength rq 2 ++ [(decide (n < 1) || decide (1024 < n), .length, 0)] ++ s.needRandom)
    (.done .ok 0 (s.drawBytes n) (s.drewBytes n))

def execRngDraw (v : Via) (x : Ext) (s : State) : Host.Outcome State Fault Refusal :=
  .next (s.request v x (fun o _ => o == .rngDraw) doRngDraw)

/-- DRBG_RESEED (R627): after 2^20 requests. -/
def execDrbgReseed (s : State) : Host.Outcome State Fault Refusal :=
  .next (if 2 ^ 20 ≤ s.pow.drbgReqs then s.mapPow (fun p => { p with drbgReqs := 0 }) else s)

/-- The DRBG stops and the indicator becomes ERROR (R629). -/
def State.stopDrbg (s : State) (test : Nat) : State :=
  ((s.mapPow (fun p => { p with drbgStop := true })).event 0x0C04 noOrigin [4#8, byte test]).evaluate noOrigin

/-- ENTROPY_TEST_FAILURE (R629): the start-up tests of unit 4 are repeated once. -/
def execEntropyTestFailure (test : Nat) (repeatPasses : Bool) (s : State) : Host.Outcome State Fault Refusal :=
  .next (if !s.pow.main || !s.pow.ready || s.pow.drbgStop || test < 1 || 2 < test then s
  else if repeatPasses then
    ((s.stopDrbg test).mapPow (fun p => { p with drbgStop := false, drbgReqs := 0 })).evaluate noOrigin
  else ((s.stopDrbg test).mapPow (fun p => { p with halted := true, selftest := 2 })).evaluate noOrigin)

end Sys2Proof.Machine
end

