-- ==== Sys2Proof/Machine/Report.lean ====
section
/-! DEFINITION. Statements under a signature or MAC: STAMP.READ, STAMP.REPORT (R63, R73-R78), ATTEST.DEVICE and ATTEST.KEY
(R375-R378), and the signing that LOOP.REPORT shares with STAMP.REPORT (R498). -/

namespace Sys2Proof.Machine

/-! ### Signing with a tenant or manager key (R78) -/

/-- The hash of an ECDSA report signature, by the field size (R78). -/
def reportHash (c : Curve) : Hash :=
  let bits := c.p.log2 + 1
  if bits ≤ 256 then .sha256 else if bits ≤ 384 then .sha384 else .sha512

/-- A body followed by the signature or MAC of a key (R78). AES-CMAC runs on a lane under the key's fault mode (R392), the hash
of a signature and HMAC in the hash units (R387). -/
def signBody (rq : Rq) (key : Key) (body : List Byte) (s : State) : Act :=
  let size := key.attr.size
  let t := key.attr.type
  let run := if t = 0x01 then Act.onLane s rq else Act.onHash s rq
  run fun s =>
  if t = 0x10 then
    match s.curve rq.owner size with
    | none => .refuse s .policy 0x00C8
    | some c =>
      let (r, s) := State.ecdsaDraw c (fromBe key.secret) ((reportHash c).digest body) 8 s
      .done .ok 0 (body ++ be c.nLen r.1 ++ be c.nLen r.2)
        (if key.unapproved then s.unapproved rq.route.origin else s)
  else if t = 0x20 then
    let (p, q, _) := rsaParts size key.secret
    let em := emsaPss .sha256 ((p * q).log2 + 1) (sha256 body) (s.drawBytes 32)
    .done .ok 0 (body ++ be (size / 8) (rsaPrivate size key.secret (fromBe em))) (s.drewBytes 32)
  else if t = 0x01 then .done .ok 0 (body ++ cmac key.secret body) s
  else .done .ok 0 (body ++ hmac .sha256 key.secret body) s

/-- Whether a slot is one that a report key of the owner may stand in (R74). -/
def reportSlot (owner k : Nat) : Bool := decide (owner < 64) || (decide (0x81 ≤ k) && decide (k < 0x100))

/-- The checks of SELECTOR 1 on its key (R74, R77, R78). -/
def State.reportKey (s : State) (rq : Rq) (k : Nat) : List (Bool × Status × Nat) :=
  [(!reportSlot rq.owner k, .noKey, 0)] ++ s.keyChecks rq k (fun key => key.may uSign || key.may uMac) ++
    s.onKey rq.owner k (fun key => key.attr.type == 0x30) .policy 0x0060

/-- The checks of SELECTOR and KEY (R74). -/
def selectorChecks (sel k : Nat) : List (Bool × Status × Nat) :=
  [(decide (1 < sel), .unsupported, 0), (sel == 0 && k != 0, .unsupported, 0)]

/-- A body signed as SELECTOR and KEY ask (R74, R78). -/
def signReport (rq : Rq) (sel k : Nat) (body : State → List Byte) (s : State) : Act :=
  if sel = 0 then s.statement rq (body s)
  else
    Act.guard s (s.reportKey rq k)
      (.withKey s rq k (fun key s => .twice s rq 4 0 (fun s => signBody rq key (body s) s)))

/-! ### STAMP -/

/-- RESUME of R63. -/
def Phase.resumeBytes (p : Phase) : List Byte := be 5 (if p.resumed then p.resume else 0)

/-- STAMP.READ (R63). -/
def doStampRead (rq : Rq) (s : State) : Act :=
  Act.guard s (needLength rq 0)
    (.done .ok 0 ([byte s.ph.st.code, byte s.ph.band] ++ be 2 s.ph.freq ++ s.ph.resumeBytes ++ zeros 3 ++ s.ph.stamp) s)

/-- The stamp report body (Table 02-5). -/
def State.stampBody (s : State) (slice : Nat) (nonce : List Byte) : List Byte :=
  be 2 0x0201 ++ be 2 48 ++ s.ks.deviceId ++ [byte slice, byte s.ph.band] ++ be 2 s.ph.freq ++ s.ph.stamp
    ++ s.ph.resumeBytes ++ zeros 3 ++ padTo 16 nonce

/-- STAMP.REPORT (R73-R78). -/
def doStampReport (rq : Rq) (s : State) : Act :=
  let b := rq.body
  Act.guard s
    (needLength rq 20 ++ s.needStamp ++ s.needRandom ++ needZero rq 1 1 ++ selectorChecks (at8 b 0) (fld b 2 2))
    (signReport rq (at8 b 0) (fld b 2 2) (fun s => s.stampBody rq.owner (b.drop 4)) s)

/-! ### ATTEST -/

/-- Key check value of a port key (R252). -/
def kcv (key : List Byte) : List Byte := (cmac key []).take 4

/-- VP_CFG of a port (Table 07-12). -/
def Vp.cfg (v : Vp) : BitVec 64 :=
  packReg [(0, 2, v.shown.code),
    (32, 32, if v.shown == .disabled then 0 else fromBe (kcv (v.key.getD [])))]

/-- VP_CFG of VPA and of VPB as the device statement digests them. -/
def State.vpCfgs (s : State) : List Byte := be 8 s.vpA.cfg.toNat ++ be 8 s.vpB.cfg.toNat

/-- ATTEST.DEVICE in DECOMMISSIONED (R380, R515). -/
def tombstoneReply (s : State) : Act :=
  match s.ks.tombstone with
  | some t => .done .ok 0 t s
  | none => .refuse s .fault 0x0112

/-- ATTEST.DEVICE (R375). -/
def doAttestDevice (rq : Rq) (s : State) : Act :=
  let b := rq.body
  let chain := at8 b 16
  let form := needLength rq 36 ++ needZero rq 17 3 ++
    [(decide (1 < chain) || (chain == 0 && !descAbsent b 20), .unsupported, 0)]
  if s.tam.life == .decommissioned then Act.guard s form (tombstoneReply s)
  else
    let body := s.deviceBody s.vpCfgs (b.take 16)
    Act.guard s (needLength rq 36 ++ s.needStamp ++ s.needRandom ++ form)
      (if chain = 0 then s.statement rq body
       else
         Act.guard s (s.needDesc rq 20 2)
           (if (descAt b 20).len < s.chainBundle.length then .done .length 0x00A5 (be 4 s.chainBundle.length) s
            else
              Act.guard (s.noteLost rq.route.origin 2 s.ks.hss) (s.dualChecks rq.ctx)
                (.onHash s rq fun s => .verified s rq (.withOutput s rq (descAt b 20) s.chainBundle 4 (fun t =>
                  .done .ok 0 (body ++ s.dualSign body) (t.dualSigned rq.ctx))))))

/-- ATTEST.KEY (R378). -/
def doAttestKey (rq : Rq) (s : State) : Act :=
  let k := fld rq.body 0 2
  Act.guard s
    (needLength rq 20 ++ s.needStamp ++ s.needRandom ++ needZero rq 2 2 ++ s.keyChecks rq k (fun _ => true))
    (match s.keyFor rq.owner k with
     | none => .refuse s .noKey 0
     | some key => s.statement rq (s.provenance k key (rq.body.drop 4)))

def execStampRead (v : Via) (x : Ext) (s : State) : Host.Outcome State Fault Refusal :=
  .next (s.request v x (fun o _ => o == .stampRead) doStampRead)

def execStampReport (v : Via) (x : Ext) (s : State) : Host.Outcome State Fault Refusal :=
  .next (s.request v x (fun o _ => o == .stampReport) doStampReport)

def execAttestDevice (v : Via) (x : Ext) (s : State) : Host.Outcome State Fault Refusal :=
  .next (s.request v x (fun o _ => o == .attestDevice) doAttestDevice)

def execAttestKey (v : Via) (x : Ext) (s : State) : Host.Outcome State Fault Refusal :=
  .next (s.request v x (fun o _ => o == .attestKey) doAttestKey)

end Sys2Proof.Machine
end

