-- ==== Sys2Proof/Machine/Loop.lean ====
section
/-! DEFINITION. Loop inputs (chapter 14): windows and thresholds, HART, and the LOOP commands. -/

namespace Sys2Proof.Machine

/-! ### Checks -/

/-- The checks that LOOP commands on one loop share: who may name it, the domain, the front end (R496, R500, R505). -/
def State.loopChecks (s : State) (rq : Rq) (i : Nat) : List (Bool × Status × Nat) :=
  [(decide (7 < i) || (match rq.route.tenant with
      | none => false
      | some n => (s.loop i).slice != n), .access, 0x00F1),
   (!s.pow.loopOn || s.live.any (fun l => l.job == .domainOff 7), .domainOff, 0x00F0),
   (s.pow.loopFail, .fault, 0x00F7)]

/-! ### The measurement report -/

/-- The instrument entries expected on a loop: address 0 point-to-point, every answering address in multidrop (R489). -/
def Loop.expected (l : Loop) : List Inst :=
  if !l.hart then []
  else if l.drops = 0 then
    match l.insts.find? (fun i => i.addr == 0) with
    | some i => [i]
    | none => [⟨0, 0, 0, 0, 0, false, 0, 0, []⟩]
  else l.insts

/-- An instrument entry (Table 14-5); VALID while the entry holds a response (log entry 23). -/
def Inst.bytes (i : Inst) (mismatch : Bool) (stop : Nat) : List Byte :=
  [byte i.addr, byte i.status, byte i.units, byte (b01 i.seen + 2 * b01 mismatch + 4 * b01 (decide (3 ≤ i.missed)))]
    ++ be 4 i.pv ++ be 4 i.ma ++ be 2 (sat 16 (stop - i.at')) ++ zeros 2

/-- A signed current in 32 bits. -/
def current32 (c : Int) : Nat := (c % 2 ^ 32).toNat

/-- The measurement report body (Table 14-4). -/
def State.loopBody (s : State) (l : Loop) (i : Nat) (r : Result) (nonce : List Byte) : List Byte :=
  be 2 0x0D02 ++ be 2 (64 + 16 * r.insts.length) ++ s.ks.deviceId
    ++ [byte l.slice, byte i, byte l.wiring, byte l.drops, byte s.ph.band, byte r.flags] ++ be 2 r.window
    ++ be 5 r.start ++ [byte r.insts.length] ++ zeros 2 ++ be 4 (current32 r.current) ++ s.ph.stamp ++ padTo 16 nonce
    ++ zeros 8 ++ r.insts.flatMap (fun (e, m) => e.bytes m (r.start + r.window))

/-- A request about the latest result of a loop (R496, R497). -/
def Act.withResult (s : State) (l : Loop) (f : Result → Act) : Act :=
  match l.wiring, l.result with
  | 0, _ => .refuse s .policy 0x00F6
  | _, none => .refuse s .busy 0x00F5
  | _, some r => f r

/-- LOOP.READ (R497). -/
def doLoopRead (rq : Rq) (s : State) : Act :=
  let i := at8 rq.body 0
  Act.guard s (needLength rq 4 ++ s.needStamp ++ needZero rq 1 3 ++ s.loopChecks rq i)
    (.withResult s (s.loop i) (fun r => .done .ok 0 (s.loopBody (s.loop i) i r []) s))

/-- LOOP.REPORT (R498): of the result that was the latest at acceptance (Table 14-7). -/
def doLoopReport (rq : Rq) (s : State) : Act :=
  let b := rq.body
  let i := at8 b 0
  let l := rq.loop.getD (s.loop i)
  Act.guard s
    (needLength rq 20 ++ s.needStamp ++ s.needRandom ++ s.loopChecks rq i ++ selectorChecks (at8 b 1) (fld b 2 2))
    (.withResult s l (fun r => signReport rq (at8 b 1) (fld b 2 2) (fun s => s.loopBody l i r (b.drop 4)) s))

/-! ### LOOP.HART -/

/-- The commands of Table 14-2 that a tenant may pass through. -/
def passThrough : List Nat := [0, 1, 2, 3, 7, 8, 9, 12, 13, 14, 15, 16, 20, 48]

/-- A command sent to an instrument: by its unique identifier once Command 0 has given it (R488). -/
def State.sendHart (s : State) (i : Nat) (t : HartTx) (data : List Byte) : State :=
  let uid := (((s.loop i).insts.find? (fun e => e.addr == t.addr)).map (·.uid)).getD []
  (s.setLoop i { s.loop i with tx := some t }).emit (.hart i t.addr (if t.command = 0 then [] else uid) t.command data)

/-- LOOP.HART (R490, R496, R499): it runs after the transaction in progress (Table 14-7). -/
def doLoopHart (rq : Rq) (s : State) : Act :=
  let b := rq.body
  let i := at8 b 0
  Act.guard s
    ([(decide (b.length < 4) || b.length != 4 + at8 b 3, .length, 0)] ++ s.loopChecks rq i ++
      [((s.loop i).wiring == 0 || !(s.loop i).hart, .policy, 0x00F6), (decide (15 < at8 b 1), .range, 0),
       (at8 b 2 ∉ passThrough, .policy, 0x00F3), (s.live.any (fun l => l.job == .hart i), .busy, 0x00F4)])
    (.park (.hart i)
      (if (s.loop i).tx.isSome then s else s.sendHart i ⟨at8 b 1, at8 b 2, true⟩ (b.drop 4)))

/-- Whether a switch of a domain is in flight. -/
def State.switching (s : State) (d : Nat) : Bool :=
  s.live.any (fun l => l.job == .domainOff d || l.job == .domainOn d)

/-- Whether a loop is measured. -/
def State.measured (s : State) (i : Nat) : Bool :=
  (s.loop i).wiring != 0 && s.pow.loopOn && !s.pow.loopFail

/-- The polling addresses of a loop (R484). -/
def Loop.polls (l : Loop) : List Nat := if l.drops = 0 then [0] else (List.range 15).map (· + 1)

/-- The commands of one scan (R489): Command 3 to every expected instrument in turn, after Command 0 where it has missed three
scans in a row. Before the first scan, and while no instrument has answered, Command 0 goes to each polling address. -/
def Loop.scanList (l : Loop) : List (Nat × Nat) :=
  if !l.polled || l.expected.isEmpty then l.polls.map (fun a => (a, 0))
  else l.expected.flatMap (fun e => (if 3 ≤ e.missed then [(e.addr, 0)] else []) ++ [(e.addr, 3)])

/-- The next transaction of a loop whose last one has ended: a LOOP.HART that waits, else the scan (Table 14-7, R489). No
transaction begins once the loop domain is to be switched off (R500). -/
def State.nextHart (s : State) (i : Nat) : State :=
  let l := s.loop i
  if l.tx.isSome || !s.pow.ready || !s.measured i || !l.hart || s.switching 7 then s
  else
    match s.live.find? (fun q => q.job == .hart i) with
    | some q => s.sendHart i ⟨at8 q.rq.body 1, at8 q.rq.body 2, true⟩ (q.rq.body.drop 4)
    | none =>
      match (if l.todo.isEmpty then l.scanList else l.todo) with
      | [] => s
      | (a, c) :: r => (s.setLoop i { l with todo := r, polled := true }).sendHart i ⟨a, c, false⟩ []

/-- The scans of every loop (R489). -/
def State.scanLoops (s : State) : State := (List.range 8).foldl State.nextHart s

/-! ### LOOP.ASSIGN and LOOP.POWER -/

/-- Whether a number is a power of two from 1 to 1,024. -/
def windowOk (w : Nat) : Bool := (List.range 11).any (fun k => w == 2 ^ k)

/-- Whether the values of a LOOP.ASSIGN break their ranges or R484. -/
def assignBad (b : List Byte) : Bool :=
  let slice := at8 b 1
  let wiring := at8 b 2
  let drops := at8 b 3
  decide (7 < at8 b 0) || (decide (63 < slice) && slice != 0xFF) || decide (2 < wiring) || drops == 1
    || decide (15 < drops) || decide (1 < at8 b 4) || !windowOk (fld b 6 2) || (decide (2 ≤ drops) && at8 b 4 == 0)
    || (wiring == 1 && decide (6 < drops))

/-- The loop after an assignment (Table 14-7): a changed window is abandoned, and a result of another assignment is
cleared. Another wiring, other drops or HART switched begin the scan anew; a LOOP.HART that runs completes (log entry 156). -/
def Loop.assign (l : Loop) (b : List Byte) : Loop :=
  let m := { l with
    slice := at8 b 1, wiring := at8 b 2, drops := at8 b 3, hart := at8 b 4 == 1, window := fld b 6 2
    low := fld b 8 4, high := fld b 12 4, hyst := fld b 16 4 }
  if m = l then l
  else
    let same := m.wiring == l.wiring && m.drops == l.drops && m.hart == l.hart
    { m with
      start := none, mains := false, satur := false
      result := if same && m.slice == l.slice then l.result else none
      insts := if same then l.insts else []
      tx := if same then l.tx else l.tx.filter (·.pass)
      todo := if same then l.todo else [], polled := same && l.polled
      lowOn := l.lowOn && m.low != 0, highOn := l.highOn && m.high != 0 }

/-- LOOP.ASSIGN (R495). -/
def doLoopAssign (rq : Rq) (s : State) : Act :=
  let b := rq.body
  let i := at8 b 0
  Act.guard s
    (needLength rq 24 ++ needZero rq 5 1 ++ needZero rq 20 4 ++ [(assignBad b, .policy, 0x00F2)] ++ s.loopChecks rq i)
    (.done .ok 0 [] ((s.setLoop i ((s.loop i).assign b)).nextHart i))

/-- The state of a domain, as a reply of POWER.DOMAIN carries it; LOOP.POWER has no reply payload. -/
def stateReply (rq : Rq) (on : Bool) : List Byte := if rq.op == .powerDomain then [byte (b01 on)] else []

/-- Every LOOP.HART that waits for its turn ends with ST_DOMAIN_OFF (R500). -/
def State.dropHart (s : State) : State :=
  (List.range 8).foldl (fun s i =>
    if ((s.loop i).tx.map (·.pass)).getD false then s
    else s.finish (fun l => l.job == .hart i) (fun _ s => .refuse s .domainOff 0x00F0)) s

/-- A switch of the loop domain (R500, R567): the state already in force changes nothing. A LOOP.HART that waits when the
domain is to be switched off ends with ST_DOMAIN_OFF. -/
def switchLoops (rq : Rq) (on : Bool) (s : State) : Act :=
  if s.pow.loopOn == on && !s.switching 7 then .done .ok 0 (stateReply rq on) s
  else if on then .park (.domainOn 7) s
  else .park (.domainOff 7) s.dropHart

/-- LOOP.POWER (R500). -/
def doLoopPower (rq : Rq) (s : State) : Act :=
  Act.guard s (needLength rq 4 ++ needZero rq 1 3 ++ [(decide (1 < at8 rq.body 0), .unsupported, 0)])
    (switchLoops rq (at8 rq.body 0 == 1) s)

def execLoopRead (v : Via) (x : Ext) (s : State) : Host.Outcome State Fault Refusal :=
  .next (s.request v x (fun o _ => o == .loopRead) doLoopRead)

def execLoopReport (v : Via) (x : Ext) (s : State) : Host.Outcome State Fault Refusal :=
  .next (s.request v x (fun o _ => o == .loopReport) doLoopReport)

def execLoopHart (v : Via) (x : Ext) (s : State) : Host.Outcome State Fault Refusal :=
  .next (s.request v x (fun o _ => o == .loopHart) doLoopHart)

def execLoopAssign (v : Via) (x : Ext) (s : State) : Host.Outcome State Fault Refusal :=
  .next (s.request v x (fun o _ => o == .loopAssign) doLoopAssign)

def execLoopPower (v : Via) (x : Ext) (s : State) : Host.Outcome State Fault Refusal :=
  .next (s.request v x (fun o _ => o == .loopPower) doLoopPower)

/-! ### Windows -/

/-- `f` on every loop. -/
def State.mapLoops (s : State) (f : Nat → Loop → Loop) : State :=
  (List.range 8).foldl (fun s i => s.setLoop i (f i (s.loop i))) s

/-- Every window abandoned. -/
def State.abandonWindows (s : State) : State := s.mapLoops (fun _ l => { l with start := none, mains := false, satur := false })

/-- The stamp incremented: windows begin at aligned boundaries (R485). -/
def State.startWindows (s : State) : State :=
  s.mapLoops (fun i l =>
    if s.measured i && l.start.isNone && s.ph.c % l.window == 0 then
      { l with start := some s.ph.c, mains := s.ph.st != .lock, satur := false }
    else l)

/-- MAINS of every window in progress while the phase unit is not in LOCK (R487). -/
def State.markMains (s : State) : State :=
  if s.ph.st == .lock then s else s.mapLoops (fun _ l => if l.start.isSome then { l with mains := true } else l)

/-- Whether a reported loop current, IEEE 754 binary32 in mA, differs from a result in nA by more than 0.1 mA (R492). The
comparison is exact, on numbers scaled by 2^149; an infinity differs, a NaN is a free value (log entry 21). -/
def maDiffers (ma : Nat) (mean : Int) : Bool :=
  let e := ma / 2 ^ 23 % 256
  let m := ma % 2 ^ 23
  if e = 255 then (if m = 0 then true else Config.nanDiffers ma)
  else
    let mag : Nat := if e = 0 then m else (2 ^ 23 + m) * 2 ^ (e - 1)
    let v : Int := if bit ma 31 then -(mag : Int) else mag
    decide (100000 * 2 ^ 149 < (v * 1000000 - mean * 2 ^ 149).natAbs)

/-- MISMATCH of an instrument entry (R492). -/
def Loop.mismatch (l : Loop) (i : Inst) (mean : Int) : Bool :=
  l.drops == 0 && i.seen && (bit i.status 3 || maDiffers i.ma mean)

/-- A change at a loop: its event, its bit in LP_EVENT and vector 70 (R494). -/
def State.loopEvent (s : State) (i bitNo code : Nat) (detail : List Byte) : State :=
  let l := s.loop i
  ((s.setLoop i { l with events := setBit l.events bitNo true }).event code noOrigin detail).fire 5

/-- The LOW threshold on a result (R494). -/
def Loop.lowNext (l : Loop) (mean : Int) : Bool :=
  l.low != 0 && (if l.lowOn then decide (mean < l.low + l.hyst) else decide (mean < l.low))

/-- The HIGH threshold on a result (R494). -/
def Loop.highNext (l : Loop) (mean : Int) : Bool :=
  l.high != 0 && (if l.highOn then decide ((l.high : Int) - l.hyst < mean) else decide ((l.high : Int) < mean))

/-- SUM_FAIL (R491). -/
def Loop.sumFails (l : Loop) (mean : Int) : Bool :=
  decide (2 ≤ l.drops) && decide (100000 * (l.drops + 1) < (mean - 4000000 * l.drops).natAbs)

/-- FAULT_LOW and FAULT_HIGH (R493). -/
def Loop.faultLow (l : Loop) (mean : Int) : Bool := l.drops == 0 && decide (mean < 3600000)
def Loop.faultHigh (l : Loop) (mean : Int) : Bool := l.drops == 0 && decide (21000000 < mean)

/-- LFLAGS of a result (Table 14-4). -/
def Loop.flags (l : Loop) (mean : Int) (saturated : Bool) : Nat :=
  b01 (l.lowNext mean) + 2 * b01 (l.highNext mean) + 4 * b01 (l.faultLow mean) + 8 * b01 (l.faultHigh mean)
    + 16 * b01 (l.sumFails mean) + 32 * b01 l.mains + 64 * b01 (saturated || l.satur)
    + 128 * b01 (l.expected.any (fun e => decide (1 ≤ e.missed)))

/-- The loop after a window: its result, its states, and the next window. -/
def State.closeWindow (s : State) (i st : Nat) (mean : Int) (saturated : Bool) : State :=
  let l := s.loop i
  s.setLoop i { l with
    result := some ⟨mean, l.window, st, l.flags mean saturated, l.expected.map (fun e => (e, l.mismatch e mean))⟩
    lowOn := l.lowNext mean, highOn := l.highNext mean, sumOn := l.sumFails mean
    faultLo := l.faultLow mean, faultHi := l.faultHigh mean
    start := some (st + l.window), mains := s.ph.st != .lock, satur := false }

/-- The events of a result, from the states before and after it (R491, R493, R494). -/
def State.windowEvents (s : State) (i : Nat) (l m : Loop) (mean : Int) : State :=
  let cur := be 4 (current32 mean)
  let on := fun (b c : Bool) => !b && c
  let s := if on l.lowOn m.lowOn then s.loopEvent i 0 0x0A01 (byte i :: cur) else s
  let s := if on m.lowOn l.lowOn then s.loopEvent i 2 0x0A03 (byte i :: cur ++ [1#8]) else s
  let s := if on l.highOn m.highOn then s.loopEvent i 1 0x0A02 (byte i :: cur) else s
  let s := if on m.highOn l.highOn then s.loopEvent i 2 0x0A03 (byte i :: cur ++ [2#8]) else s
  let s := if on l.faultLo m.faultLo then s.loopEvent i 3 0x0A04 ([byte i, 1#8] ++ cur) else s
  let s := if on l.faultHi m.faultHi then s.loopEvent i 3 0x0A04 ([byte i, 2#8] ++ cur) else s
  if on l.sumOn m.sumOn then s.loopEvent i 4 0x0A05 ([byte i, byte l.drops] ++ cur) else s

/-- The mean of conversions in nA (R485); how a fraction of a nA is rounded is a free value. -/
def meanOf (convs : List Int) : Int :=
  let sum := convs.foldl (· + ·) 0
  let n : Int := convs.length
  sum / n + (if sum % n = 0 then 0 else if Config.meanUp sum convs.length then 1 else 0)

/-- The end of the readable range of a loop in nA (Table 14-1). -/
def Loop.top (l : Loop) : Int := if l.drops = 0 then 24000000 else if l.wiring = 1 then 28000000 else 64000000

/-- LOOP_WINDOW_END (R485-R487, R491-R494): `first` and `rest` are the conversions of the window, one for each release slot, in
nA. -/
def execLoopWindowEnd (i : Nat) (first : Int) (rest : List Int) (s : State) : Host.Outcome State Fault Refusal :=
  let convs := first :: rest
  .next (match (s.loop i).start with
    | none => s
    | some st =>
      let l := s.loop i
      if !s.measured i || s.ph.c < st + l.window || convs.length != 64 * l.window then s
      else
        let mean := meanOf convs
        let saturated := convs.any (fun c => decide (l.top ≤ c))
        let t := s.closeWindow i st mean saturated
        t.windowEvents i (s.loop i) (t.loop i) mean)

/-! ### HART (R488, R489, R507) -/

/-- The entry of an instrument after a response. Command 3 carries the loop current, the units and the value of the primary
variable in its first nine bytes, Command 0 the unique identifier. PRESUMED (log entry 24): the HART layout of those responses. -/
def Inst.answered (i : Inst) (command status : Nat) (data : List Byte) (c : Nat) : Inst :=
  if command = 0 then { i with status := status, uid := slice data 1 2 ++ slice data 9 3 }
  else if command = 3 then
    { i with status := status, units := at8 data 4, pv := fld data 5 4, ma := fld data 0 4, seen := true, at' := c, missed := 0 }
  else { i with status := status }

/-- The instrument entries of a loop with one changed; a new address takes its place in ascending order. -/
def Loop.setInst (l : Loop) (i : Inst) : Loop :=
  { l with insts := l.insts.filter (fun e => decide (e.addr < i.addr)) ++ [i] ++
      l.insts.filter (fun e => decide (i.addr < e.addr)) }

/-- The entry of an address, fresh where there is none. -/
def Loop.inst (l : Loop) (addr : Nat) : Inst :=
  (l.insts.find? (fun e => e.addr == addr)).getD ⟨addr, 0, 0, 0, 0, false, 0, 0, []⟩

/-- Whether an address is one that the scan of a loop asks. -/
def Loop.scans (l : Loop) (addr : Nat) : Bool :=
  l.hart && (if l.drops = 0 then addr == 0 else decide (1 ≤ addr) && decide (addr ≤ 15))

/-- The instrument entry after a response; more status available (bit 0x10) is read by Command 48 (R489). -/
def State.heard (s : State) (i addr command : Nat) (status : Byte) (data : List Byte) : State :=
  let l := s.loop i
  let l := l.setInst ((l.inst addr).answered command status.toNat data s.ph.c)
  s.setLoop i (if bit status.toNat 4 && command != 48 then { l with todo := (addr, 48) :: l.todo } else l)

/-- A scan transaction: an answer enters the instrument's entry, a missed Command 3 counts (R489, R507). -/
def State.scan (s : State) (i addr command : Nat) (e : HartEnd) : State :=
  let l := s.loop i
  match e with
  | .answer _ status data => s.heard i addr command status data
  | .silent | .error _ _ _ =>
    if command = 3 && (l.expected.any (fun x => x.addr == addr)) then
      let x := l.inst addr
      let s := s.setLoop i (l.setInst { x with missed := x.missed + 1 })
      if x.missed = 2 then s.event 0x0A06 noOrigin [byte i, byte addr, 1#8] else s
    else s

/-- The reply payload of LOOP.HART (R499). -/
def hartReply : HartEnd → List Byte
  | .answer c st d => [0#8, c, st, byte d.length] ++ d.take 255
  | .silent => [1#8, 0#8, 0#8, 0#8]
  | .error c st d => [2#8, c, st, byte d.length] ++ d.take 255

/-- What the transaction that ran on a loop leaves: the reply of its LOOP.HART, or the next state of the scan. An answer to a
command passed through enters the entry of its instrument too. -/
def State.endHart (s : State) (i : Nat) (t : HartTx) (e : HartEnd) : State :=
  if !t.pass then (if (s.loop i).scans t.addr then s.scan i t.addr t.command e else s)
  else
    let s := match e with
      | .answer _ status data => if (s.loop i).scans t.addr then s.heard i t.addr t.command status data else s
      | .silent | .error _ _ _ => s
    s.finish (fun l => l.job == .hart i) (fun _ s => .done .ok 0 (hartReply e) s)

/-- HART_TRANSACTION: the transaction that runs on a loop, a command to an address, has ended with a response or after its
retries, and the next begins (R488, R489, R499). -/
def execHartTransaction (i addr command : Nat) (e : HartEnd) (s : State) : Host.Outcome State Fault Refusal :=
  .next (match (s.loop i).tx with
    | none => s
    | some t =>
      if t.addr != addr || t.command != command then s
      else ((s.setLoop i { s.loop i with tx := none }).endHart i t e).nextHart i)

/-- HART_BURST_FRAME (R488): the frame is discarded. -/
def execHartBurstFrame (i addr : Nat) (s : State) : Host.Outcome State Fault Refusal :=
  .next (if i < 8 && s.measured i && (s.loop i).hart then s.event 0x0A06 noOrigin [byte i, byte addr, 2#8] else s)

/-- LOOP_SUPPLY_LIMIT (R506). CURRENT is a free value (log entry 22). -/
def execLoopSupplyLimit (i : Nat) (s : State) : Host.Outcome State Fault Refusal :=
  let l := s.loop i
  .next (if i < 8 && s.measured i && l.wiring == 1 then
    (s.setLoop i { l with satur := true }).loopEvent i 3 0x0A04 ([byte i, 3#8] ++ be 4 (Config.eventCurrent s.evr.next))
  else s)

/-- Every LOOP.HART in flight ends with ST_FAULT, DETAIL 0x00F7, and no scan goes on. -/
def State.failHart (s : State) : State :=
  (s.live.filter (fun l => match l.job with
    | .hart _ => true
    | _ => false)).foldl (fun s l => { s with live := s.live.erase l }.complete l.rq false .fault 0x00F7 [])
      (s.mapLoops (fun _ l => { l with tx := none, todo := [], polled := false }))

/-- The front end fails (R505): measurement stops on every loop, whose FAULT bits are set (R494). -/
def State.frontEndFault (s : State) : State :=
  let s := ((s.mapPow (fun p => { p with loopFail := true })).abandonWindows).failHart
  let s := s.mapLoops (fun _ l => { l with events := setBit l.events 3 true })
  (s.event 0x0A04 noOrigin ([0xFF#8, 4#8] ++ be 4 (Config.eventCurrent s.evr.next))).fire 5

/-- LOOP_FRONT_END_FAULT (R505). -/
def execLoopFrontEndFault (s : State) : Host.Outcome State Fault Refusal :=
  .next (if s.pow.loopOn && !s.pow.loopFail then s.frontEndFault else s)

/-- The loops of a slice that goes: unassigned, results cleared, measurement going on (Table 14-7). -/
def State.unassign (s : State) (n : Nat) : State :=
  s.mapLoops (fun _ l => if l.slice = n then { l with slice := 0xFF, result := none } else l)

end Sys2Proof.Machine
end

