-- ==== Sys2Proof/Machine/Slice.lean ====
section
/-! DEFINITION. SLICE and CHANNEL commands but emigration (chapter 06), and the placement of runs (R182-R186). -/

namespace Sys2Proof.Machine

/-! ### The slice that a command names -/

/-- A tenant names its own slice only (R197 ff.); the manager names 0-63. -/
def sliceArg (rq : Rq) : List (Bool × Status × Nat) :=
  let n := at8 rq.body 0
  [(match rq.route.tenant with
    | none => false
    | some m => m != n, .spoof, 0x0010), (decide (63 < n), .range, 0)]

/-- The check of R197 on the state of the named slice. -/
def State.stateIn (s : State) (n : Nat) (ok : List SlSt) : List (Bool × Status × Nat) :=
  [((s.slc n).st ∉ ok, .policy, 0x0050)]

/-! ### Placement (R182-R186) -/

/-- First word and end of the slice pool (Table 05-1). -/
def poolFirst : Nat := 0x4A00
def poolEnd : Nat := 0x3FF00

/-- The runs of all slices. -/
def State.runs (s : State) : List Run := s.slices.filterMap (fun e => e.2.run)

/-- Whether `w` words from `b` lie in the pool and meet no run. -/
def State.fitsAt (s : State) (b w : Nat) : Bool :=
  decide (b + w ≤ poolEnd) && s.runs.all (fun r => decide (b + w ≤ r.base) || decide (r.base + r.words ≤ b))

/-- The lowest address where `w` words fit between existing runs (R184). -/
def State.lowestFit (s : State) (w : Nat) : Option Nat :=
  ((poolFirst :: s.runs.map (fun r => r.base + r.words)).filter (fun b => s.fitsAt b w)).min?

/-- An area of `w` words at `b`; none for zero words. -/
def areaAt (b w : Nat) : Option Part := if w = 0 then none else some ⟨b, w⟩

/-- Length of an area. -/
def areaLen (a : Option Part) : Nat := (a.map (·.len)).getD 0

/-- A run at `b` with the three sizes (R182). -/
def runAt (b d f0 f1 : Nat) : Run := ⟨b, d + f0 + f1 + 256, ⟨b, d⟩, areaAt (b + d) f0, areaAt (b + d + f0) f1⟩

/-- The placement of a new run, or the DETAIL of its refusal (R185); 64 slices never need more than 193 of the 256
rules. -/
def State.place (s : State) (d f0 f1 : Nat) : Except Nat Run :=
  let w := d + f0 + f1
  match s.lowestFit (w + 256), s.lowestFit w with
  | some b, _ => .ok (runAt b d f0 f1)
  | none, some _ => .error 0x0031
  | none, none => .error 0x0030

/-- Where the words of a run before its guard band end. -/
def Run.stop (r : Run) : Nat := r.base + r.words - 256

/-- Where the last part of a run ends. -/
def Run.lastEnd (r : Run) : Nat :=
  match r.ft1, r.ft0 with
  | some p, _ => p.base + p.len
  | none, some p => p.base + p.len
  | none, none => r.data.base + r.data.len

/-- An area resized in place; a new one follows the part before it (R184). -/
def resizeArea (old : Option Part) (before w : Nat) : Option Part :=
  match old with
  | some p => areaAt p.base w
  | none => areaAt before w

/-- Whether each part ends before the next one begins. -/
def Run.ordered (r : Run) : Bool :=
  let d := r.data.base + r.data.len
  r.ft0.all (fun p => decide (d ≤ p.base) && r.ft1.all (fun q => decide (p.base + p.len ≤ q.base)))

/-- Where the run still ends at least after a change that removes areas: a gap before the removed last part stays in the run
until SLICE.REMOVE, and so does a gap between two areas that go together (R184). -/
def removedFrom (old new : Run) : Nat :=
  match old.ft0, new.ft0, old.ft1, new.ft1 with
  | some p, none, some q, none => if p.base + p.len < q.base then q.base else p.base
  | some p, none, _, _ => p.base
  | _, _, some q, none => q.base
  | _, _, _, _ => 0

/-- The run with new sizes in place (R184), or the DETAIL of the refusal (R185). -/
def State.resize (s : State) (r : Run) (d f0 f1 : Nat) : Except Nat Run :=
  let data : Part := ⟨r.data.base, d⟩
  let ft0 := resizeArea r.ft0 (data.base + d) f0
  let ft0End := match ft0 with
    | some p => p.base + p.len
    | none => data.base + d
  let new : Run := ⟨r.base, r.words, data, ft0, resizeArea r.ft1 ft0End f1⟩
  let trailing := if r.lastEnd < r.stop then r.stop else 0
  let stop := max new.lastEnd (max (removedFrom r new) trailing)
  let limit := (((s.runs.filter (fun q => decide (r.base < q.base))).map (·.base)).min?).getD poolEnd
  if !new.ordered || (decide (r.stop < stop) && decide (limit < stop)) then .error 0x0030
  else if r.stop < stop && limit < stop + 256 then .error 0x0031
  else .ok { new with words := stop + 256 - r.base }

/-- Words that a part gives up, zero-filled (R186). -/
def State.zeroGiven (s : State) (old new : Option Part) : State :=
  match old with
  | none => s
  | some p => let w := areaLen new; if w < p.len then s.wmZero (p.base + w) (p.len - w) else s

/-- A run put in place of another. -/
def State.setRun (s : State) (n : Nat) (old new : Run) : State :=
  (((s.zeroGiven (some old.data) (some new.data)).zeroGiven old.ft0 new.ft0).zeroGiven old.ft1 new.ft1).setSlc n
    { s.slc n with run := some new }

/-! ### SLICE.CREATE and SLICE.QUOTA -/

/-- The fields of Table 06-2. -/
def quotaOf (b : List Byte) : Nat := fld b 2 2
def dataOf (b : List Byte) : Nat := fld b 4 3
def ft0Of (b : List Byte) : Nat := fld b 8 2
def ft1Of (b : List Byte) : Nat := fld b 10 2

/-- Whether a size of a frame-table area is outside its range. -/
def ftBad (w : Nat) : Bool := w != 0 && (decide (w < 64) || decide (8192 < w) || w % 64 != 0)

/-- The checks of Table 06-2 on a payload (R94, R636). -/
def sizeChecks (rq : Rq) : List (Bool × Status × Nat) :=
  let b := rq.body
  needZero rq 1 1 ++ needZero rq 7 1 ++ needZero rq 12 4 ++ [(ft0Of b == 0 && ft1Of b != 0, .unsupported, 0)] ++ sliceArg rq ++
    [(decide (16128 < quotaOf b) || decide (dataOf b < 1024) || decide (242944 < dataOf b) || dataOf b % 64 != 0
        || ftBad (ft0Of b) || ftBad (ft1Of b), .length, 0)]

/-- Sum of KEY_QUOTA over the slices but one (R199). -/
def State.quotaSum (s : State) (n : Nat) : Nat :=
  ((s.slices.filter (fun e => e.1 != n)).map (fun e => e.2.quota)).sum

/-- Retired slots of the tenant pool (R336). -/
def State.retiredSlots (s : State) : Nat :=
  (s.ks.slots.filter (fun e => decide (0x100 ≤ e.1) && e.2.retired)).length

/-- The check of R199. -/
def State.quotaCheck (s : State) (n q : Nat) : List (Bool × Status × Nat) :=
  [(decide (16128 < s.quotaSum n + q + s.retiredSlots), .policy, 0x0052)]

/-- The reply of R198. -/
def State.runReply (s : State) (n : Nat) : List Byte :=
  match (s.slc n).run with
  | none => zeros 9
  | some r => be 3 r.base ++ be 3 r.words ++ be 3 (s.ctx n).epoch

/-- EV_SLICE (Table 16-4). -/
def State.sliceEvent (s : State) (n action origin : Nat) : State :=
  s.event 0x0401 origin ([byte n, byte action] ++ be 3 (s.ctx n).epoch)

/-- The specification of a slice root or of the manager root (R333): AES-256, DERIVE and WRAP, DUAL. -/
def rootSpec : Spec := ⟨1, 256, 0x30, 0, 1, 0⟩

/-- A root generated in its slot (R333). -/
def State.makeRoot (s : State) (slot owner : Nat) : State :=
  let key := s.makeKey owner slot 0 rootSpec 0 (s.drawBytes 32) [] 0
  (s.drewBytes 32).install slot key

/-- SLICE.CREATE (R198, R199, R336). -/
def doSliceCreate (rq : Rq) (s : State) : Act :=
  let b := rq.body
  let n := at8 b 0
  Act.guard s
    (needLength rq 16 ++ s.needStamp ++ s.needRandom ++ sizeChecks rq ++ s.stateIn n [.free] ++
      [((s.slot (0x40 + n)).retired, .policy, 0x005C)] ++ s.quotaCheck n (quotaOf b))
    (match s.place (dataOf b) (ft0Of b) (ft1Of b) with
     | .error d => .refuse s .policy d
     | .ok r =>
       let s := (s.setSlc n ⟨.created, [], quotaOf b, some r⟩).makeRoot (0x40 + n) n
       let s := (s.advance [n]).sliceEvent n 1 rq.route.origin
       .done .ok 0 (s.runReply n) s)

/-- Whether the command of a release record still runs: GREEN or RIPE. -/
def Rec.running (r : Rec) : Bool := r.st == .green || r.st == .ripe

/-- Whether a slice has commands in flight that a change of its rules waits for (Table 05-6), those of GREEN and RIPE records
whose request a function level reset has dropped among them. -/
def State.ruleUsers (s : State) (n : Nat) : Bool :=
  s.live.any (fun l => l.rq.route.tenant == some n && l.job != .held (.rules n) && l.job != .sliceReset n && l.job != .again)
    || s.recs.any (fun r => r.slice == n && r.running)

/-- The checks of R199 and R200. -/
def State.shrinkChecks (s : State) (n : Nat) (b : List Byte) (r : Run) : List (Bool × Status × Nat) :=
  let shrinks := decide (dataOf b < r.data.len) || decide (ft0Of b < areaLen r.ft0) || decide (ft1Of b < areaLen r.ft1)
  [(decide (quotaOf b < s.poolUsed n) || (shrinks && (s.slc n).st != .quiesced), .policy, 0x0053)] ++
    s.quotaCheck n (quotaOf b)

/-- SLICE.QUOTA (R198-R200, Table 05-6). R197 exempts it in every state. DESIGN CHOICE (log entry 144): a FREE slice has no part
that could grow, so the sizes that the command asks for find no place (R184, R185). -/
def doSliceQuota (rq : Rq) (s : State) : Act :=
  let b := rq.body
  let n := at8 b 0
  Act.guard s (needLength rq 16 ++ sizeChecks rq)
    (match (s.slc n).run with
     | none => Act.guard s (s.quotaCheck n (quotaOf b)) (.refuse s .policy 0x0030)
     | some r =>
       Act.guard s (s.shrinkChecks n b r)
         (if dataOf b = r.data.len && ft0Of b = areaLen r.ft0 && ft1Of b = areaLen r.ft1 then
            let s := s.setSlc n { s.slc n with quota := quotaOf b }
            .done .ok 0 (s.runReply n) s
          else if s.ruleUsers n then .park (.held (.rules n)) s
          else
            match s.resize r (dataOf b) (ft0Of b) (ft1Of b) with
            | .error d => .refuse s .policy d
            | .ok r' =>
              let s := s.setRun n r r'
              let s := s.setSlc n { s.slc n with quota := quotaOf b }
              .done .ok 0 (s.runReply n) s))

/-! ### SLICE.BIND, QUIESCE, RESUME -/

/-- PASID field `i` of SLICE.BIND. -/
def bindField (b : List Byte) (i : Nat) : Nat := fld b (2 + 4 * i) 4

/-- The PASIDs of a SLICE.BIND. -/
def bindPasids (b : List Byte) : List Nat := (List.range (at8 b 1)).map (bindField b)

/-- Whether a PASID conflicts (R202): bound to another slice, or equal to a valid MGR_PASID. -/
def State.pasidTaken (s : State) (n p : Nat) : Bool :=
  (s.hp.valid && s.hp.pasid == p) || s.slices.any (fun e => e.1 != n && p ∈ e.2.pasids)

/-- SLICE.BIND (R201, R202). -/
def doSliceBind (rq : Rq) (s : State) : Act :=
  let b := rq.body
  let n := at8 b 0
  let k := at8 b 1
  Act.guard s
    ([(rq.body.length != 18 || decide (k < 1) || decide (4 < k), .length, 0),
      ((List.range 4).any (fun i => decide (2 ^ 20 ≤ bindField b i) || (decide (k ≤ i) && bindField b i != 0)), .unsupported, 0)]
      ++ sliceArg rq ++ s.stateIn n [.created, .quiesced] ++ [((bindPasids b).any (s.pasidTaken n), .policy, 0x0054)])
    (let v := s.slc n
     .done .ok 0 [] (s.setSlc n { v with pasids := bindPasids b, st := if v.st == .created then .active else v.st }))

/-- SLICE.QUIESCE (R203). -/
def doSliceQuiesce (rq : Rq) (s : State) : Act :=
  let n := at8 rq.body 0
  Act.guard s (needLength rq 1 ++ sliceArg rq ++ s.stateIn n [.active, .quiescing, .quiesced])
    (match (s.slc n).st with
     | .quiesced => .done .ok 0 [] s
     | _ => .park (.quiesce n) (s.setSlc n { s.slc n with st := .quiescing }))

/-- SLICE.RESUME (R204). -/
def doSliceResume (rq : Rq) (s : State) : Act :=
  let n := at8 rq.body 0
  Act.guard s (needLength rq 1 ++ sliceArg rq ++ s.stateIn n [.quiesced])
    (.done .ok 0 [] (s.setSlc n { s.slc n with st := .active }))

/-- Whether requests of a slice are in flight, SLICE.RESETs and repeats apart; a GREEN record is completed before a slice reset
even when a function level reset has dropped its request (Table 08-12). -/
def State.sliceBusy (s : State) (n : Nat) : Bool :=
  s.live.any (fun l => l.rq.route.tenant == some n && l.job != .sliceReset n && l.job != .again)
    || s.recs.any (fun r => r.slice == n && r.st == .green)

/-- Every SLICE.QUIESCE of a slice that waits replies. -/
def State.endQuiesce (s : State) (n : Nat) : State :=
  (s.live.filter (fun l => l.job == .quiesce n)).foldl
    (fun s l => { s with live := s.live.erase l }.complete l.rq false .ok 0 []) s

/-- QUIESCE_COMPLETE (R203): every request past step 10 has ended and every pending write is complete. -/
def execQuiesceComplete (n : Nat) (s : State) : Host.Outcome State Fault Refusal :=
  .next (if (s.slc n).st == .quiescing && !s.sliceBusy n && (s.ctx n).written then
    (s.setSlc n { s.slc n with st := .quiesced }).endQuiesce n
  else s)

/-! ### SLICE.RESET -/

/-- SLICE.RESET (R205). -/
def doSliceReset (rq : Rq) (s : State) : Act :=
  let n := at8 rq.body 0
  let st := (s.slc n).st
  Act.guard s (needLength rq 1 ++ sliceArg rq ++ [(st == .emigrating || st == .immigrating, .emigrating, 0)])
    (.park (.sliceReset n) s)

/-- Whether no completed reply of a context still waits to be written; a ring that is off or halted takes none. -/
def Ctx.drained (c : Ctx) : Bool := c.outbox.isEmpty || !c.cq.enable || c.halt

/-- The slice-reset rows of Tables 04-12 and 05-7, and the new epoch (R205). -/
def State.resetSlice (s : State) (n origin : Nat) : State :=
  let s := (s.setCtx n (s.ctx n).clear).setDpm n .init
  let s := match (s.slc n).run with
    | none => s
    | some r => s.wmZero r.data.base r.data.len
  (s.advance [n]).sliceEvent n 2 origin

/-- SLICE_RESET_COMPLETE (R205): the slice's requests have ended, their replies and writes are at the host, and the slice
is not QUIESCING (Table 06-7). -/
def execSliceResetComplete (n : Nat) (s : State) : Host.Outcome State Fault Refusal :=
  .next (if (s.slc n).st == .quiescing || s.sliceBusy n || !(s.ctx n).written || !(s.ctx n).drained then s
  else s.finish (fun l => l.job == .sliceReset n) (fun l s => .done .ok 0 [] (s.resetSlice n l.rq.route.origin)))

/-! ### SLICE.REMOVE and SLICE.STATUS -/

/-- Every key of an owner destroyed. -/
def State.dropKeys (s : State) (owner origin : Nat) : State :=
  ((s.keys.filter (fun e => e.2.attr.owner == owner)).map (·.1)).foldl (fun s k => s.freeSlot k origin) s

/-- The curves that a slice loaded, erased (Table 12-14). -/
def KeyStore.dropCurves (k : KeyStore) (n : Nat) : KeyStore :=
  { k with curves := k.curves.filter (fun e => !(decide (0x100 + 4 * n ≤ e.1) && decide (e.1 < 0x104 + 4 * n))) }

/-- What SLICE.REMOVE and a settled emigration do (R206, R235). -/
def State.removeSlice (s : State) (n origin : Nat) : State :=
  let s := (s.dropKeys n origin).mapKs (fun k => k.dropCurves n)
  let s := match (s.slc n).run with
    | none => s
    | some r => s.wmZero r.base r.words
  let s := s.setCtx n { s.ctx n with streams := [] }
  ((s.setSlc n .init).unassign n).sliceEvent n 3 origin

/-- SLICE.REMOVE (R206). -/
def doSliceRemove (rq : Rq) (s : State) : Act :=
  let n := at8 rq.body 0
  Act.guard s (needLength rq 1 ++ sliceArg rq ++ s.stateIn n [.created, .quiesced])
    (.done .ok 0 [] (s.removeSlice n rq.route.origin))

/-- A rule word (Table 05-2). -/
def Rule.word (r : Rule) : Nat :=
  (packReg [(0, 12, r.base), (12, 13, r.count), (25, 6, r.slice), (31, 3, r.mgr), (34, 3, r.ten)]).toNat

/-- The payload of Table 06-3. -/
def State.slicePayload (s : State) (n : Nat) : List Byte :=
  let v := s.slc n
  let c := s.ctx n
  let number := match s.ks.transfer with
    | some t => if v.st == .emigrating && t.slice = n then t.number else 0
    | none => 0
  [byte n, byte v.st.code] ++ be 3 c.epoch ++ [byte v.pasids.length] ++ padTo 16 (v.pasids.flatMap (be 4))
    ++ be 2 v.quota ++ be 2 (s.poolUsed n) ++ [byte c.openStreams.length, byte (v.rules n).length]
    ++ padTo 15 ((v.rules n).flatMap (fun r => be 5 r.word)) ++ be 3 c.pendingBytes ++ be 5 number ++ zeros 1

/-- SLICE.STATUS (R207). -/
def doSliceStatus (rq : Rq) (s : State) : Act :=
  Act.guard s (needLength rq 1 ++ sliceArg rq) (.done .ok 0 (s.slicePayload (at8 rq.body 0)) s)

def execSliceCreate (v : Via) (x : Ext) (s : State) : Host.Outcome State Fault Refusal :=
  .next (s.request v x (fun o _ => o == .sliceCreate) doSliceCreate)

def execSliceBind (v : Via) (x : Ext) (s : State) : Host.Outcome State Fault Refusal :=
  .next (s.request v x (fun o _ => o == .sliceBind) doSliceBind)

def execSliceQuota (v : Via) (x : Ext) (s : State) : Host.Outcome State Fault Refusal :=
  .next (s.request v x (fun o _ => o == .sliceQuota) doSliceQuota)

def execSliceQuiesce (v : Via) (x : Ext) (s : State) : Host.Outcome State Fault Refusal :=
  .next (s.request v x (fun o _ => o == .sliceQuiesce) doSliceQuiesce)

def execSliceResume (v : Via) (x : Ext) (s : State) : Host.Outcome State Fault Refusal :=
  .next (s.request v x (fun o _ => o == .sliceResume) doSliceResume)

def execSliceReset (v : Via) (x : Ext) (s : State) : Host.Outcome State Fault Refusal :=
  .next (s.request v x (fun o _ => o == .sliceReset) doSliceReset)

def execSliceRemove (v : Via) (x : Ext) (s : State) : Host.Outcome State Fault Refusal :=
  .next (s.request v x (fun o _ => o == .sliceRemove) doSliceRemove)

def execSliceStatus (v : Via) (x : Ext) (s : State) : Host.Outcome State Fault Refusal :=
  .next (s.request v x (fun o _ => o == .sliceStatus) doSliceStatus)

/-! ### CHANNEL -/

/-- Cached entries of channels removed and their suspension cleared (R214, R215). -/
def State.invalidate (s : State) (addr first count : Nat) : State :=
  let mine := fun (c : Nat) => s.table != some addr || (decide (first ≤ c) && decide (c < first + count))
  let s := { s with table := some addr, cached := s.cached.filter (fun e => !mine e.1) }
  s.chans.foldl (fun s e =>
    if mine e.1 && (e.2.suspended || e.2.evicted) then s.setChan e.1 { e.2 with suspended := false, evicted := false } else s) s

/-- The channels that an invalidation waits for: all of them under a new table address (R215, R216). -/
def State.invalidated (s : State) (b : List Byte) : Nat × Nat :=
  if s.table = some (fld b 0 8) then (fld b 8 2, fld b 10 2) else (0, 256)

/-- Whether a GREEN record belongs to one of some channels (R216). -/
def State.greenIn (s : State) (first count : Nat) : Bool :=
  s.recs.any (fun r => r.st == .green && decide (first ≤ r.ch) && decide (r.ch < first + count))

/-- CHANNEL.INVALIDATE (R214-R216). A FIRST or COUNT outside the layout's range gets ST_LENGTH (R636). DESIGN CHOICE (log entry
146): a TABLE_ADDR that is not 4 KiB aligned gets ST_RANGE, since the spec names no status for it. -/
def doChannelInvalidate (rq : Rq) (s : State) : Act :=
  let b := rq.body
  let first := fld b 8 2
  let count := fld b 10 2
  Act.guard s
    (needLength rq 16 ++ needZero rq 12 4 ++
      [(decide (count < 1) || decide (256 < count) || decide (255 < first) || decide (256 < first + count), .length, 0),
       (fld b 0 8 % 4096 != 0, .range, 0)])
    (let w := s.invalidated b
     if s.greenIn w.1 w.2 then .park (.invalidate w.1 w.2) s
     else .done .ok 0 [] (s.invalidate (fld b 0 8) first count))

/-- A waiting CHANNEL.INVALIDATE whose channels hold no GREEN record any more. -/
def State.canInvalidate (s : State) (l : Live) : Bool :=
  match l.job with
  | .invalidate f n => !s.greenIn f n
  | _ => false

/-- CHANNEL_INVALIDATE_COMPLETE, before held requests are looked at again. -/
def State.endInvalidate (s : State) : State :=
  s.finish s.canInvalidate (fun l s => .done .ok 0 [] (s.invalidate (fld l.rq.body 0 8) (fld l.rq.body 8 2) (fld l.rq.body 10 2)))

/-- The payload of CHANNEL.STATUS (R221). -/
def State.channelPayload (s : State) (n : Nat) : List Byte :=
  let c := s.chan n
  let e := padTo 64 c.entry
  be 2 n ++ [byte (b01 (s.entryOf n).isSome), byte (b01 c.suspended)] ++ be 3 c.gen
    ++ [byte (entryFlags e), byte (entrySlice e)] ++ be 5 (c.backup.getD 0) ++ entryLabel e

/-- CHANNEL.STATUS (R221). -/
def doChannelStatus (rq : Rq) (s : State) : Act :=
  let n := fld rq.body 0 2
  let e := (s.chan n).entry
  Act.guard s
    (needLength rq 2 ++
      [(match rq.route.tenant with
        | none => false
        | some m => decide (255 < n) || e.isEmpty || entrySlice e != m, .access, 0x0051),
       (decide (255 < n), .range, 0)])
    (.done .ok 0 (s.channelPayload n) s)

def execChannelInvalidate (v : Via) (x : Ext) (s : State) : Host.Outcome State Fault Refusal :=
  .next (s.request v x (fun o _ => o == .channelInvalidate) doChannelInvalidate)

def execChannelStatus (v : Via) (x : Ext) (s : State) : Host.Outcome State Fault Refusal :=
  .next (s.request v x (fun o _ => o == .channelStatus) doChannelStatus)

end Sys2Proof.Machine
end

