-- ==== Sys2Proof/Machine/Peer.lean ====
section
/-! DEFINITION. Pairing with a peer (R222-R225) and the move of a slice to it: packages, receipts, refusals and abort notices
(R226-R236, R240, R241). -/

namespace Sys2Proof.Machine

/-! ### Ceremonies that end in PEER.PAIR -/

/-- The open ceremony reaches DONE (R457): LAST_OUTCOME 1 and EV_CEREMONY_DONE. -/
def State.ceremonyDone (s : State) (origin : Nat) : State :=
  match s.cus.cer with
  | none => s
  | some c =>
    (s.mapCus (fun v => { v with cer := none, outcome := 1, exch := none })).event 0x0903 origin
      (be 4 c.number ++ [byte c.type])

/-- Whether a PEER_PAIR ceremony is AUTHORISED (R462). -/
def State.mayPair (s : State) : Bool :=
  match s.cus.cer with
  | none => false
  | some c => c.type == 4 && c.st == .authorised

/-! ### Offers and acceptances (R223, R224) -/

/-- What a chain bundle vouches for: P-384 public key, HSS public key, tree certificate. -/
abbrev PeerKeys := List Byte × List Byte × List Byte

/-- DEVICE_ID under two identity public keys (R363). -/
def deviceIdOf (k : PeerKeys) : List Byte := deviceIdFrom k.1 k.2.1

/-- The body of an offer (TYPE 0x0605) or acceptance (0x0606). -/
def State.pairBody (s : State) (type : Nat) (nonce eph kc : List Byte) : List Byte :=
  be 2 type ++ be 2 284 ++ s.deviceBody s.vpCfgs nonce ++ eph ++ padTo 4 kc ++ zeros 3

/-- The ephemeral public key of an offer or acceptance. -/
def pairEph (blob : List Byte) : List Byte := slice blob 180 97

/-- The checks of R223 on the other module's blob. -/
def State.pairOk (s : State) (type : Nat) (k : PeerKeys) (blob : List Byte) : Bool :=
  blob.length == 3276 && fld blob 0 2 == type && fld blob 2 2 == 284 && fld blob 4 2 == 0x0F01 && fld blob 6 2 == 176
    && slice blob 8 8 == deviceIdOf k && at8 blob 16 == 2 && fld blob 18 2 == s.bank.version
    && (firstFail (p384.pointChecks (pairEph blob))).isNone && dualVerify k (blob.take 284) (blob.drop 284)

/-- The pairing key (R223) from the own ephemeral key and the other's ephemeral public key. -/
def State.pairKeyOf (s : State) (eph : Nat) (blob : List Byte) (peer : List Byte) : List Byte :=
  let z := match p384.mul eph (p384.decode (pairEph blob)) with
    | none => zeros 48
    | some (x, _) => be 48 x
  let ids := if fromBe s.ks.deviceId ≤ fromBe peer then s.ks.deviceId ++ peer else peer ++ s.ks.deviceId
  kdf (hmac .sha384 z) 48 (ascii "D256-PAIR") ids 256

/-- The pairing key destroyed (slot 0x0006). -/
def State.dropPair (s : State) (origin : Nat) : State :=
  if s.ks.pairKey.isNone then s
  else (s.freeDevice 6 origin).mapKs (fun v => { v with pairKey := none, peerId := zeros 8, peerKeys := none })

/-- Pairing complete: the key held in place of an earlier one, EV_PEER_PAIRED, and the ceremony DONE (R462). -/
def State.paired (s : State) (key : List Byte) (k : PeerKeys) (origin : Nat) : State :=
  let s := ((s.dropPair origin).mapKs (fun v =>
    { v with pairKey := some key, peerId := deviceIdOf k, peerKeys := some k, eph := none, offer := [] })).writeDevice 6
  (s.event 0x0406 origin (deviceIdOf k)).ceremonyDone origin

/-- The checks that all three steps share. DESIGN CHOICE (log entry 143): a retired slot 0x0006, which no pairing key can fill
again (R336), is answered as a retired TARGET. -/
def State.pairChecks (s : State) (rq : Rq) : List (Bool × Status × Nat) :=
  let b := rq.body
  let step := at8 b 0
  [(decide (b.length < 36) || decide (4036 < b.length), .length, 0)] ++ s.needStamp ++ s.needRandom ++ needZero rq 1 3 ++
    [(decide (step < 1) || decide (3 < step) || (step == 3 && !descAbsent b 4) || (step == 1 && !descAbsent b 20),
        .unsupported, 0),
     (step == 1 && b.length != 36, .length, 0)] ++
    (if step = 3 then [] else s.needDesc rq 4 2) ++ (if step = 1 then [] else s.needDesc rq 20 1) ++
    [(!s.mayPair, .policy, 0x00EB), ((s.slot 6).retired, .policy, 0x0093), (step != 1 &&
      decide (0x11 ∈ s.ks.gone), .fault, 0x009A)]

/-- The size of OUT against the chain bundle (R223), and the dual signature of the step, then the rest. -/
def Act.withBundle (s : State) (rq : Rq) (k : State → Act) : Act :=
  let d := descAt rq.body 4
  let n := s.chainBundle.length
  if d.len < n then .done .length 0x005D (be 4 n) s
  else Act.guard (s.noteLost rq.route.origin 2 s.ks.hss) (s.dualChecks rq.ctx) (.verified s rq (k s))

/-- STEP 1, on the origin. -/
def pairOffer (rq : Rq) (s : State) : Act :=
  .withBundle s rq (fun s =>
    .withOutput s rq (descAt rq.body 4) s.chainBundle 4 (fun s =>
      let eph := s.drawScalar p384.n
      let s := s.drewBytes 80
      let nonce := s.drawBytes 16
      let s := s.drewBytes 16
      let body := s.pairBody 0x0605 nonce (p384.encode (p384.mul eph p384.gen)) (zeros 4)
      let offer := body ++ s.dualSign body
      .done .ok 0 offer ((s.dualSigned rq.ctx).mapKs (fun v => { v with eph := some eph, offer := offer }))))

/-- STEP 2, on the peer, once the bundle and the offer verify. -/
def pairAccept (rq : Rq) (k : PeerKeys) (offer : List Byte) (s : State) : Act :=
  .withOutput s rq (descAt rq.body 4) s.chainBundle 4 (fun s =>
    let eph := s.drawScalar p384.n
    let s := s.drewBytes 80
    let key := s.pairKeyOf eph offer (deviceIdOf k)
    let body := s.pairBody 0x0606 ((sha256 offer).take 16) (p384.encode (p384.mul eph p384.gen)) (kcv key)
    .done .ok 0 (body ++ s.dualSign body) ((s.dualSigned rq.ctx).paired key k rq.route.origin))

/-- STEP 3, on the origin: the acceptance names the offer and carries the same KCV; the ephemeral key goes in every case
(R224). -/
def pairConfirm (rq : Rq) (bundle acc : List Byte) (s : State) : Act :=
  let s' := s.mapKs (fun v => { v with eph := none, offer := [] })
  match Config.chainKeys bundle s.ks.rootKeys, s.ks.eph with
  | some k, some eph =>
    let key := s.pairKeyOf eph acc (deviceIdOf k)
    Act.guard s'
      [(!s.pairOk 0x0606 k acc || slice acc 164 16 != (sha256 s.ks.offer).take 16 || slice acc 277 4 != kcv key,
        .policy, 0x0056)]
      (.done .ok 0 (deviceIdOf k ++ kcv key) (s.paired key k rq.route.origin))
  | _, _ => .refuse s' .policy 0x0056

/-- PEER.PAIR of every STEP (R223, R462). -/
def doPeerPair (rq : Rq) (s : State) : Act :=
  let b := rq.body
  let blob := b.drop 36
  Act.guard s (s.pairChecks rq)
    (if at8 b 0 = 1 then pairOffer rq s
     else if at8 b 0 = 2 then
       .withBundle s rq (fun s => .withInput s rq 0 (descAt b 20) (fun bundle s =>
         match Config.chainKeys bundle s.ks.rootKeys with
         | none => .refuse s .policy 0x0056
         | some k => Act.guard s [(!s.pairOk 0x0605 k blob, .policy, 0x0056)] (pairAccept rq k blob s)))
     else .withInput s rq 0 (descAt b 20) (fun bundle s => pairConfirm rq bundle blob s))

/-- The highest transfer number received from a module (R231). -/
def KeyStore.received (k : KeyStore) (device : List Byte) : Nat :=
  ((k.highest.find? (fun e => e.1 == device)).map (·.2)).getD 0

/-- A transfer number recorded as received. -/
def KeyStore.receive (k : KeyStore) (device : List Byte) (n : Nat) : KeyStore :=
  { k with highest := k.highest.filter (fun e => e.1 != device) ++ [(device, max n (k.received device))] }

/-- Whether a transfer is open on this origin. -/
def State.transferOpen (s : State) : Bool := s.ks.transfer.isSome

/-- PEER.UNPAIR (R225). -/
def doPeerUnpair (rq : Rq) (s : State) : Act :=
  Act.guard s (needLength rq 0 ++ [(s.transferOpen, .policy, 0x005B)])
    (if s.ks.pairKey.isSome then
       let id := s.ks.peerId
       .done .ok 0 [] ((s.dropPair rq.route.origin).event 0x0407 rq.route.origin id)
     else .done .ok 0 [] s)

/-- PEER.STATUS (R225). -/
def doPeerStatus (rq : Rq) (s : State) : Act :=
  Act.guard s (needLength rq 0)
    (if s.ks.pairKey.isSome then .done .ok 0 (padTo 8 s.ks.peerId ++ be 5 (s.ks.received s.ks.peerId)) s
     else .done .ok 0 (zeros 13) s)

/-! ### Transfer packages (R227-R230) -/

/-- The transfer key (R230). -/
def transferKey (pair : List Byte) (number : Nat) (origin peer : List Byte) : List Byte :=
  kdf (cmac pair) 16 (ascii "D256-XFER") (be 5 number ++ origin ++ peer) 256

/-- A key with TRANSFER filled in its own last hop (R376). -/
def Key.exported (k : Key) (number : Nat) : Key :=
  { k with hops := k.hops.zipIdx.map (fun (h, i) => if i + 1 = k.hops.length then { h with transfer := number } else h) }

/-- The keys of a slice that a package carries, root first: those that are not orphaned (log entry 26). -/
def State.transferKeys (s : State) (n : Nat) : List (Nat × Key) :=
  s.keys.filter (fun e => e.2.attr.owner == n && !s.orphaned e.2)

/-- Length of a key record (Tables 09-8, 10-4). -/
def State.recordLen (s : State) (k : Key) : Nat := 134 + 24 * k.hops.length + kwpLen (s.material k).length

/-- The key records of a package, a salt drawn for each. -/
def State.records (s : State) (xfer : List Byte) (ks : List (Nat × Key)) : List Byte × State :=
  ks.foldl (fun (acc, s) (i, k) =>
    (acc ++ wrapBlob 0x0902 xfer k.attr (s.provenance i k (zeros 16)) (s.drawBytes 16) (s.material k), s.drewBytes 16))
    ([], s)

/-- The channels whose entry last in force names a slice, each with its record (Table 06-5). -/
def State.channelRecords (s : State) (n : Nat) : List (List Byte) :=
  (s.chans.filter (fun e => !e.2.entry.isEmpty && entrySlice e.2.entry == n)).map (fun e =>
    be 2 e.1 ++ be 5 (e.2.backup.getD 0) ++ zeros 1)

/-- The header of a package (Table 06-5). -/
def State.packageHead (s : State) (n number keys chans len : Nat) : List Byte :=
  be 2 0x0601 ++ be 2 1 ++ s.ks.deviceId ++ padTo 8 s.ks.peerId ++ be 5 number ++ [byte n] ++ be 2 keys ++ be 2 chans
    ++ zeros 2 ++ s.ph.stamp ++ be 4 len ++ zeros 4

/-- Length of the package of a slice. -/
def State.packageLen (s : State) (n : Nat) : Nat :=
  48 + ((s.transferKeys n).map (fun e => s.recordLen e.2)).sum + 8 * (s.channelRecords n).length + 2992

/-- The signed package of a slice under a transfer number, and the state after its values are drawn and the leaf is used. -/
def State.package (s : State) (n number ctx : Nat) : List Byte × State :=
  let ks := (s.transferKeys n).map (fun e => (e.1, e.2.exported number))
  let cs := s.channelRecords n
  let (recs, t) := s.records (transferKey (s.ks.pairKey.getD []) number s.ks.deviceId s.ks.peerId) ks
  let body := s.packageHead n number ks.length cs.length (s.packageLen n) ++ recs ++ cs.flatMap (fun c => c)
  (body ++ t.dualSign body, t.dualSigned ctx)

/-- Keys of a slice with a change. -/
def State.mapKeys (s : State) (n : Nat) (f : Key → Key) : State :=
  (s.keys.filter (fun e => e.2.attr.owner == n)).foldl
    (fun s e => s.setSlot e.1 { s.slot e.1 with key := some (f e.2) }) s

/-- Buffer descriptors of a payload. -/
def descsAt (b : List Byte) (at' k : Nat) : List Desc := (List.range k).map (fun i => descAt b (at' + 16 * i))

/-- The checks of `k` descriptors. -/
def State.needDescs (s : State) (rq : Rq) (at' k dir : Nat) : List (Bool × Status × Nat) :=
  (List.range k).flatMap (fun i => s.needDesc rq (at' + 16 * i) dir)

/-- Bytes written through descriptors in turn. -/
def State.outputs (s : State) (owner : Nat) (ds : List Desc) (bytes : List Byte) : State :=
  match ds with
  | [] => s
  | d :: r => (s.output owner d (bytes.take d.len)).outputs owner r (bytes.drop d.len)

/-- The slice frozen and EMIGRATING, its streams closed and its loops unassigned (R228). -/
def State.freeze (s : State) (n number : Nat) (pkg : List Byte) (keys : Nat) : State :=
  let s := s.mapKeys n (fun k => { k.exported number with frozen := true })
  let s := (s.setSlc n { s.slc n with st := .emigrating }).unassign n
  let s := s.setCtx n { s.ctx n with streams := [] }
  s.mapKs (fun v => { v with transfer := some ⟨number, n, sha256 pkg, keys⟩ })

/-- The effect of SLICE.EMIGRATE once its checks have passed (R228, R240). -/
def emigrate (fails : Option DmaErr) (rq : Rq) (s : State) : Act :=
  let n := at8 rq.body 0
  let number := s.ks.counter + 1
  let keys := (s.transferKeys n).length
  let (pkg, t) := s.package n number rq.ctx
  let t := t.mapKs (fun v => { v with counter := number })
  match s.dmaStop rq.owner, fails with
  | some c, _ => .refuse (t.dmaEvent rq.route.origin rq.owner 7 c) .access 0x0020
  | none, some e => .refuse (t.dmaEvent rq.route.origin rq.owner 7 (dmaCode e)) .access 0x0020
  | none, none =>
    .done .ok 0 (be 5 number ++ be 4 pkg.length)
      ((t.freeze n number pkg keys).outputs rq.owner (descsAt rq.body 2 (at8 rq.body 1)) pkg)

/-- SLICE.EMIGRATE (R228, R240). The key records are wrapped on a lane (R392). `fails` tells how a write of the package fails. -/
def doSliceEmigrate (fails : Option DmaErr) (rq : Rq) (s : State) : Act :=
  let b := rq.body
  let n := at8 b 0
  let k := at8 b 1
  let len := s.packageLen n
  Act.guard s
    ([(decide (k < 1) || decide (4 < k) || b.length != 2 + 16 * k, .length, 0)] ++ s.needStamp ++ s.needRandom ++
      s.needDescs rq 2 k 2 ++ sliceArg rq ++ s.stateIn n [.quiesced] ++
      [(s.ks.pairKey.isNone, .policy, 0x0055), (s.transferOpen, .busy, 0x005B)])
    (if ((descsAt b 2 k).map (·.len)).sum < len then .done .length 0 (be 5 0 ++ be 4 len) s
     else
       Act.guard (s.noteLost rq.route.origin 2 s.ks.hss) (s.dualChecks rq.ctx)
         (.twice s rq 5 0 (fun s => .onLane s rq (fun s => .verified s rq (emigrate fails rq s)))))

/-! ### Settlement statements (R234) -/

/-- The body of Table 06-6. -/
def settleBody (type : Nat) (origin peer : List Byte) (number reason keys : Nat) (stamp digest : List Byte) : List Byte :=
  be 2 type ++ be 2 72 ++ padTo 8 origin ++ padTo 8 peer ++ be 5 number ++ [byte reason] ++ be 2 keys ++ padTo 8 stamp
    ++ padTo 32 digest ++ zeros 4

/-- Whether a statement of a TYPE verifies under the peer's keys (R372, R234). -/
def State.settleOk (s : State) (type : Nat) (b : List Byte) : Bool :=
  match s.ks.peerKeys with
  | none => false
  | some k => b.length == 3064 && fld b 0 2 == type && fld b 2 2 == 72 && dualVerify k (b.take 72) (b.drop 72)

/-- Whether a statement of the peer names the open transfer: its number, both modules and the package. -/
def State.namesTransfer (s : State) (b : List Byte) : Bool :=
  match s.ks.transfer with
  | none => false
  | some t => slice b 4 8 == s.ks.deviceId && slice b 12 8 == s.ks.peerId && slice b 36 32 == t.digest

/-- The number of the open transfer, if any. -/
def State.transferNumber (s : State) : Option Nat := s.ks.transfer.map (·.number)

/-- The open transfer undone on the origin (R235, R236): keys unfrozen, slice QUIESCED, EV_TRANSFER_REFUSED. -/
def State.undoTransfer (s : State) (reason origin : Nat) : State :=
  match s.ks.transfer with
  | none => s
  | some t =>
    let s := (s.mapKeys t.slice (fun k => { k with frozen := false })).setSlc t.slice { s.slc t.slice with st := .quiesced }
    (s.mapKs (fun v => { v with transfer := none })).event 0x0405 origin (be 5 t.number ++ [byte reason, 0#8])

/-- The open transfer settled by a receipt (R235). -/
def State.settle (s : State) (origin : Nat) : State :=
  match s.ks.transfer with
  | none => s
  | some t =>
    let s := (s.removeSlice t.slice origin).mapKs (fun v => { v with transfer := none })
    s.event 0x0403 origin (be 5 t.number ++ [byte t.slice] ++ be 2 t.keys)

/-- SLICE.RECEIPT, on the origin (R235). -/
def doSliceReceipt (rq : Rq) (s : State) : Act :=
  let b := rq.body
  Act.guard s
    (needLength rq 3064 ++
      [(s.transferNumber != some (fld b 20 5), .policy, 0x0057),
       (!s.settleOk 0x0602 b || !s.namesTransfer b, .policy, 0x0056)])
    (.twice s rq 5 0 (fun s => .done .ok 0 [] (s.settle rq.route.origin)))

/-! ### Installing a package (R231-R233, R347, R377) -/

/-- The hop at an offset (Table 10-5). -/
def hopAt (b : List Byte) (i : Nat) : Hop :=
  ⟨slice b i 8, at8 b (i + 8), at8 b (i + 9), fld b (i + 10) 2, fld b (i + 12) 5, fld b (i + 17) 5⟩

/-- A lineage with one more hop: a 17th drops the second and sets TRIMMED (R377). -/
def addHop (hs : List Hop) (pflags : Nat) (h : Hop) : List Hop × Nat :=
  if hs.length < 16 then (hs ++ [h], pflags) else (hs.take 1 ++ hs.drop 2 ++ [h], setBit pflags 3 true)

/-- The key records at the front of a byte string. -/
def splitRecords : (fuel : Nat) → List Byte → Option (List (List Byte) × List Byte)
  | 0, b => some ([], b)
  | f + 1, b =>
    let n := fld b 2 2
    if n < 58 || 4096 < n || b.length < n || fld b 0 2 != 0x0902 then none
    else
      match splitRecords f (b.drop n) with
      | none => none
      | some (rs, r) => some (b.take n :: rs, r)

/-- Slots of the origin with the slots that their keys have got here. -/
abbrev SlotMap := List (Nat × Nat)

/-- The slot of the origin that a key record names in its provenance statement. -/
def recordSlot (r : List Byte) : Nat := fld r 38 2

/-- One key record installed (R231, R232, R347, R432), or the DETAIL of the refusal. -/
def State.installRecord (s : State) (n : Nat) (xfer : List Byte) (m : SlotMap) (r : List Byte) :
    Except Nat (State × SlotMap) :=
  let a := attrAt r 4
  let root := a.level == 1
  match openBlob xfer r, (if root then some 0 else (m.find? (fun e => e.1 == a.parent)).map (·.2)) with
  | some plain, some parent =>
    let loaded := (a.type == 0x10 || a.type == 0x11) && loadedCurveId a.size
    let cut := if loaded then 4 + 6 * at8 plain 0 else 0
    let fit : Except Nat (Nat × State) :=
      if loaded then
        match s.tryCurve n (plain.take cut) with
        | .refuse _ _ => .error 0x0058
        | .held i => .ok (i, s)
        | .new i c => .ok (i, s.setCurve i c)
      else .ok (a.size, s)
    match fit with
    | .error d => .error d
    | .ok (size, s) =>
      let enc := plain.drop cut
      let pubType := publicType a.type
      if enc.length ≠ (if pubType then s.publicLen n a.type size else s.secretLen n a.type size) then .error 0x0056
      else
        match (if root then (if (s.slot (0x40 + n)).retired then none else some (0x40 + n)) else s.lowestFree n) with
        | none => .error 0x0058
        | some slot =>
          let hop : Hop := ⟨s.ks.deviceId, 3, n, slot, 0, s.ph.c⟩
          let old := (List.range (at8 r 60)).map (fun i => hopAt r (118 + 24 * i))
          let (hops, pflags) := addHop old (at8 r 61) hop
          let attr := { a with
            size := size, origin := 3, parent := parent, parentGen := (s.slot parent).gen, gen := (s.slot slot).gen
            owner := n }
          let pub := if pubType then enc else s.publicOf n a.type size enc
          let key : Key :=
            { attr := attr, secret := if pubType then [] else secretOf a.type enc, pub := pub, hops := hops
              pflags := pflags, gcm := 0, gcmMem := 0, hss := Hss.at (nextOf a.type enc), frozen := false
              flash := Flash.init.write s.ph.c }
          .ok (s.setSlot slot { s.slot slot with key := some key, lostHss := none }, (recordSlot r, slot) :: m)
  | _, _ => .error 0x0056

/-- Key records installed in turn. -/
def State.installRecords (s : State) (n : Nat) (xfer : List Byte) (m : SlotMap) : List (List Byte) → Except Nat State
  | [] => .ok s
  | r :: rs =>
    match s.installRecord n xfer m r with
    | .error d => .error d
    | .ok (s, m) => s.installRecords n xfer m rs

/-- A channel's highest accepted sequence number raised (R231). -/
def Chan.raise (c : Chan) (h : Nat) : Chan :=
  if h ≤ c.backup.getD 0 then c
  else
    { c with
      top := max c.top (h + 1), backup := some h, mask := if c.top < h + 1 then 2 ^ 64 - 1 else c.mask
      flash := if c.backup.getD 0 / 1024 = h / 1024 then c.flash else h }

/-- The channel records of a package applied. -/
def State.raiseChannels (s : State) (cs : List (List Byte)) : State :=
  cs.foldl (fun s c => if fld c 0 2 < 256 then s.setChan (fld c 0 2) ((s.chan (fld c 0 2)).raise (fld c 2 5)) else s) s

/-- Whether a package is whole and signed by the paired peer. -/
def State.packageSigned (s : State) (p : List Byte) : Bool :=
  match s.ks.peerKeys with
  | none => false
  | some k => decide (3040 ≤ p.length) && fld p 0 2 == 0x0601 && fld p 2 2 == 1 && fld p 40 4 == p.length
      && slice p 4 8 == s.ks.peerId && dualVerify k (p.take (p.length - 2992)) (p.drop (p.length - 2992))

/-- The installation of a signed package in a slice, or the DETAIL of its refusal (R231, R232). -/
def State.installPackage (s : State) (n : Nat) (p : List Byte) (origin : Nat) : Except Nat State :=
  let keys := fld p 26 2
  let chans := fld p 28 2
  let number := fld p 20 5
  let xfer := transferKey (s.ks.pairKey.getD []) number (slice p 4 8) (slice p 12 8)
  if slice p 12 8 ≠ s.ks.deviceId then .error 0x0056
  else if number ≤ s.ks.received (slice p 4 8) then .error 0x0057
  else if (s.slc n).quota + 1 < keys then .error 0x0058
  else
    match splitRecords keys ((p.take (p.length - 2992)).drop 48) with
    | none => .error 0x0056
    | some (rs, rest) =>
      let byLevel := (List.range 6).flatMap (fun l => rs.filter (fun r => (attrAt r 4).level == l))
      if rest.length ≠ 8 * chans || (rs.filter (fun r => (attrAt r 4).level == 1)).length ≠ 1 || byLevel.length ≠ rs.length then
        .error 0x0056
      else
        match (s.freeSlot (0x40 + n) origin).installRecords n xfer [] byLevel with
        | .error d => .error d
        | .ok t => .ok (t.raiseChannels (chunksOf 8 chans rest))

/-- A signed statement of this module about a transfer of another origin. -/
def State.settleStatement (s : State) (type reason keys : Nat) (p : List Byte) : List Byte :=
  let body := settleBody type (slice p 4 8) s.ks.deviceId (fld p 20 5) reason keys s.ph.stamp (sha256 p)
  body ++ s.dualSign body

/-- The refusal of a package (R233). -/
def refusePackage (rq : Rq) (d : Nat) (p : List Byte) (s : State) : Act :=
  .verified s rq <|
  let reply := s.settleStatement 0x0603 (d % 256) 0 p
  let t := if s.packageSigned p then s.mapKs (fun v => v.receive (slice p 4 8) (fld p 20 5)) else s
  let t := t.event 0x0405 rq.route.origin (be 5 (fld p 20 5) ++ [byte d, 1#8])
  .done .policy d reply (t.dualSigned rq.ctx)

/-- SLICE.IMMIGRATE once the package is read (R231-R233, R241). -/
def immigrate (rq : Rq) (p : List Byte) (s : State) : Act :=
  let n := at8 rq.body 0
  if !s.packageSigned p then refusePackage rq 0x0056 p s
  else .onLane s rq fun s =>
    match s.installPackage n p rq.route.origin with
    | .error d => refusePackage rq d p s
    | .ok t =>
      .verified s rq <|
      let number := fld p 20 5
      let keys := fld p 26 2
      let reply := s.settleStatement 0x0602 0 keys p
      let t := (t.dualSigned rq.ctx).mapKs (fun v => v.receive (slice p 4 8) number)
      .done .ok 0 reply (t.event 0x0404 rq.route.origin (be 5 number ++ [byte n] ++ be 2 keys))

/-- The manager's input ranges read in turn; `kind` is that of EV_HOST_DMA. -/
def Act.withInputs (s : State) (rq : Rq) (kind : Nat) (f : List Byte → State → Act) : List (Desc × Nat) → List Byte → Act
  | [], acc => f acc s
  | (d, i) :: ds, acc =>
    match s.input rq i d with
    | .data bs => Act.withInputs (s.didInput rq d) rq kind f ds (acc ++ bs)
    | .wait => .park (.held (.writes rq.owner)) s
    | .fail c => .refuse (s.dmaEvent rq.route.origin rq.owner kind c) .access 0x0020

/-- The bytes of a package: its PKG_LEN when the descriptors hold more. -/
def cutPackage (b : List Byte) : List Byte := if 48 ≤ fld b 40 4 && fld b 40 4 ≤ b.length then b.take (fld b 40 4) else b

/-- The checks of SLICE.IMMIGRATE before the package is read (R231). -/
def State.immigrateChecks (s : State) (rq : Rq) : List (Bool × Status × Nat) :=
  let b := rq.body
  let n := at8 b 0
  let k := (b.length - 1) / 16
  [(decide (k < 1) || decide (4 < k) || b.length != 1 + 16 * k, .length, 0)] ++ s.needStamp ++ s.needRandom ++
    s.needDescs rq 1 k 1 ++ sliceArg rq ++ s.stateIn n [.created] ++ [(s.poolUsed n != 0, .policy, 0x0050)]

/-- A slice that goes from CREATED to IMMIGRATING, or back (Table 06-1). -/
def State.setSlcSt (s : State) (n : Nat) (st : SlSt) : State := s.setSlc n { s.slc n with st := st }

/-- SLICE.IMMIGRATE once its slice is IMMIGRATING: the package is read, checked and installed. -/
def runImmigrate (rq : Rq) (s : State) : Act :=
  Act.guard s (s.immigrateChecks rq)
    (Act.guard (s.noteLost rq.route.origin 2 s.ks.hss) (s.dualChecks rq.ctx)
      (Act.withInputs s rq 7 (fun bs s => immigrate rq (cutPackage bs) s)
        (descsAt rq.body 1 ((rq.body.length - 1) / 16)).zipIdx []))

/-- SLICE.IMMIGRATE, on the peer (R231). The slice is IMMIGRATING while the command runs, and CREATED again when it completes or
fails (Table 06-1). A fault installs nothing (R241). -/
def doSliceImmigrate (fault : Bool) (rq : Rq) (s : State) : Act :=
  let n := at8 rq.body 0
  if rq.past && (s.slc n).st == .immigrating then
    match runImmigrate rq (s.setSlcSt n .created) with
    | .done st d p t => .done st d p t
    | .park j t => .park j (t.setSlcSt n .immigrating)
  else
    Act.guard s (s.immigrateChecks rq)
      (if fault then .refuse s .fault 0 else .park (.held .install) (s.setSlcSt n .immigrating))

/-! ### SLICE.REFUSE (R233, R235) -/

/-- SLICE.REFUSE of a package or an abort notice, on the peer: the number is used without installing anything. -/
def refuseHere (rq : Rq) (b : List Byte) (s : State) : Act :=
  let signed := s.packageSigned b || (s.settleOk 0x0604 b && slice b 4 8 == s.ks.peerId && slice b 12 8 == s.ks.deviceId)
  let number := fld b 20 5
  Act.guard s
    [(!signed, .policy, 0x0056), (decide (number ≤ s.ks.received (slice b 4 8)), .policy, 0x0057)]
    (let s := s.mapKs (fun v => v.receive (slice b 4 8) number)
     .done .ok 0 [] (s.event 0x0405 rq.route.origin (be 5 number ++ [0#8, 1#8])))

/-- SLICE.REFUSE (R233, R235): a refusal on the origin; a package or an abort notice on the peer, in the payload or through
input descriptors (log entry 27). -/
def doSliceRefuse (rq : Rq) (s : State) : Act :=
  let b := rq.body
  let k := b.length / 16
  if 1 ≤ k && k ≤ 4 && b.length = 16 * k then
    Act.guard s (s.needDescs rq 0 k 1)
      (Act.withInputs s rq 7 (fun bs s => refuseHere rq (cutPackage bs) s) (descsAt b 0 k).zipIdx [])
  else
    Act.guard s [(decide (b.length < 3040), .length, 0)]
      (if fld b 0 2 = 0x0603 then
         Act.guard s
           [(b.length != 3064, .length, 0), (s.transferNumber != some (fld b 20 5), .policy, 0x0057),
            (!s.settleOk 0x0603 b || !s.namesTransfer b, .policy, 0x0056)]
           (.done .ok 0 [] (s.undoTransfer (at8 b 25) rq.route.origin))
       else refuseHere rq b s)

def execPeerPairOffer (v : Via) (x : Ext) (s : State) : Host.Outcome State Fault Refusal :=
  .next (s.request v x (fun o b => o == .peerPair && at8 b 0 != 2 && at8 b 0 != 3) doPeerPair)

def execPeerPairAcceptance (v : Via) (x : Ext) (s : State) : Host.Outcome State Fault Refusal :=
  .next (s.request v x (fun o b => o == .peerPair && at8 b 0 == 2) doPeerPair)

def execPeerPairStep3 (v : Via) (x : Ext) (s : State) : Host.Outcome State Fault Refusal :=
  .next (s.request v x (fun o b => o == .peerPair && at8 b 0 == 3) doPeerPair)

def execPeerUnpair (v : Via) (x : Ext) (s : State) : Host.Outcome State Fault Refusal :=
  .next (s.request v x (fun o _ => o == .peerUnpair) doPeerUnpair)

def execPeerStatus (v : Via) (x : Ext) (s : State) : Host.Outcome State Fault Refusal :=
  .next (s.request v x (fun o _ => o == .peerStatus) doPeerStatus)

def execSliceEmigrate (v : Via) (x : Ext) (fails : Option DmaErr) (s : State) : Host.Outcome State Fault Refusal :=
  .next (s.request v x (fun o _ => o == .sliceEmigrate) (doSliceEmigrate fails))

def execSliceImmigrate (v : Via) (x : Ext) (fault : Bool) (s : State) : Host.Outcome State Fault Refusal :=
  .next (s.request v x (fun o _ => o == .sliceImmigrate) (doSliceImmigrate fault))

def execSliceReceipt (v : Via) (x : Ext) (s : State) : Host.Outcome State Fault Refusal :=
  .next (s.request v x (fun o _ => o == .sliceReceipt) doSliceReceipt)

def execSliceRefuse (v : Via) (x : Ext) (s : State) : Host.Outcome State Fault Refusal :=
  .next (s.request v x (fun o _ => o == .sliceRefuse) doSliceRefuse)

end Sys2Proof.Machine
end

