-- ==== Sys2Proof/Machine/Tamper.lean ====
section
/-! DEFINITION. TAMPER commands, tamper sources with and without main power, and the restart of the command processor
(chapter 15). -/

namespace Sys2Proof.Machine

/-- The VIEW 1 payload of TAMPER.STATUS (Table 15-3). -/
def State.tamperView1 (s : State) : List Byte :=
  [byte s.tam.life.code, byte s.tam.src] ++ be 2 s.tam.asserted ++ be 2 s.tam.latched ++ be 2 s.tam.cellMv
    ++ [byte s.tam.capHours, byte s.tam.lastSrc, byte s.tam.lastResp, 0#8] ++ padTo 8 s.tam.lastStamp

/-- TAMPER.STATUS (R521). -/
def doTamperStatus (rq : Rq) (s : State) : Act :=
  let view := at8 rq.body 0
  Act.guard s (needLength rq 4 ++ needZero rq 1 3 ++ [(decide (1 < view), .unsupported, 0)])
    (.done .ok 0 (if view = 0 then s.tamperView0 else s.tamperView1) s)

/-- The floor of each source (Table 15-1). -/
def tamperFloors : List Nat := [3, 3, 2, 0, 0, 0, 0, 2, 0, 0, 0, 0, 3, 2, 2, 0]

/-- The responses that a TAMPER.CONFIG asks for. -/
def configResponses (b : List Byte) : List Nat := (List.range 16).map (fun i => at8 b i)

/-- The checks of R519 and R520 on the responses. -/
def State.configChecks (s : State) (b : List Byte) : List (Bool × Status × Nat) :=
  let rs := configResponses b
  [(rs.any (fun r => decide (3 < r)) || decide (7 < fld b 16 2), .unsupported, 0),
   ((List.range 16).any (fun i => decide (rs.getD i 0 < tamperFloors.getD i 0)), .policy, 0x0110),
   ((List.range 16).any (fun i => bit s.tam.fused i && decide (0 < rs.getD i 0)), .policy, 0x0111)]

/-- TAMPER.CONFIG (R519, R520). -/
def doTamperConfig (rq : Rq) (s : State) : Act :=
  let b := rq.body
  Act.guard s (needLength rq 20 ++ needZero rq 18 2 ++ s.configChecks b)
    (let s := s.mapTam (fun t => { t with response := configResponses b, options := fld b 16 2 })
     let s := s.event 0x0B02 rq.route.origin ((sha256 s.tamperView0).take 8)
     .done .ok 0 [] (s.evaluate rq.route.origin))

def execTamperStatus (v : Via) (x : Ext) (s : State) : Host.Outcome State Fault Refusal :=
  .next (s.request v x (fun o _ => o == .tamperStatus) doTamperStatus)

def execTamperConfig (v : Via) (x : Ext) (s : State) : Host.Outcome State Fault Refusal :=
  .next (s.request v x (fun o _ => o == .tamperConfig) doTamperConfig)

/-- Sources watched without main power (Table 15-1). -/
def unpoweredSources : List Nat := [0, 1, 4, 5, 6, 7, 8, 9, 10, 11, 15]

/-- A firing put in the unpowered queue; beyond 64 it is counted in the last entry (R532). -/
def Tamper.enqueue (t : Tamper) (q : Queued) : Tamper :=
  if t.queue.length < 64 then { t with queue := t.queue ++ [q] }
  else
    { t with queue := t.queue.zipIdx.map (fun (e, i) =>
      if i + 1 = t.queue.length then { e with further := sat 16 (e.further + 1) } else e) }

/-- A firing without main power (Table 15-2, last column): queued, latched, and under ERASE the storage root is zeroed. -/
def State.fireUnpowered (s : State) (i : Nat) : State :=
  let r := s.responseOf i
  let s := s.mapTam (fun t =>
    { t with
      asserted := setBit t.asserted i true, latched := setBit t.latched i true
      lastSrc := i, lastResp := r, lastStamp := zeros 8
      alarm := t.alarm || decide (1 ≤ r), lock := t.lock || decide (2 ≤ r), erase := t.erase || decide (3 ≤ r) })
  let s := s.mapTam (fun t => t.enqueue ⟨i, r, s.ph.ticks, 0⟩)
  if 3 ≤ r then s.dropRoot else s

/-- The backup tick count after `n` more ticks of its oscillator. -/
def State.tick (s : State) (n : Nat) : State := s.mapPh (fun p => { p with ticks := p.ticks + n })

/-- SOURCE_FIRES (R510, R511). A transition to DECOMMISSIONED that it begins ends within the row, unless main power fails before
the tombstone is signed (R515). -/
def execSourceFires (i : Nat) (f : Firing) (s : State) : Host.Outcome State Fault Refusal :=
  let s := s.tick f.ticks
  .next (if 16 ≤ i then s
    else if s.pow.main then
      let s := s.assertSource i
      if f.cut then s else s.endDecom
    else if i ∉ unpoweredSources || bit s.tam.fused i || bit s.tam.asserted i then s
    else s.fireUnpowered i)

/-- SOURCE_CLEARS (R510). -/
def execSourceClears (i : Nat) (s : State) : Host.Outcome State Fault Refusal :=
  .next (if bit s.tam.asserted i then s.mapTam (fun t => { t with asserted := setBit t.asserted i false }) else s)

/-- The reply of R517 to a request in flight. -/
def State.answerLocked (s : State) (l : Live) : State :=
  { s with live := s.live.erase l }.complete l.rq false .locked (0x0100 + s.tam.life.code) []

/-- Whether a request waits for the restart of the command processor. -/
def Live.waitsRestart (l : Live) : Bool := l.job == .restart

/-- COMMAND_PROCESSOR_RESTART (R517): every request that was in flight receives ST_LOCKED with the LIFE code. -/
def execCommandProcessorRestart (s : State) : Host.Outcome State Fault Refusal :=
  .next (if s.tam.restart then
    (s.live.filter Live.waitsRestart).foldl State.answerLocked (s.mapTam (fun t => { t with restart := false }))
  else s)

end Sys2Proof.Machine
end

