-- ==== Sys2Proof/Machine/Time.lean ====
section
/-! DEFINITION. Mains time (chapter 02): the judgement of mains cycles, the states of the phase unit, the stamp, slots and
persistence. -/

namespace Sys2Proof.Machine

/-! ### States of the phase unit (Table 02-3, R80, R147) -/

/-- A change of state: vector 66, and MAINS of every loop window in progress while the state is not LOCK. -/
def State.enterPh (s : State) (st : PhSt) : State :=
  let t := (s.mapPh (fun p => { p with st := st })).markMains
  if s.ph.st == st then t else t.fire 1

/-- The start of a stamp cycle: the part of the correction that it takes up. SLEW takes at most 1/16 of a cycle (R49), LOCK
the error of the last crossing (R46); HOLD runs at the period of the last good cycle and keeps the rest (R47, Table 02-3). -/
def Phase.beginCycle (p : Phase) : Phase :=
  match p.st with
  | .slew => { p with corr := max (-0x1000) (min 0x1000 p.left) }
  | .lock => { p with corr := p.left, left := 0 }
  | .hold => { p with corr := 0 }
  | .none | .acquire | .coast | .fault | .stopped => { p with corr := 0, left := 0 }

/-- The phase error of the crossing that the time bus shows now (R46): its signed distance in phase units from the nearest
φ = 0x0000, positive when that lies before the crossing. -/
def Phase.error (p : Phase) : Int := if p.phi ≤ 0x8000 then (p.phi : Int) else (p.phi : Int) - 0x10000

/-- A phase error to be corrected, from the following stamp cycle on; the cycle in progress is that one when the crossing lies
in its first half. -/
def Phase.correct (p : Phase) (err : Int) : Phase :=
  let p := { p with left := err }
  if p.phi ≤ 0x8000 then p.beginCycle else p

/-- Into LOCK with a phase error that is corrected within the following cycle (R46, R80). -/
def State.enterLock (s : State) (err : Int) : State :=
  let old := s.ph.st.code
  let s := ((s.mapPh (fun p => { p with unlocked := false, missing := 0, since := 0 })).enterPh .lock).mapPh (·.correct err)
  s.event 0x0101 noOrigin (be 2 s.ph.freq ++ [byte old])

/-- Into COAST at the mean period of the history, or the nominal one (R48, R80). -/
def State.enterCoast (s : State) : State :=
  let old := s.ph.st.code
  let s := (s.mapPh (fun p => { p with unlocked := true, left := 0, corr := 0 })).enterPh .coast
  s.event 0x0102 noOrigin ([byte old] ++ be 2 s.ph.freq)

/-- A signed 16-bit value as a number below 65,536. -/
def signed16 (e : Int) : Nat := (max (-32768) (min 32767 e) % 65536).toNat

/-- Into SLEW with a phase error (R49, R80). -/
def State.enterSlew (s : State) (err : Int) : State :=
  let s := ((s.mapPh (fun p => { p with missing := 0, since := 0 })).enterPh .slew).mapPh (·.correct err)
  s.event 0x0103 noOrigin (be 2 (signed16 err))

/-- Where C reaches 0xF0_0000_0000 (R83). -/
def stampEnd : Nat := 0xF000000000

/-- The start of a stamp cycle: limits that count per cycle begin again (R374, R556), loop windows begin (R485), slot 0
opens (R58). -/
def State.newCycle (s : State) : State :=
  let n := s.evr.lost
  let code := s.evr.lostCode
  let s := (s.mapEvr (fun e => { e with limited := 0 })).mapKs (fun k => { k with sigs := 0 })
  let s := s.ctxs.foldl (fun s e => if e.2.sigs = 0 then s else s.setCtx e.1 { e.2 with sigs := 0 }) s
  let s := if n = 0 then s
    else (s.mapEvr (fun e => { e with lost := 0, lostCode := 0, overflow := true })).event 0x0D02 noOrigin
      (be 4 (sat 32 n) ++ be 2 code)
  s.startWindows.openSlot (s.ph.c * 64)

/-- C set to a value with φ 0; at 0xF0_0000_0000 the phase unit enters FAULT (R83), and C:φ stays the last stamp issued. -/
def State.setStamp (s : State) (c : Nat) : State :=
  if stampEnd ≤ c then s.enterPh .fault
  else (s.mapPh (fun p => { p with c := c, phi := 0 }.beginCycle)).newCycle

/-- The stamp begins or resumes on the way into `enter` (R54, R68, R70): C is 0 the first time, else the resume value. The
order of the events is that of Table 02-7. -/
def State.beginStamp (s : State) (enter : State → State) : State :=
  if !s.ph.cSet then
    (enter (s.mapPh (fun p => { p with cSet := true, c := 0, phi := 0 }))).newCycle.persist
  else
    match s.ph.waiting with
    | none => s
    | some r =>
      let s := s.mapPh (fun p => { p with waiting := none })
      if stampEnd ≤ r.start then s.enterPh .fault
      else
        let s := s.mapPh (fun p => { p with resume := r.start, resumed := true, fresh := true, c := r.start, phi := 0 })
        ((enter s).event 0x0105 noOrigin (be 5 r.cp ++ [byte r.rule])).newCycle

/-! ### Mains cycles (R42-R44, R46) -/

/-- Whether a period lies in the accepted frequency range of a band (Table 02-1). -/
def inBand (band ns : Nat) : Bool :=
  let (lo, hi) := bandRange band
  decide (lo * ns ≤ 1000000000) && decide (1000000000 ≤ hi * ns)

/-- Whether a mains cycle is good (Table 02-2). -/
def Phase.goodCycle (p : Phase) (m : MainsCycle) : Bool :=
  decide (800 ≤ m.mvRms) && inBand p.band m.periodNs
    && (p.good == 0 || decide (((m.periodNs : Int) - p.period).natAbs * 100 ≤ p.period))
    && decide (45 * m.periodNs ≤ 100 * m.negNs) && decide (100 * m.negNs ≤ 55 * m.periodNs) && m.pos == 1 && m.neg == 1

/-- Whether the crossing that ends a cycle lies within 1/16 of a period of a predicted one: the last crossing that was not
missing plus whole periods of the last good cycle (R44). Before the first good cycle nothing is predicted. -/
def Phase.inWindow (p : Phase) (m : MainsCycle) : Bool :=
  let t := p.since + m.periodNs
  let n := max 1 ((2 * t + p.period) / (2 * p.period))
  p.period == 0 || decide (((t : Int) - (n * p.period : Nat)).natAbs * 16 ≤ p.period)

/-- The phase unit measures the mains: in these states, with main power. -/
def State.observing (s : State) : Bool :=
  s.pow.main && (match s.ph.st with
    | .acquire | .lock | .hold | .coast | .slew => true
    | .none | .fault | .stopped => false)

/-- What one measured cycle leaves: count, history, period and the flags of PH_STATUS; EV_PH_BAND when OUT_OF_BAND rises. -/
def State.measure (s : State) (m : MainsCycle) (g : Bool) : State :=
  let out := !inBand s.ph.band m.periodNs
  let rises := out && !s.ph.outOfBand
  let s := s.mapPh (fun p =>
    { p with
      lowSignal := decide (m.mvRms < 800), outOfBand := out
      good := if g then min 8 (p.good + 1) else 0
      history := if g then (p.history ++ [m.periodNs]).drop (p.history.length - 7) else p.history
      period := if g then m.periodNs else p.period, since := p.since + m.periodNs })
  if rises then s.event 0x0104 noOrigin (be 2 (sat 16 (freqOf m.periodNs))) else s

/-- A crossing that is not missing: it ends the count of missing ones, and the prediction starts again at it (R44). -/
def Phase.crossed (p : Phase) : Phase := { p with missing := 0, since := 0 }

/-- What a crossing that is not missing leads to in LOCK, HOLD and SLEW, by its phase error (R46, R49, Table 02-3). -/
def State.onCrossing (s : State) : State :=
  let err := s.ph.error
  let e := err.natAbs
  match s.ph.st with
  | .lock => if 0x0400 < e then s.enterSlew err else s.mapPh (·.correct err)
  | .hold => if 0x0400 < e then s.enterSlew err else s.enterLock err
  | .slew => if e ≤ 0x0040 then s.enterLock err else s.mapPh (·.correct err)
  | .none | .acquire | .coast | .fault | .stopped => s

/-- MAINS_CYCLE_END (R42-R46, R54, R68, R70). -/
def execMainsCycleEnd (m : MainsCycle) (s : State) : Host.Outcome State Fault Refusal :=
  .next (if !s.observing then s
  else
    let g := s.ph.goodCycle m
    let w := g && s.ph.inWindow m
    let s := s.measure m g
    let s := if w then s.mapPh Phase.crossed else s
    let run := g && s.ph.good == 8
    match s.ph.st with
    | .acquire => if run then s.beginStamp (fun s => s.enterLock 0) else s
    | .coast =>
      if !run then s
      else if s.ph.error.natAbs ≤ 0x0040 then s.enterLock s.ph.error
      else s.enterSlew s.ph.error
    | .lock | .hold | .slew => if w then s.onCrossing else s
    | .none | .fault | .stopped => s)

/-- CROSSING_MISSING (R44, Table 02-3). In ACQUIRE and COAST it is counted once a good cycle has given a prediction. -/
def execCrossingMissing (s : State) : Host.Outcome State Fault Refusal :=
  .next (if !s.observing then s
  else
    let t := s.mapPh (fun p => { p with missing := min 4 (p.missing + 1) })
    match s.ph.st with
    | .lock | .slew => t.enterPh .hold
    | .hold => if 4 ≤ t.ph.missing then t.enterCoast else t
    | .acquire | .coast => if s.ph.period = 0 then s else t
    | .none | .fault | .stopped => s)

/-- ACQUIRE_TIMEOUT (Table 02-3, R68, R70). -/
def execAcquireTimeout (s : State) : Host.Outcome State Fault Refusal :=
  .next (if s.observing && s.ph.st == .acquire && s.ph.cSet then s.beginStamp State.enterCoast else s)

/-! ### Stamp, slots, persistence -/

/-- The slots of the cycle that have not opened yet open in order (R58: no slot is skipped). -/
def State.openRest (s : State) : State :=
  let k := s.ph.phi / 1024
  (List.range (63 - k)).foldl (fun s i => s.openSlot (s.ph.c * 64 + k + 1 + i)) s

/-- STAMP_INCREMENT (R51). -/
def execStampIncrement (s : State) : Host.Outcome State Fault Refusal :=
  .next (if s.ph.issuing then s.openRest.setStamp (s.ph.c + 1) else s)

/-- SLOT_OPEN (R58): the next slot of the cycle, with the double-bit errors found before it opens and while it is open (R193,
R319). -/
def execSlotOpen (ecc : SlotEcc) (s : State) : Host.Outcome State Fault Refusal :=
  let k := s.ph.phi / 1024 + 1
  .next (if !s.ph.issuing || 64 ≤ k then s
  else
    (((s.findEcc ecc.before).mapPh (fun p => { p with phi := k * 1024 })).openSlot (s.ph.c * 64 + k)).findEcc ecc.during)

/-- PERIODIC_PERSISTENCE (R64), `n` backup ticks after the last reading of the count; once per C (R85). -/
def execPeriodicPersistence (n : Nat) (s : State) : Host.Outcome State Fault Refusal :=
  let s := s.tick n
  .next (if s.ph.issuing && s.ph.c % 65536 == 0 && (s.ph.cp != s.ph.c || s.ph.seq == 0) then s.persist else s)

/-- The time bus shows the next φ within the slot (log entry 3). -/
def State.nextPhi (s : State) : State :=
  if s.ph.issuing && s.ph.phi % 1024 < 1023 then s.mapPh (fun p => { p with phi := p.phi + 1 }) else s

/-! ### Band of a commissioning -/

/-- The band named in a COMMISSION comes into force (R69, R71). -/
def State.takeBand (s : State) (band : Nat) : State :=
  if s.ph.band = band then s
  else
    let s := s.mapPh (fun p =>
      { p with band := band, good := 0, history := [], outOfBand := false, missing := 0, since := 0, period := 0 })
    if s.ph.cSet then s.enterCoast
    else if s.ph.st == .none then s.enterPh .acquire
    else s

end Sys2Proof.Machine
end

