-- ==== Sys2Proof/Machine/Ceremony.lean ====
section
/-! DEFINITION. Custodians, ceremonies and the card exchange (chapter 13). The rows that end a card step look at waiting steps
again, so their exec stands in Resume. -/

namespace Sys2Proof.Machine

/-! ### PARAMS and conditions (Table 13-2) -/

/-- Whether four bytes are a serial configuration (Table 13-7). -/
def serialOk (b : List Byte) : Bool := b.length == 4 && decide (at8 b 0 ≤ 7) && decide (at8 b 1 ≤ 7) && zeroAt b 2 2

/-- Sources that can be fused (Table 15-1). -/
def fusable (i : Nat) : Bool := i ∈ [3, 4, 5, 6, 8, 9, 10, 11, 15]

/-- Whether PARAMS fit a TYPE (Table 13-2, R522). -/
def paramsOk (type : Nat) (p : List Byte) : Bool :=
  if type = 1 then p.length == 5 && decide (1 ≤ at8 p 0) && decide (at8 p 0 ≤ 3) && serialOk (p.drop 1)
  else if type = 2 then
    p.length == 3 && decide (at8 p 1 ≤ 7) &&
      ((at8 p 0 == 1 && decide (1 ≤ at8 p 2) && decide (at8 p 2 ≤ 2)) || (at8 p 0 == 2 && at8 p 2 == 0))
  else if type = 3 then p.length == 2 && (at8 p 0 == 0x0A || at8 p 0 == 0x0B) && decide (at8 p 1 ≤ 2)
  else if type = 5 then p.length == 6 && decide (at8 p 0 ≤ 63)
  else if type = 7 then p.length == 2 && (List.range 16).all (fun i => !bit (fld p 0 2) i || fusable i)
  else if type = 9 then serialOk p
  else p.isEmpty

/-- The registration at an index (R450). -/
def State.reg (s : State) (i : Nat) : Option Reg := s.ks.regs.get none i

/-- Every registration with its index. -/
def State.regs (s : State) : List (Nat × Reg) := (List.range 8).filterMap (fun i => (s.reg i).map (fun r => (i, r)))

/-- R453 on a set of registrations. -/
def regsOk (rs : List (Nat × Reg)) : Bool := decide (2 ≤ rs.length) && rs.any (fun r => r.2.role == 1)

/-- Whether a REGISTER ceremony finds its index as it needs it (a retired slot takes no registration again, R336), and leaves
R453 standing. -/
def State.registerOk (s : State) (p : List Byte) : Bool :=
  let i := at8 p 1
  if at8 p 0 = 1 then (s.reg i).isNone && !(s.slot (8 + i)).retired else (s.reg i).isSome &&
    regsOk (s.regs.filter (fun r => r.1 != i))

/-- CARD_ID of a public key (R450). -/
def cardId (pub : List Byte) : List Byte := (sha256 pub).take 8

/-! ### CEREMONY.START (R454, R457, R69, R71) -/

/-- R62 with the exemption of R69 and R459: COMMISSION while C has never been set. -/
def State.startStamp (s : State) (type : Nat) : List (Bool × Status × Nat) :=
  if type = 1 && !s.ph.cSet && (s.ph.st == .none || s.ph.st == .acquire) then [] else s.needStamp

/-- The open ceremony that a START begins. -/
def State.newCeremony (s : State) (type : Nat) (params : List Byte) (origin : Nat) : Cer where
  number := fromBe (s.drawBytes 4)
  type := type
  params := params
  nonce := (s.drewBytes 4).drawBytes 16
  digest := sha256 ([byte type] ++ be 2 params.length ++ params)
  st := .open'
  approvals := []
  enrolled := []
  steps := 0
  comp := zeros 32
  since := if s.ph.issuing then some (s.ph.c, s.ph.phi) else none
  stop := none
  origin := origin

/-- CEREMONY.START (R454, R457). -/
def doCeremonyStart (rq : Rq) (s : State) : Act :=
  let b := rq.body
  let type := at8 b 0
  let params := b.drop 4
  Act.guard s
    ([(decide (b.length < 4) || decide (64 < fld b 2 2) || b.length != 4 + fld b 2 2, .length, 0)] ++ s.startStamp type ++
      s.needRandom ++ needZero rq 1 1 ++
      [(decide (type < 1) || decide (9 < type), .unsupported, 0), (s.cus.cer.isSome, .busy, 0x00E1),
       (s.tam.life.code ∉ ceremonyStates type, .policy, 0x00E0), (!paramsOk type params, .policy, 0x00E7),
       (type == 2 && !s.registerOk params, .policy, 0x00E8)])
    (let c := s.newCeremony type params rq.route.origin
     let s := ((s.drewBytes 4).drewBytes 16).mapCus (fun v => { v with cer := some c, exch := none })
     let s := s.event 0x0901 rq.route.origin (be 4 c.number ++ [byte type])
     .done .ok 0 (be 4 c.number ++ c.nonce ++ c.digest) (if type = 1 then s.takeBand (at8 params 0) else s))

/-! ### Answer to reset and parameters (Tables 13-4, 13-5) -/

/-- What a walk over the interface bytes of an ATR finds: TA1, TC1 and TA2, the protocols offered, the class indicator
(first TA behind T = 15), and where the historical bytes begin. -/
structure Atr where
  ta1    : Option Nat
  tc1    : Nat
  ta2    : Option Nat
  protos : List Nat
  cls    : Option Nat
  at'    : Nat
  hist   : Nat

/-- The interface bytes from position `i` on; `lvl` counts the groups, `t` is the protocol of the group, `y` its presence
bits. -/
def walkAtr (b : List Byte) : (fuel : Nat) → (lvl t y i : Nat) → Atr → Option Atr
  | 0, _, _, _, _, _ => none
  | f + 1, lvl, t, y, i, a =>
    let ta := bit y 0
    let tb := bit y 1
    let tc := bit y 2
    let iB := i + b01 ta
    let iC := iB + b01 tb
    let iD := iC + b01 tc
    let a := { a with
      ta1 := if ta && lvl == 1 then some (at8 b i) else a.ta1
      ta2 := if ta && lvl == 2 then some (at8 b i) else a.ta2
      tc1 := if tc && lvl == 1 then at8 b iC else a.tc1
      cls := if ta && decide (2 < lvl) && t == 15 && a.cls.isNone then some (at8 b i) else a.cls
      at' := iD }
    if bit y 3 then
      let td := at8 b iD
      if b.length ≤ iD then none
      else walkAtr b f (lvl + 1) (td % 16) (td / 16) (iD + 1) { a with protos := a.protos ++ [td % 16] }
    else some a

/-- An ATR taken apart; `none` when it is not valid: TS, length or TCK wrong. Bytes after it are the card's answer to a PPS
(log entry 28). -/
def parseAtr (b : List Byte) : Option (Atr × List Byte) :=
  if at8 b 0 ≠ 0x3B && at8 b 0 ≠ 0x3F then none
  else
    let t0 := at8 b 1
    match walkAtr b 8 1 0 (t0 / 16) 2 ⟨none, 0, none, [], none, 0, t0 % 16⟩ with
    | none => none
    | some a =>
      let tck := a.protos.any (· != 0)
      let n := a.at' + a.hist + b01 tck
      if b.length < max n 2 then none
      else if tck && ((b.take n).drop 1).foldl (fun x y => x ^^^ y) 0#8 ≠ 0#8 then none
      else some (a, b.drop n)

/-- Fi and clock in kHz of a listed Fi code (Table 13-5). -/
def fiOf (code : Nat) : Option (Nat × Nat) :=
  if code = 0 then some (372, 4000) else if code = 1 then some (372, 5000) else if code = 2 then some (558, 5000)
  else if code = 9 then some (512, 5000) else none

/-- Di of a Di code of ISO/IEC 7816-3; none for a reserved code. -/
def diOf (code : Nat) : Option Nat := [none, some 1, some 2, some 4, some 8, some 16, some 32, some 64, some 12,
    some 20].getD code none

/-- The listed Di codes (Table 13-5), largest first, with their values. -/
def listedDi : List (Nat × Nat) := [(5, 16), (4, 8), (3, 4), (2, 2), (1, 1)]

/-- The Fi code and Di code that the D256 proposes for a TA1 (R468), or none: the defaults stay. -/
def proposal (ta1 : Option Nat) : Option (Nat × Nat) :=
  match ta1 with
  | none => none
  | some v =>
    match fiOf (v / 16), diOf (v % 16) with
    | some _, some d => (listedDi.find? (fun e => decide (e.2 ≤ d))).map (fun e => (v / 16, e.1))
    | _, _ => none

/-- The PPS request for a proposal under protocol `t`: PPSS, PPS0 with PPS1, PPS1, PCK. -/
def ppsBytes (t : Nat) (fd : Nat × Nat) : List Byte :=
  let p0 := byte (0x10 + t)
  let p1 := byte (fd.1 * 16 + fd.2)
  [0xFF#8, p0, p1, 0xFF#8 ^^^ p0 ^^^ p1]

/-- The class that an activation ends in: C, then B, then A, as the class indicator permits; without an indicator class A only,
as ISO/IEC 7816-3 has it (log entry 28). 1 A, 2 B, 3 C. -/
def classOf (a : Atr) : Option Nat :=
  let y := (a.cls.getD 1) % 64
  if bit y 2 then some 3 else if bit y 1 then some 2 else if bit y 0 then some 1 else none

/-- The port with the parameters of an ATR, or none when the card needs what is not supported (Table 13-4, R468). -/
def SerialPort.adopt (q : SerialPort) (b : List Byte) (a : Atr) (answer : List Byte) : Option SerialPort :=
  match classOf a with
  | none => none
  | some c =>
    let offered := if a.protos.isEmpty then [0] else a.protos.filter (· != 15)
    let base := { q with cls := c, inverse := at8 b 0 == 0x3F, guard := a.tc1, powered := true }
    let put := fun (t : Nat) (fd : Option (Nat × Nat)) =>
      let f := ((fd.map (·.1)).bind fiOf).getD (372, 3750)
      { base with proto := t, fi := f.1, khz := f.2, di := ((fd.map (·.2)).bind diOf).getD 1 }
    match a.ta2 with
    | some m =>
      let t := m % 16
      let di := (a.ta1.getD 0x11) % 16
      let fi := (a.ta1.getD 0x11) / 16
      if 1 < t || bit m 4 || (fiOf fi).isNone || !(listedDi.any (fun e => e.1 == di)) then none
      else some (put t (some (fi, di)))
    | none =>
      if offered.any (· == 1) || offered.any (· == 0) then
        let t := if offered.any (· == 1) then 1 else 0
        match proposal a.ta1 with
        | none => some (put t none)
        | some fd => some (put t (if answer = ppsBytes t fd then some fd else none))
      else none

/-! ### The card exchange (R463-R465) -/

/-- The AID of R463. -/
def aid : List Byte := [0xF0#8, 0x4D#8, 0x49#8, 0x4F#8, 0x44#8, 0x32#8, 0x35#8, 0x36#8, 0x43#8, 0x55#8]

/-- CHALLENGE of the next step (R464). -/
def State.challenge (s : State) (c : Cer) : List Byte :=
  sha256 (ascii "D256-CEREMONY" ++ s.ks.deviceId ++ c.nonce ++ [byte c.type] ++ c.digest ++ [byte (c.steps + 1)])

/-- Whether the steps of a ceremony fetch components (R465). -/
def Cer.wantsComponent (c : Cer) : Bool := c.type == 3 && at8 c.params 1 != 0

/-- Whether a ceremony takes an ENROL step now (Table 13-2, R460). -/
def State.takesEnrol (s : State) (c : Cer) : Bool :=
  c.type == 1 || (c.type == 8 && s.tam.life == .blank) || (c.type == 2 && at8 c.params 0 == 1 && c.enrolled.isEmpty)

/-- An APDU sent to the card of the exchange. -/
def State.apdu (s : State) (card : Serial) (stage : Stage) (bytes : List Byte) : State :=
  (s.mapCus (fun v => { v with exch := v.exch.map (fun e => { e with stage := stage }) })).emit (.apdu card bytes)

/-- The end of a card step: the card is deactivated, the exchange is over, and the request of the step gets its reply. -/
def State.endStep (s : State) (f : Live → State → Act) : State :=
  match s.cus.exch with
  | none => s
  | some _ => s.endExchange.finish (fun l => l.job == .card) f

/-- A step that fails: the ceremony stays open. -/
def State.failStep (s : State) (st : Status) (detail : Nat) : State := s.endStep (fun _ s => .refuse s st detail)

/-- An ATR that arrived (R467, R468): the parameters in force, and SELECT. An ATR that is not valid is followed by one warm
reset. -/
def State.takeAtr (s : State) (e : Exch) (b : List Byte) : State :=
  match parseAtr b with
  | none =>
    if e.resets = 0 then s.mapCus (fun v => { v with exch := some { e with resets := 1 } }) else s.failStep .policy 0x00E5
  | some (a, r) =>
    match (s.serial e.card).adopt b a r with
    | none => s.failStep .unsupported 0x00E9
    | some q =>
      (s.setSerial e.card q).apdu e.card .select ([0x00#8, 0xA4#8, 0x04#8, 0x00#8, 0x0A#8] ++ aid ++ [0x00#8])

/-- The checks of a CEREMONY.STEP (R455, R457, R459, R464). -/
def State.stepCardChecks (s : State) (rq : Rq) : List (Bool × Status × Nat) :=
  let b := rq.body
  let enrol := at8 b 5 == 2
  [(b.length != 8, .length, 0), (!zeroAt b 6 2 || (at8 b 4 != 1 && at8 b 4 != 2) || (at8 b 5 != 1 &&
    at8 b 5 != 2), .unsupported, 0)] ++
    (match s.cus.cer with
     | none => [(true, .policy, 0x00E2)]
     | some c =>
       [(c.number != fld b 0 4, .policy, 0x00E2), (c.type == 1 && !s.ph.cSet, .busy, 0x00EC)] ++ s.needStamp ++ s.needRandom ++
         [(c.st == .authorised, .policy, 0x00E2), (enrol && !s.takesEnrol c, .policy, 0x00E7)])

/-- The card port of a CEREMONY.STEP. -/
def stepCard (b : List Byte) : Serial := if at8 b 4 = 1 then .cardA else .cardB

/-- CEREMONY.STEP (R455, R457): the card is activated; `present` tells whether one is there, `atr` what it answers to the cold
reset. Steps run one at a time (Table 13-8). -/
def doCeremonyStep (present : Bool) (atr : Option (List Byte)) (rq : Rq) (s : State) : Act :=
  Act.guard s (s.stepCardChecks rq)
    (if s.cus.exch.isSome then .park (.held .step) s
     else
       let card := stepCard rq.body
       if !present || (s.serial card).failed then .refuse s .policy 0x00E5
       else
         let s := (s.setSerial card { s.serial card with powered := true }).emit (.cardPower card true)
         let e : Exch := ⟨card, at8 rq.body 5 == 2, .atr, 0, [], 0, 0⟩
         let s := s.mapCus (fun v => { v with exch := some e })
         match atr with
         | none => .park .card s
         | some b =>
           match parseAtr b with
           | some (a, r) =>
             if ((s.serial card).adopt b a r).isNone then
               .refuse ((s.deactivate card).mapCus (fun v => { v with exch := none })) .unsupported 0x00E9
             else .park .card (s.takeAtr e b)
           | none => .park .card (s.takeAtr e b))

/-! ### Effects (Table 13-2, R523) -/

/-- Whether the approvals of a ceremony suffice (R452, Table 13-2). -/
def State.approved (s : State) (c : Cer) : Bool :=
  let sec := (c.approvals.filter (fun a => a.role == 1)).length
  if c.type = 1 || (c.type = 8 && s.tam.life == .blank) then decide (2 ≤ c.enrolled.length)
  else if c.type = 7 || c.type = 8 then decide (2 ≤ sec)
  else decide (2 ≤ c.approvals.length) && (c.type == 9 || decide (1 ≤ sec))
    && (c.type != 2 || at8 c.params 0 == 2 || !c.enrolled.isEmpty)

/-- Whether an asserted source has the response LOCK or ERASE (Table 15-6). -/
def State.strongAsserted (s : State) : Bool :=
  (List.range 16).any (fun i => bit s.tam.asserted i && !bit s.tam.fused i && decide (2 ≤ s.tam.response.getD i 0))

/-- A serial configuration put in force (Table 13-7). -/
def Custody.configure (v : Custody) (b : List Byte) : Custody := { v with baud := at8 b 0, policy := at8 b 1 }

/-- A registration written or emptied: slot 8 + `i`. -/
def State.setReg (s : State) (i : Nat) (r : Option Reg) (origin : Nat) : State :=
  let s := if (s.reg i).isSome then s.freeDevice (8 + i) origin else s
  let s := s.mapKs (fun k => { k with regs := k.regs.put none i r })
  if r.isSome then s.writeDevice (8 + i) else s

/-- COMMISSION (R86, Table 09-11): storage root and manager root are generated, the cards registered. A retired slot of one of
them takes no key again (R336): the effect fails (log entry 143). -/
def State.commission (s : State) (c : Cer) : Option (State × List Byte) :=
  if s.ph.st != .lock || s.ph.band != at8 c.params 0 || s.strongAsserted || [0, 8, 9, 0x80].any (fun k => (s.slot k).retired) then
    none
  else
    let s := s.drewDelay
    let root := s.drawBytes 32
    let s := ((s.drewBytes 32).mapKs (fun k => { k with root := some root })).makeRoot 0x80 0xFF
    let s := (c.enrolled.take 2).zipIdx.foldl (fun s e => s.setReg e.2 (some ⟨e.1, 1⟩) c.origin) s
    some ((s.mapCus (fun v => v.configure (c.params.drop 1))).toLife .service 1 c.origin, [])

/-- REGISTER (R453). -/
def State.register (s : State) (c : Cer) : Option (State × List Byte) :=
  let i := at8 c.params 1
  if !s.registerOk c.params then none
  else if at8 c.params 0 = 1 then some (s.setReg i ((c.enrolled.head?).map (fun p => ⟨p, at8 c.params 2⟩)) c.origin, [])
  else some (s.setReg i none c.origin, [])

/-- The key slot of a vital port (Table 09-2). -/
def portSlot (p : Port) : Nat := if p == .a then 4 else 5

/-- The key of a vital port destroyed, if it has one: its slot's generation advances. -/
def State.dropPortKey (s : State) (p : Port) (origin : Nat) : State :=
  if (s.vp p).key.isSome then s.freeDevice (portSlot p) origin else s

/-- VP_KEYS (R466): the port starts afresh in its new mode. -/
def State.vpKeys (s : State) (c : Cer) : Option (State × List Byte) :=
  let p : Port := if at8 c.params 0 = 0x0A then .a else .b
  let other : Port := if at8 c.params 0 = 0x0A then .b else .a
  let mode := at8 c.params 1
  let u := s.dropPortKey p c.origin
  if mode = 0 then some ((u.setVp p (s.vp p).disable).evaluate c.origin, zeros 4)
  else if (u.slot (portSlot p)).retired then none
  else
    let key := kdf (cmac c.comp) 16 (ascii "D256-VPKEY") (c.params.take 1 ++ s.ks.deviceId) 256
    if (match (s.vp other).key with
        | none => false
        | some k => kcv k == kcv key) then none
    else
      let v := { (s.vp p).close with mode := if mode = 1 then .plain else .guarded, key := some key }
      some (((u.setVp p v).writeDevice (portSlot p)).evaluate c.origin, kcv key)

/-- How the effect of an approved ceremony ends: done with RESULT, refused so that the ceremony is FAILED, or its last step is
refused with a status of its own and the ceremony stays as it was before that step (log entry 108). -/
inductive Effect where
  | done (s : State) (result : List Byte)
  | failed (s : State)
  | refused (s : State) (st : Status) (detail : Nat)

/-- EMIGRATION_ABORT (R236): the abort notice of the open transfer, under the dual signature (R373, R374, R381-R384). -/
def State.abort (s : State) (c : Cer) (rq : Rq) : Effect :=
  match s.ks.transfer with
  | none => .failed s
  | some t =>
    if t.slice ≠ at8 c.params 0 || t.number ≠ fld c.params 1 5 then .failed s
    else
      match Act.guard (s.noteLost c.origin 2 s.ks.hss) (s.dualChecks rq.ctx) (.verified s rq (.park .card s)) with
      | .done st d _ u => .refused u st d
      | .park _ _ =>
        let body := settleBody 0x0604 s.ks.deviceId s.ks.peerId t.number 0 0 s.ph.stamp t.digest
        .done ((s.dualSigned rq.ctx).undoTransfer 0 c.origin) (body ++ s.dualSign body)

/-- UNLOCK (Table 15-6, R530). -/
def State.unlock (s : State) (c : Cer) : Option (State × List Byte) :=
  if s.tam.life != .locked || s.strongAsserted || (s.tam.split && bit s.tam.latched 14) then none
  else
    let s := (s.drewDelay.mapTam (fun t => { t with split := false })).toLife .service 1 c.origin
    some (s, [byte s.tam.life.code])

/-- One fuse blown (R522, R540). -/
def State.blow (s : State) (origin i : Nat) : State :=
  let s := s.mapTam (fun t =>
    { t with fused := setBit t.fused i true, response := t.response.set i 0, asserted := setBit t.asserted i false })
  s.event 0x0B05 origin [byte i]

/-- FUSE (R522, R540): the fuses of MASK that are not blown yet; `fails` names those that do not blow. The flag tells whether
every one blew. -/
def State.fuse (s : State) (c : Cer) (fails : List Nat) : State × Bool :=
  let want := (List.range 16).filter (fun i => bit (fld c.params 0 2) i && !bit s.tam.fused i)
  let s := (want.filter (· ∉ fails)).foldl (fun s i => s.blow c.origin i) s
  (s.evaluate c.origin, want.all (· ∉ fails))

/-- The effect of an approved ceremony whose last step is the request `rq`; `fails` names fuses that do not blow. -/
def State.effect (s : State) (c : Cer) (fails : List Nat) (rq : Rq) : Effect :=
  let of := fun (r : Option (State × List Byte)) => match r with
    | none => Effect.failed s
    | some x => .done x.1 x.2
  if c.type = 1 then of (s.commission c)
  else if c.type = 2 then of (s.register c)
  else if c.type = 3 then of (s.vpKeys c)
  else if c.type = 5 then s.abort c rq
  else if c.type = 6 then of (s.unlock c)
  else if c.type = 7 then
    let (t, all) := s.fuse c fails
    if all then .done t (be 2 t.tam.fused) else .failed t
  else if c.type = 8 then
    let t := s.drewDelay.decommission c.origin rq.x.verify.isNone
    .done t.awaitRestart (t.ks.tombstone.getD [])
  else .done (s.mapCus (fun v => v.configure c.params)) []

/-- END of a ceremony: the stamp field of the end of its window, zero before it starts. -/
def Cer.endField (c : Cer) : List Byte :=
  match c.stop with
  | none => zeros 8
  | some (k, phi) => be 5 k ++ be 2 phi ++ zeros 1

/-- The payload of Table 13-1. -/
def stepReply (c : Cer) (state index : Nat) (pub result : List Byte) : List Byte :=
  [byte state, byte (min 8 c.approvals.length), byte index, 0#8] ++ cardId pub ++ c.endField ++ be 2 result.length ++ result

/-- Whether a deadline has been reached (R60). -/
def Phase.reached (p : Phase) (d : Nat × Nat) : Bool := decide (d.1 * 65536 + d.2 ≤ p.now)

/-- Whether the time in which a ceremony may accept its next step is over (R457, R458). -/
def State.overdue (s : State) (c : Cer) : Bool :=
  match c.stop, c.since with
  | some d, _ => s.ph.reached d
  | none, some (k, phi) => s.ph.reached (k + 3000, phi)
  | none, none => false

/-- An accepted step (R457 steps 3 to 5): the window starts with the first one, the approval counts, and an approved ceremony
has its effect, decided twice (R523). `old` is the ceremony before the step, `c` with its approval or enrolment. -/
def acceptStep (split : Bool) (fails : List Nat) (old c : Cer) (index : Nat) (pub : List Byte) (l : Live) (s : State) : Act :=
  let rq := { l.rq with x := { l.rq.x with split := split } }
  let stop := c.stop.getD (s.ph.c + 3000, s.ph.phi)
  let c := { c with steps := c.steps + 1, stop := some stop, st := .running, origin := l.rq.route.origin }
  let s := s.event 0x0902 l.rq.route.origin (cardId pub)
  let keep := fun (s : State) (c : Cer) => s.mapCus (fun v => { v with cer := some c })
  if !s.approved c then .done .ok 0 (stepReply c 1 index pub []) (keep s c)
  else
    .twice (keep s c) rq 2 c.type (fun s =>
      if c.type = 4 then
        let c := { c with st := .authorised }
        .done .ok 0 (stepReply c 2 index pub []) (keep s c)
      else
        match s.effect c fails l.rq with
        | .failed t => .refuse (t.endCeremony 4 c.origin) .policy 0x00EA
        | .refused t st d => .refuse (keep t old) st d
        | .done t result => .done .ok 0 (stepReply c 3 index pub result) (t.ceremonyDone c.origin))

/-- A card that has proved its key: its approval or enrolment counted, its component combined (R452, R465, R466). -/
def cardDone (split : Bool) (fails : List Nat) (c : Cer) (e : Exch) (comp : List Byte) (l : Live) (s : State) : Act :=
  let old := c
  if e.enrol then
    let counts := c.type != 2
    let c := { c with
      enrolled := c.enrolled ++ [e.pub]
      approvals := if counts then c.approvals ++ [⟨e.pub, 0xFF, 0⟩] else c.approvals }
    acceptStep split fails old c 0xFF e.pub l s
  else
    match s.regs.find? (fun r => r.2.pub == e.pub) with
    | none => .refuse s .authFail 0x00E3
    | some (i, r) =>
      let c := { c with approvals := c.approvals ++ [⟨e.pub, i, r.role⟩], comp := xorBytes c.comp comp }
      acceptStep split fails old c i e.pub l s

/-- The checks on the card and its signature at SIGN CHALLENGE (R451, R452, R464). -/
def State.cardChecks (s : State) (c : Cer) (e : Exch) (sig : List Byte) : List (Bool × Status × Nat) :=
  let reg := s.regs.find? (fun r => r.2.pub == e.pub)
  let used := if e.enrol then reg.isSome || c.enrolled.any (· == e.pub) else c.approvals.any (fun a => a.pub == e.pub)
  let role := !e.enrol && (match reg with
    | none => true
    | some r => (c.type == 7 || c.type == 8) && r.2.role != 1)
  [(e.pub.length != 65 || (firstFail (p256.pointChecks e.pub)).isSome || role, .authFail, 0x00E3), (used, .policy, 0x00E4),
   (sig.length != 64 || !ecdsaVerify p256 (p256.decode e.pub) (s.challenge c) (fld sig 0 32) (fld sig 32 32), .authFail, 0x00E3)]

/-- The component that GET COMPONENT returns (R465), when it opens to 32 bytes. -/
def componentOf (c : Cer) (e : Exch) (data : List Byte) : Option (List Byte) :=
  match p256.mul e.eph (p256.decode e.pub) with
  | none => none
  | some (x, _) =>
    match kwpOpen (sha256 (be 32 x ++ c.nonce ++ ascii "D256-COMP")) data with
    | none => none
    | some m => if m.length = 32 then some m else none

/-- A step that ends after END (Table 13-8): ST_NOT_FRESH, and the ceremony is EXPIRED. -/
def State.expireStep (s : State) : State := (s.failStep .notFresh 0x00E6).endCeremony 3 noOrigin

/-- Characters of a response taken from the receive queue of a card port. -/
def State.emptyQueue (s : State) (card : Serial) : State := s.setSerial card { s.serial card with queue := [] }

/-- Whether the characters of a T=1 block make it invalid: PARITY, FRAMING or OVERRUN (R472). -/
def SerialPort.blockBad (q : SerialPort) : Bool :=
  q.proto == 1 && q.queue.any (fun e => e.getLsbD 8 || e.getLsbD 10 || e.getLsbD 11)

/-- Whether a character of T=0 still has a wrong parity after all its repetitions: a protocol error (Table 13-4, DETAIL
0x00E5). -/
def SerialPort.charBad (q : SerialPort) : Bool := q.proto == 0 && q.queue.any (fun e => e.getLsbD 8)

/-- An invalid T=1 block (R472, Table 13-4): ERRORS counts it, and it is asked for up to three times again, then once more after
S(RESYNCH); after that the step fails. -/
def State.badBlock (s : State) (card : Serial) : State :=
  let q := s.serial card
  let s := s.setSerial card { q with queue := [], errors := sat 16 (q.errors + 1) }
  match s.cus.exch with
  | none => s
  | some e =>
    if e.card != card then s
    else if e.bad < 4 then
      (s.mapCus (fun v => { v with exch := some { e with bad := e.bad + 1 } })).emit (.cardAgain card (e.bad == 3))
    else s.failStep .policy 0x00E5

/-- The exchange after a response that is valid. -/
def State.goodBlock (s : State) : State := s.mapCus (fun v => { v with exch := v.exch.map (fun e => { e with bad := 0 }) })

/-- A response of the card at the end of its exchange or in the middle of it (R463-R465). -/
def State.cardResponse (s : State) (card : Serial) (data : List Byte) (sw : Nat) (split : Bool) (fails : List Nat) : State :=
  match s.cus.exch, s.cus.cer with
  | some e, some c =>
    let late := s.overdue c
    if e.card != card then s
    else if sw ≠ 0x9000 then s.failStep .policy 0x00E5
    else
      match e.stage with
      | .atr => s
      | .select => s.apdu card .identity [0x80#8, 0xA0#8, 0x00#8, 0x00#8, 0x41#8]
      | .identity =>
        (s.mapCus (fun v => { v with exch := some { e with pub := data } })).apdu card .sign
          ([0x80#8, 0xA2#8, 0x00#8, 0x00#8, 0x20#8] ++ s.challenge c ++ [0x40#8])
      | .sign =>
        match firstFail (s.cardChecks c e data) with
        | some (st, d) => s.failStep st d
        | none =>
          if c.wantsComponent && !e.enrol then
            let eph := s.drawScalar p256.n
            let s := (s.drewBytes 80).mapCus (fun v => { v with exch := some { e with eph := eph } })
            s.apdu card .component
              ([0x80#8, 0xA4#8, 0x00#8, 0x00#8, 0x41#8] ++ p256.encode (p256.mul eph p256.gen) ++ [0x28#8])
          else if late then s.expireStep
          else s.endStep (cardDone split fails c e (zeros 32))
      | .component =>
        match componentOf c e data with
        | none => s.failStep .authFail 0x00E3
        | some m => if late then s.expireStep else s.endStep (cardDone split fails c e m)
  | _, _ => s

/-- No ATR in time (R608): a warm reset once, to which `atr` is the answer; after it the step fails. -/
def State.atrLate (s : State) (card : Serial) (atr : Option (List Byte)) : State :=
  match s.cus.exch with
  | none => s
  | some e =>
    if e.card != card || e.stage != .atr then s
    else
      match atr with
      | some b => s.takeAtr { e with resets := 1 } b
      | none =>
        if e.resets = 0 then s.mapCus (fun v => { v with exch := some { e with resets := 1 } }) else s.failStep .policy 0x00E5

/-- A card removed during its step (R606, Table 13-8). -/
def State.cardGone (s : State) (card : Serial) : State :=
  match s.cus.exch with
  | none => s
  | some e => if e.card == card then s.failStep .policy 0x00E5 else s

/-- A card supply that trips during its step (R480). -/
def State.cardTrip (s : State) (card : Serial) : State :=
  match s.cus.exch with
  | none => s
  | some e =>
    if e.card == card then
      (s.event 0x0905 noOrigin [if card == .cardA then 1#8 else 2#8]).failStep .policy 0x00E5
    else s

/-! ### CEREMONY.CANCEL, CEREMONY.STATUS, time limits -/

/-- CEREMONY.CANCEL (R456); a step that runs meanwhile no longer names the open ceremony. -/
def doCeremonyCancel (rq : Rq) (s : State) : Act :=
  Act.guard s (needLength rq 4)
    (match s.cus.cer with
     | none => .done .ok 0 [] s
     | some c =>
       if c.number = fld rq.body 0 4 then .done .ok 0 [] ((s.failStep .policy 0x00E2).endCeremony 2 rq.route.origin)
       else .done .ok 0 [] s)

/-- The record of a registration in CEREMONY.STATUS. -/
def regBytes (r : Option Reg) : List Byte :=
  match r with
  | none => zeros 10
  | some r => [byte r.role, 0#8] ++ cardId r.pub

/-- The three counters of a serial port. -/
def SerialPort.counters (q : SerialPort) : List Byte := be 2 (sat 16 q.noise) ++ be 2 (sat 16 q.errors) ++ be 2 (sat 16 q.overruns)

/-- STATE of an open ceremony. -/
def CerSt.code : CerSt → Nat
  | .open' => 0 | .running => 1 | .authorised => 2

/-- The payload of CEREMONY.STATUS (R456). -/
def State.ceremonyPayload (s : State) : List Byte :=
  let head := match s.cus.cer with
    | none => zeros 7 ++ [byte s.cus.outcome] ++ zeros 8
    | some c => be 4 c.number ++ [byte c.type, byte c.st.code, byte (min 8 c.approvals.length), byte s.cus.outcome] ++ c.endField
  head ++ (List.range 8).flatMap (fun i => regBytes (s.reg i)) ++ s.cus.cardA.counters ++ s.cus.cardB.counters
    ++ s.cus.console.counters

/-- CEREMONY.STATUS (R456). -/
def doCeremonyStatus (rq : Rq) (s : State) : Act := Act.guard s (needLength rq 0) (.done .ok 0 s.ceremonyPayload s)

/-- The window of the open ceremony has ended (R457 step 6, R462). -/
def State.windowOver (s : State) : Bool :=
  match s.cus.cer with
  | none => false
  | some c => (c.stop.map (fun d => s.ph.issuing && s.ph.reached d)).getD false

/-- The open ceremony has accepted no step in time (R458, R459). -/
def State.openOver (s : State) : Bool :=
  match s.cus.cer with
  | none => false
  | some c => c.stop.isNone && (match c.since with
    | none => true
    | some (k, phi) => s.ph.issuing && s.ph.reached (k + 3000, phi))

def execCeremonyStart (v : Via) (x : Ext) (s : State) : Host.Outcome State Fault Refusal :=
  .next (s.request v x (fun o _ => o == .ceremonyStart) doCeremonyStart)

def execCeremonyStep (v : Via) (x : Ext) (present : Bool) (atr : Option (List Byte)) (s : State) :
    Host.Outcome State Fault Refusal :=
  .next (s.request v x (fun o _ => o == .ceremonyStep) (doCeremonyStep present atr))

def execCeremonyStatus (v : Via) (x : Ext) (s : State) : Host.Outcome State Fault Refusal :=
  .next (s.request v x (fun o _ => o == .ceremonyStatus) doCeremonyStatus)

end Sys2Proof.Machine
end

