-- ==== Sys2Proof/Machine/Host.lean ====
section
/-! DEFINITION. The host port outside the commands (chapter 04): doorbells, the fetch of ring entries and packets, reply entries,
dirty-page maps, MSI-X, and the PCI Express link. -/

namespace Sys2Proof.Machine

/-- Whether a host access reaches a register (R127, R170). -/
def State.hostOn (s : State) : Bool := s.pow.main && s.hp.linkUp && !s.hp.d3hot

/-- The slice field of EV_HOST_DMA for a context index. -/
def dmaSlice (i : Nat) : Nat := if i < 64 then i else 0xFF

/-! ### Doorbells (R135, R140) -/

/-- Entries of a ring. -/
def Ring.size (r : Ring) : Nat := 2 ^ r.sizeLog2

/-- A difference of free-running 16-bit counts. -/
def diff16 (a b : Nat) : Nat := (a + 65536 - b) % 65536

/-- Whether a submission doorbell is accepted. -/
def Ring.tailOk (r : Ring) (v : Nat) : Bool := r.enable && decide (diff16 v r.tail ≤ r.size - diff16 r.tail r.head)

/-- Whether a reply doorbell is accepted. -/
def Ring.headOk (r : Ring) (v : Nat) : Bool := r.enable && decide (diff16 v r.head ≤ diff16 r.tail r.head)

/-- A write of SQ_TAIL. -/
def Ctx.bellSq (c : Ctx) (v : Nat) : Ctx :=
  if c.sq.tailOk (v % 65536) then { c with sq := { c.sq with tail := v % 65536 } } else { c with dbErr := true }

/-- A write of CQ_HEAD. -/
def Ctx.bellCq (c : Ctx) (v : Nat) : Ctx :=
  if c.cq.headOk (v % 65536) then { c with cq := { c.cq with head := v % 65536 } } else { c with dbErr := true }

/-- A change of the context of an owner of rings by a host access. -/
def State.hostCtx (s : State) (o : Owner) (f : Ctx → Ctx) : State :=
  if s.hostOn && ownerOk o then s.setCtx (ownerIdx o) (f (s.ctx (ownerIdx o))) else s

/-- SQ_TAIL (R135). -/
def execSqTail (o : Owner) (v : Nat) (s : State) : Host.Outcome State Fault Refusal :=
  .next (s.hostCtx o (fun c => c.bellSq v))

/-- CQ_HEAD (R140). -/
def execCqHead (o : Owner) (v : Nat) (s : State) : Host.Outcome State Fault Refusal :=
  .next (s.hostCtx o (fun c => c.bellCq v))

/-! ### Ring configuration (R133) -/

/-- Whether PASID index 0 of an owner is valid. -/
def State.ringPasid (s : State) (i : Nat) : Bool := if i < 64 then !(s.slc i).pasids.isEmpty else s.hp.valid

/-- A write of SQ_CFG or CQ_CFG. -/
def Ring.configure (r : Ring) (pasid : Bool) (v : BitVec 64) : Ring :=
  if r.enable then { r with enable := v.getLsbD 4 }
  else
    let size := regFld v 0 4
    if v.getLsbD 4 && pasid && 4 ≤ size && size ≤ 10 then { r with sizeLog2 := size, enable := true, head := 0, tail := 0 }
    else { r with sizeLog2 := size }

/-- A write of SQ_CFG or CQ_CFG of an owner. -/
def State.ringCfg (s : State) (o : Owner) (reply : Bool) (v : BitVec 64) : State :=
  let ok := s.ringPasid (ownerIdx o)
  s.hostCtx o (fun c => if reply then { c with cq := c.cq.configure ok v } else { c with sq := c.sq.configure ok v })

/-- SQ_CFG and CQ_CFG (R133). -/
def execSqCfg (o : Owner) (reply : Bool) (v : BitVec 64) (s : State) : Host.Outcome State Fault Refusal :=
  .next (s.ringCfg o reply v)

/-! ### Ring entries and packets (R134, R136, R154, R167, R638) -/

/-- Whether the block fetches the next submission entry of a context (R114, R136, R572). -/
def State.fetches (s : State) (o : Owner) : Bool :=
  let c := s.ctx (ownerIdx o)
  ownerOk o && s.pow.main && s.pow.ready && !s.hp.d3hot && c.sq.enable && !c.halt && c.sq.head != c.sq.tail &&
    decide (0 < c.credits)

/-- A ring fetch that fails halts the rings (R167). -/
def State.haltRing (s : State) (o : Owner) (completion : Nat) : State :=
  let i := ownerIdx o
  (s.setCtx i { s.ctx i with halt := true, dmaErr := true }).dmaEvent noOrigin (dmaSlice i) 1 completion

/-- An entry taken: HEAD advances and a credit is held. -/
def Ctx.takeEntry (c : Ctx) : Ctx := { c with sq := { c.sq with head := (c.sq.head + 1) % 65536 }, credits := c.credits - 1 }

/-- The reply to a request that cannot be read (R154, R638). RPL_CAP plays no part in it: neither FULL nor TRUNC. `ev` says
whether the request has caused an event entry (RFLAGS of Table 03-2). -/
def State.unreadable (s : State) (o : Owner) (index : Nat) (ev : Bool) (st : Status) (detail : Nat) : State :=
  let i := ownerIdx o
  let c := s.ctx i
  let reply := replyBytes [] c.epoch (ctxSource i) (rflags false ev) st detail s.ph.stamp []
  s.setCtx i { c with outbox := c.outbox ++ [⟨.ring o index 0 4096 0, reply, false, true, c.pwNext, false⟩] }

/-- The checks of R638 and R154 on a submission entry (Table 04-5, little-endian). -/
def entryChecks (e : List Byte) (indices : Nat) : List (Bool × Status × Nat) :=
  [(!zeroAt e 13 3 || !zeroAt e 24 8 || decide (4 ≤ at8 e 12) || fldLe e 0 8 % 8 != 0, .unsupported, 0x0012),
   (decide (fldLe e 8 2 < 16) || decide (4096 < fldLe e 8 2) || decide (4096 < fldLe e 10 2), .length, 0x0012),
   (decide (indices ≤ at8 e 12), .spoof, 0x0011)]

/-- The address of entry `k` of a submission ring (R134). -/
def Ring.entryAt (r : Ring) (k : Nat) : Nat := r.base + 32 * (k % r.size)

/-- The address of entry `k` of a reply ring (R137). -/
def Ring.replyAt (r : Ring) (k : Nat) : Nat := r.base + 64 * (k % r.size)

/-- A request packet that was read, or whose read fails with a completion code (R136, R167). `n` is NEXT of the event record
before the fetch. -/
def State.takePacket (s : State) (o : Owner) (index : Nat) (e : List Byte) (packet : Except Nat (List Byte)) : State :=
  let i := ownerIdx o
  let t := s.dmaRead (s.pasidOf i (at8 e 12)) (fldLe e 0 8) (fldLe e 8 2)
  match packet with
  | .error c =>
    let u := t.dmaEvent (ctxSource i) (dmaSlice i) 2 c
    u.unreadable o index (u.evr.next != s.evr.next) .access 0x0020
  | .ok bs =>
    let c := t.ctx i
    t.setCtx i { c with inbox := c.inbox ++
      [⟨index, fldLe e 16 8, fldLe e 10 2, at8 e 12, s.readBytes bs (fldLe e 8 2), s.ph.c, s.ph.phi⟩] }

/-- A submission entry fetched; `packet` is what the read of the packet gives, or its completion code when it fails. -/
def State.takeEntry (s : State) (o : Owner) (e : List Byte) (packet : Except Nat (List Byte)) : State :=
  let i := ownerIdx o
  let index := (s.ctx i).sq.head
  let s := s.setCtx i (s.ctx i).takeEntry
  match firstFail (entryChecks e (s.indices i)) with
  | some (st, d) => s.unreadable o index false st d
  | none => s.takePacket o index e packet

/-- The fetch of the next submission entry of an owner, at HEAD under PASID index 0 or MGR_PASID (R134, R136, R149), and what
follows it; without DMA the ring halts (R167). -/
def State.ringFetch (s : State) (o : Owner) (entry : List Byte) (packet : Except Nat (List Byte)) : State :=
  let i := ownerIdx o
  let q := (s.ctx i).sq
  if !s.fetches o then s
  else
    match s.dmaStop i with
    | some c => s.haltRing o c
    | none => (s.dmaRead (s.pasidOf i 0) (q.entryAt q.head) 32).takeEntry o (s.readBytes entry 32) packet

/-- RING_ENTRY_FETCH (R136): `entry` and `packet` are what host memory holds. -/
def execRingEntryFetch (o : Owner) (entry packet : List Byte) (s : State) : Host.Outcome State Fault Refusal :=
  .next (s.ringFetch o entry (.ok packet))

/-! ### Reply entries (R137-R141, R161, R168, R169) -/

/-- The map buffer being written. -/
def Dpm.buffer (d : Dpm) : Nat := if d.active then d.base1 else d.base0

/-- A map write that fails (R169). -/
def State.mapFails (s : State) (n completion : Nat) : State :=
  let s := s.setDpm n { s.dpm n with mapErr := true, allDirty := true }
  (s.setCtx 64 { s.ctx 64 with dpmErr := true }).dmaEvent noOrigin n 5 completion

/-- The marks that fall into an aligned 8 B word of the map (R160): bit k of byte j stands for page 8 j + k. -/
def Dpm.wordMarks (d : Dpm) (w : Nat) : Nat :=
  d.marks.foldl (fun a p => if p / 64 = w then setBit a (p % 64) true else a) 0

/-- The map words that hold marks, each once. -/
def Dpm.words (d : Dpm) : List Nat := (d.marks.map (· / 64)).eraseDups

/-- The marks of one word: the aligned word of the active buffer is read, the bits are set, and it is written back, under
MGR_PASID and little-endian (R129, R149, R160, R162); or it fails (R169, R637, R170). -/
def State.flushWord (s : State) (n w : Nat) (got : Dma) : State :=
  let d := s.dpm n
  let at' := d.buffer + 8 * w
  let t := s.setDpm n { d with marks := d.marks.filter (fun p => p / 64 != w) }
  match s.dmaStop 64, got with
  | some c, _ => t.mapFails n c
  | none, .fail e => (t.dmaRead s.hp.pasid at' 8).mapFails n (dmaCode e)
  | none, .data bs =>
    (t.dmaRead s.hp.pasid at' 8).dmaWrite s.hp.pasid at' (le 8 (fromLe (s.readBytes bs 8) ||| d.wordMarks w))

/-- Every issued mark of a slice written to the active buffer (R162, R163); `reads` holds what the reads of the words return. -/
def State.flushMarks (s : State) (n : Nat) (reads : List Dma) : State :=
  (s.dpm n).words.zipIdx.foldl (fun s e => s.flushWord n e.1 (reads.getD e.2 (.data []))) s

/-- ORIGIN of a reply entry (Table 04-6). -/
def Route.entryOrigin : Route → Nat
  | .push _ w => 0x10 + w
  | .ring _ _ _ _ _ | .console | .vital _ _ => 0

/-- SQ_INDEX of a reply entry (Table 04-6). -/
def Route.entryIndex : Route → Nat
  | .ring _ i _ _ _ => i
  | .push _ _ | .console | .vital _ _ => 0xFFFF

/-- Whether a reply was too long for its buffer (R139). -/
def Done.truncated (d : Done) : Bool :=
  match d.route with
  | .ring _ _ _ cap _ => decide (cap < d.reply.length)
  | .push _ _ | .console | .vital _ _ => false

/-- A reply entry (Table 04-6). -/
def Done.entry (d : Done) (q : Ring) (full : Bool) : List Byte :=
  padTo 48 d.reply ++ [byte d.route.entryOrigin, byte (cqflags (ringPhase q.tail q.size) full d.truncated)]
    ++ le 2 d.route.entryIndex ++ le 2 d.reply.length ++ zeros 10

/-- Why a DMA of an owner fails: not issued, or as `e` says. -/
def State.dmaFails (s : State) (i : Nat) (e : Option DmaErr) : Option Nat :=
  match s.dmaStop i with
  | some c => some c
  | none => e.map dmaCode

/-- The whole reply written at RPL_ADDR (R139); the flag tells whether it was. -/
def State.writeReply (s : State) (i : Nat) (d : Done) (e : Option DmaErr) : State × Bool :=
  match d.route, d.whole with
  | .ring _ _ addr _ pidx, true =>
    match s.dmaFails i e with
    | some c => (s.dmaEvent d.route.origin (dmaSlice i) 3 c, false)
    | none => (s.hostWrite i pidx (s.pasidOf i pidx) addr d.reply, true)
  | _, _ => (s, false)

/-- The vector of a context's reply entries (Table 04-7). -/
def replyVector (i : Nat) : Nat := if i < 64 then i + 1 else 0

/-- A reply entry written: TAIL advances, the credit returns, and the message follows (R140, R141, R147). -/
def State.writeEntry (s : State) (i : Nat) (d : Done) (full : Bool) : State :=
  let c := s.ctx i
  let s := s.dmaWrite (s.pasidOf i 0) (c.cq.replyAt c.cq.tail) (d.entry c.cq full)
  let s := s.setCtx i { c with
    outbox := c.outbox.drop 1, cq := { c.cq with tail := (c.cq.tail + 1) % 65536 }
    credits := if d.credit then min 32 (c.credits + 1) else c.credits }
  if d.irq && c.irqEn then s.msix (replyVector i) else s

/-- The next completed reply of a context that may be written now (R140, R141, R166). -/
def State.nextReply (s : State) (o : Owner) : Option Done :=
  let c := s.ctx (ownerIdx o)
  match c.outbox with
  | [] => none
  | d :: _ =>
    if ownerOk o && s.pow.main && !s.hp.d3hot && c.cq.enable && !c.halt && diff16 c.cq.tail c.cq.head < c.cq.size
      && (c.pw ++ c.stalled).all (fun w => decide (d.after ≤ w.serial)) then some d else none

/-- REPLY_ENTRY_WRITE (R137-R141, R161, R168): the reply, the marks, the entry, the message, in this order. -/
def execReplyEntryWrite (o : Owner) (e : WriteEnd) (s : State) : Host.Outcome State Fault Refusal :=
  let i := ownerIdx o
  .next (match s.nextReply o with
    | none => s
    | some d =>
      let w := s.writeReply i d e.reply
      let s := w.1
      let c := s.ctx i
      let s := if i < 64 then
          (s.setDpm i ((s.dpm i).write 0 (c.cq.replyAt c.cq.tail) 64)).flushMarks i e.maps
        else s
      match s.dmaFails i e.entry with
      | some k => (s.setCtx i { s.ctx i with halt := true, dmaErr := true }).dmaEvent d.route.origin (dmaSlice i) 3 k
      | none => s.writeEntry i d w.2)

/-! ### MSI-X and MGR_EVENT (R148, R166) -/

/-- One cause cleared: a further cause sends one new message. -/
def State.clearCause (s : State) (i : Nat) : State :=
  let s := { s with hp := { s.hp with causes := setBit s.hp.causes i false } }
  if bit s.hp.further i then { s with hp := { s.hp with further := setBit s.hp.further i false } }.fire i else s

/-- A write of MGR_EVENT. -/
def State.writeEvent (s : State) (v : BitVec 64) : State :=
  (List.range 7).foldl (fun s i => if v.getLsbD i && bit s.hp.causes i then s.clearCause i else s) s

/-- MGR_EVENT (R148). -/
def execMgrEvent (v : BitVec 64) (s : State) : Host.Outcome State Fault Refusal := .next (if s.hostOn then s.writeEvent v else s)

/-- A vector unmasked: a pending message is sent (R166). -/
def State.unmask (s : State) (v : Nat) : State :=
  let s := s.mapHp (fun h => { h with masked := h.masked.filter (· != v) })
  if v ∈ s.hp.msixPend then (s.mapHp (fun h => { h with msixPend := h.msixPend.filter (· != v) })).emit (.msix v) else s

/-- MSIX_UNMASK (R166). -/
def execMsixUnmask (v : Nat) (s : State) : Host.Outcome State Fault Refusal :=
  .next (if s.hostOn && v < 72 then s.unmask v else s)

/-! ### Dirty-page maps (R159-R163, R166) -/

/-- A SWAP request (R163). -/
def State.requestSwap (s : State) (n : Nat) : State :=
  let d := s.dpm n
  if d.swapDone || d.swapping then s.setCtx 64 { s.ctx 64 with dpmErr := true }
  else s.setDpm n { d with swapping := true }

/-- A write of DPM_CTRL: SWAP apart (Table 04-10). ENABLE that is cleared while a swap is in progress clears when the swap
completes (Table 04-11). DESIGN CHOICE (log entry 136): PAGES of 0 or above 16,777,216, outside the range of Table 04-10, is
stored and does not keep the map from being enabled. -/
def Dpm.control (d : Dpm) (v : BitVec 64) : Dpm :=
  { d with
    enable := v.getLsbD 0 || (d.enable && d.swapping)
    closing := d.enable && d.swapping && !v.getLsbD 0
    pages := if d.enable then d.pages else regFld v 32 25
    swapDone := d.swapDone && !v.getLsbD 3
    allDirty := d.allDirty && !v.getLsbD 4
    mapErr := d.mapErr && !v.getLsbD 5 }

/-- A write of DPM_CTRL; a SWAP asked for in it follows. -/
def State.writeDpmCtrl (s : State) (n : Nat) (v : BitVec 64) : State :=
  let s := s.setDpm n ((s.dpm n).control v)
  if v.getLsbD 2 then s.requestSwap n else s

/-- DPM_ENABLE (R159, R161): a write of DPM_CTRL. -/
def execDpmEnable (n : Nat) (v : BitVec 64) (s : State) : Host.Outcome State Fault Refusal :=
  .next (if s.hostOn && n < 64 then s.writeDpmCtrl n v else s)

/-- DPM_SWAP (R163). -/
def execDpmSwap (n : Nat) (s : State) : Host.Outcome State Fault Refusal :=
  .next (if s.hostOn && n < 64 then s.requestSwap n else s)

/-- A swap completes: ACTIVE changes and SWAP_DONE is set; an ENABLE that was cleared meanwhile clears now (R163, R166). -/
def Dpm.swapped (d : Dpm) : Dpm :=
  { d with active := !d.active, swapDone := true, swapping := false, enable := d.enable && !d.closing, closing := false }

/-- DPM_SWAP_DONE (R163): the marks are written, ACTIVE changes, and vector 69 fires. -/
def execDpmSwapDone (m : MapSwap) (s : State) : Host.Outcome State Fault Refusal :=
  let n := m.slice
  .next (if s.pow.main && !s.hp.d3hot && (s.dpm n).swapping then
    let s := s.flushMarks n m.maps
    (s.setDpm n (s.dpm n).swapped).fire 4
  else s)

/-! ### Link and power state (R127, R170) -/

/-- Whether the host port may start DMA at all: a link, and not D3hot (R127, R170). -/
def State.portOn (s : State) : Bool := s.hp.linkUp && !s.hp.d3hot

/-- The pending messages of vectors that are not masked, sent once the port may start DMA (log entry 135). -/
def State.sendPending (s : State) : State :=
  if !s.portOn then s
  else
    let go := s.hp.msixPend.filter (fun v => !(v ∈ s.hp.masked))
    go.foldl (fun s v => s.emit (.msix v)) (s.mapHp (fun h => { h with msixPend := h.msixPend.filter (fun v => v ∈ h.masked) }))

/-- Output writes that waited for D0 are issued, slices first, then the manager. -/
def State.drainAll (s : State) : State := (List.range 65).foldl State.drain s

/-- HOST_LINK_UP (R170). -/
def execHostLinkUp (rate width : Nat) (s : State) : Host.Outcome State Fault Refusal :=
  .next (if s.pow.main && !s.hp.linkUp && 1 ≤ rate && rate ≤ 4 && (width == 1 || width == 2 || width == 4) then
    ((s.mapHp (fun h => { h with linkUp := true, rate := rate, width := width })).event 0x0202 noOrigin
      [1#8, byte rate, byte width]).sendPending
  else s)

end Sys2Proof.Machine
end

