-- ==== Sys2Proof/Machine/Lane.lean ====
section
/-! DEFINITION. LANE commands, lane tests and probation, and automatic idle gating (R386, R409-R412, R418, R564, R565). -/

namespace Sys2Proof.Machine

/-- A lane record (Table 11-7). -/
def Lane.bytes (l : Lane) : List Byte :=
  [byte l.st.code, byte (l.work.length - 1), byte l.cause, byte (b01 l.gated)] ++ be 2 l.left ++ be 5 l.ops
    ++ be 4 l.misses ++ zeros 1

/-- LANE.STATUS (R409). -/
def doLaneStatus (rq : Rq) (s : State) : Act :=
  Act.guard s (needLength rq 0) (.done .ok 0 ((List.range 4).flatMap (fun i => (s.lane i).bytes)) s)

/-- How many lanes are in service. -/
def State.inServiceCount (s : State) : Nat := s.inService.length

/-- A lane enters RETIRED in good order (R410): EV_LANE_RETIRED and vector 68. -/
def State.laneRetired (s : State) (i origin : Nat) : State :=
  let l := s.lane i
  ((s.setLane i { l with st := .retired, cause := 1, left := 0, work := [], queue := [], copies := [] }).event 0x0801 origin
    [byte i, byte 1]).fireLane

/-- The first part of a retirement: an in-service lane starts to drain and takes nothing new, and work that it has not started
goes to other in-service lanes (R410); a lane under test or on probation retires at once (Table 17-11; log entry 17). -/
def State.beginRetire (s : State) (i origin : Nat) : State :=
  let l := s.lane i
  match l.st with
  | .inService => ((s.setLane i { l with st := .retiring, queue := [] }).wakeKept).rehome l.queue
  | .testing | .probation => s.laneRetired i origin
  | .retiring | .retired => s

/-- LANE.RETIRE (R409, R410). -/
def doLaneRetire (rq : Rq) (s : State) : Act :=
  let i := at8 rq.body 0
  Act.guard s
    (needLength rq 4 ++ needZero rq 1 3 ++
      [(decide (4 ≤ i), .range, 0), ((s.lane i).st == .inService && s.inServiceCount == 1, .policy, 0x00B6)])
    (match (s.lane i).st with
     | .inService => .park (.laneRetire i) (s.beginRetire i rq.route.origin)
     | .testing | .probation => .done .ok 0 [] (s.beginRetire i rq.route.origin)
     | .retiring | .retired => .done .ok 0 [] s)

/-- LANE.RESTORE (R409, R411, R570). -/
def doLaneRestore (rq : Rq) (s : State) : Act :=
  let i := at8 rq.body 0
  let l := s.lane i
  Act.guard s
    (needLength rq 4 ++ needZero rq 1 3 ++
      [(decide (4 ≤ i), .range, 0), (!l.on, .policy, 0x0131), (l.st != .retired, .policy, 0x00B6)])
    (.done .ok 0 [] (s.setLane i { l with st := .testing, gated := false }))

def execLaneStatus (v : Via) (x : Ext) (s : State) : Host.Outcome State Fault Refusal :=
  .next (s.request v x (fun o _ => o == .laneStatus) doLaneStatus)

def execLaneRetire (v : Via) (x : Ext) (s : State) : Host.Outcome State Fault Refusal :=
  .next (s.request v x (fun o _ => o == .laneRetire) doLaneRetire)

def execLaneRestore (v : Via) (x : Ext) (s : State) : Host.Outcome State Fault Refusal :=
  .next (s.request v x (fun o _ => o == .laneRestore) doLaneRestore)

/-- LANE_DRAINED (R410): a RETIRING lane whose held work has ended enters RETIRED, and LANE.RETIRE replies. -/
def execLaneDrained (i : Nat) (s : State) : Host.Outcome State Fault Refusal :=
  .next (if (s.lane i).st == .retiring && (s.lane i).work.isEmpty then
    let drains := fun (l : Live) => l.job == .laneRetire i || l.job == .domainOff (i + 2)
    let o := match s.live.find? drains with
      | some l => l.rq.route.origin
      | none => noOrigin
    (((s.laneRetired i o).noteCause drains s.evr.next).schedule).answerRetire i
  else s)

/-- LANE_TEST_COMPLETE (R411, R419). -/
def execLaneTestComplete (i : Nat) (pass : Bool) (s : State) : Host.Outcome State Fault Refusal :=
  let l := s.lane i
  .next (if l.st != .testing then s
  else if pass then s.setLane i { l with st := .probation, left := 256 }
  else s.laneFault i 3)

/-- PROBATION_COMPARISON (R412, R418, R419): the oldest copy or known-answer work of the lane is compared. -/
def execProbationComparison (i : Nat) (clean : Bool) (s : State) : Host.Outcome State Fault Refusal :=
  let l := s.lane i
  .next (if l.st != .probation || l.copies.isEmpty then s
  else if clean then
    if l.left ≤ 1 then
      (((s.setLane i { l with st := .inService, left := 0, copies := [] }).event 0x0802 noOrigin [byte i]).fireLane).schedule
    else s.setLane i { l with left := l.left - 1, copies := l.copies.drop 1 }
  else
    ((s.setLane i { l with misses := sat 32 (l.misses + 1) }).event 0x0804 noOrigin
      ([byte i] ++ be 2 (256 - l.left))).retireNow i 4)

/-- PROBATION_IDLE_FEED (R412, R418): generated known-answer work for a probation lane without traffic. -/
def execProbationIdleFeed (i : Nat) (s : State) : Host.Outcome State Fault Refusal :=
  let l := s.lane i
  .next (if l.st == .probation && l.copies.isEmpty then s.setLane i { l with copies := [.kat] } else s)

/-- Whether a command is queued for the multiplier. -/
def State.multQueued (s : State) : Bool :=
  s.live.any (fun l => match l.job with
    | .mult _ _ _ _ _ => true
    | _ => false)

/-- DOMAIN_IDLE_GATE (R564, R565): domains 2-5 are the lanes, 6 the multiplier; the others are never gated. -/
def execDomainIdleGate (d : Nat) (s : State) : Host.Outcome State Fault Refusal :=
  .next (if 2 ≤ d && d ≤ 5 then
    let l := s.lane (d - 2)
    if l.on && l.work.isEmpty && l.queue.isEmpty && l.st != .testing && l.st != .probation && d - 2 ∉ s.keptAwake then
      s.setLane (d - 2) { l with gated := true }
    else s
  else if d = 6 && !s.multQueued then { s with mult := { s.mult with gated := true } }
  else s)

end Sys2Proof.Machine
end

