-- ==== Sys2Proof/Machine/Log.lean ====
section
/-! DEFINITION. LOG commands and the staging buffer (chapter 16). -/

namespace Sys2Proof.Machine

/-- An entry as LOG.READ returns it, with LINK (Table 16-1). -/
def Entry.full (e : Entry) : List Byte := e.bytes ++ (sha256 (e.before ++ e.bytes)).take 8

/-- GAP of LFLAGS (Table 16-2) for the entries `r` returned from FROM. -/
def State.gap (s : State) (from' : Nat) (r : List Entry) : Bool :=
  match r.getLast? with
  | none => decide (from' < s.evr.next)
  | some e => e.seq + 1 - from' != r.length

/-- The payload of Table 16-2. -/
def State.logPayload (s : State) (from' count : Nat) : List Byte :=
  let r := (s.entries.filter (fun e => decide (from' ≤ e.seq))).take count
  be 5 s.evr.next ++ be 5 s.oldest ++ be 2 s.founding ++ [byte r.length, byte (b01 (s.gap from' r))] ++ zeros 2
    ++ (match r with
      | [] => zeros 32
      | e :: _ => e.before) ++ r.flatMap Entry.full

/-- LOG.READ (R548). -/
def doLogRead (rq : Rq) (s : State) : Act :=
  let b := rq.body
  Act.guard s (needLength rq 8 ++ needZero rq 6 2 ++ [(at8 b 5 < 1 || 125 < at8 b 5, .length, 0x0121)])
    (.done .ok 0 (s.logPayload (fld b 0 5) (at8 b 5)) s)

/-- LOG.HEAD (R549). -/
def doLogHead (rq : Rq) (s : State) : Act :=
  Act.guard s (needLength rq 16 ++ s.needStamp ++ s.needRandom) (s.statement rq (s.headBody rq.body))

/-- The circulating entries that LOG.CLEAR removes. -/
def clears (upto : Nat) (e : Entry) : Bool := decide (4096 ≤ e.seq) && decide (e.seq ≤ upto)

/-- LOG.CLEAR (R550). -/
def doLogClear (rq : Rq) (s : State) : Act :=
  let upto := fld rq.body 0 5
  Act.guard s (needLength rq 8 ++ needZero rq 5 3 ++ [(decide (s.evr.next ≤ upto), .policy, 0x0120)])
    (let n := (s.entries.filter (clears upto)).length
     if n = 0 then .done .ok 0 (be 3 0 ++ be 5 s.oldest ++ be 5 0) s
     else
       let t := s.mapEvr (fun e => { e with
         flash := e.flash.filter (fun x => !clears upto x), staged := e.staged.filter (fun x => !clears upto x) })
       let u := t.event 0x0D01 rq.route.origin (be 5 upto ++ be 3 (sat 24 n))
       .done .ok 0 (be 3 (sat 24 n) ++ be 5 u.oldest ++ be 5 s.evr.next) u)

def execLogRead (v : Via) (x : Ext) (s : State) : Host.Outcome State Fault Refusal :=
  .next (s.request v x (fun o _ => o == .logRead) doLogRead)

def execLogHead (v : Via) (x : Ext) (s : State) : Host.Outcome State Fault Refusal :=
  .next (s.request v x (fun o _ => o == .logHead) doLogHead)

def execLogClear (v : Via) (x : Ext) (s : State) : Host.Outcome State Fault Refusal :=
  .next (s.request v x (fun o _ => o == .logClear) doLogClear)

/-- The oldest staged entry reaches event flash (R544); a failed write keeps it staged (R560). -/
def State.flushOne (s : State) (written : Bool) : State :=
  match s.evr.staged with
  | [] => s
  | e :: r => if written then s.mapEvr (fun v => { v with staged := r, flash := v.flash ++ [e] }) else s

/-- An entry one of whose two flash copies has failed (R544, R558): the second one where `b`. -/
def Entry.spoil (e : Entry) (b : Bool) : Entry := if b then { e with okB := false } else { e with okA := false }

/-- A flash copy of an entry fails. When both have failed the entry is no longer held, and EV_LOG_BREAK is recorded (R558). -/
def State.breakEntry (s : State) (seq : Nat) (b : Bool) : State :=
  let flash := s.evr.flash.map (fun e => if e.seq = seq then e.spoil b else e)
  let gone := fun (e : Entry) => !e.okA && !e.okB
  let t := s.mapEvr (fun v => { v with flash := flash.filter (fun e => !gone e) })
  if flash.any gone then (t.mapEvr (fun v => { v with brk := true })).event 0x0D03 noOrigin (be 5 seq) else t

/-- STAGING_FLUSH (R544, R558, R560): `lost` names an entry and which of its flash copies fails. -/
def execStagingFlush (written : Bool) (lost : Option (Nat × Bool)) (s : State) : Host.Outcome State Fault Refusal :=
  let s := s.flushOne written
  .next (match lost with
    | none => s
    | some (seq, b) => s.breakEntry seq b)

end Sys2Proof.Machine
end

