-- ==== Sys2Proof/Machine/Power.lean ====
section
/-! DEFINITION. SYS, FW and POWER commands (chapter 17): self-tests and their consequences, firmware images and banks, and
the explicit switch of a power domain. -/

namespace Sys2Proof.Machine

/-! ### Firmware banks (R578-R584) -/

/-- A firmware bank. -/
def Power.bankAt (p : Power) (i : Nat) : Bank := if i = 0 then p.bank0 else p.bank1

/-- A firmware bank replaced. -/
def Power.setBank (p : Power) (i : Nat) (b : Bank) : Power := if i = 0 then { p with bank0 := b } else { p with bank1 := b }

/-- A bank without a valid image. -/
def Bank.invalid (b : Bank) : Bank := { b with valid := false }

/-- Whether the boot ROM accepts a bank (R579). -/
def Power.bankOk (p : Power) (i : Nat) : Bool :=
  let b := p.bankAt i
  b.valid && decide (b.floor ≤ b.build) && decide (p.floor ≤ b.build)

/-- Whether the running firmware is that of a bank accepted by the boot ROM. -/
def Power.anyBank (p : Power) : Bool := p.bankOk 0 || p.bankOk 1

/-- FW_VERSION as the module shows it: zero with no valid bank (R595). FW_BUILD stays that of the running bank. -/
def Power.shownVersion (p : Power) : Nat := if p.anyBank then (p.bankAt p.running).version else 0
def Power.shownBuild (p : Power) : Nat := (p.bankAt p.running).build

/-! ### Self-tests (R573-R576) -/

/-- A halted module (R574). -/
def State.haltModule (s : State) : State := s.mapPow (fun p => { p with halted := true })

/-- A vital port whose self-test fails (R286). -/
def State.failPort (s : State) (p : Port) : State :=
  ((s.setVp p { (s.vp p).close with failed := true }).event 0x0504 noOrigin [portCode p]).evaluate noOrigin

/-- The consequence of a failing self-test (Table 17-4). -/
def State.testConsequence (s : State) (f : TestFail) : State :=
  if f.unit = 0 then
    let s := s.mapPow (fun p => p.setBank p.running (p.bankAt p.running).invalid)
    if s.pow.anyBank then s else s.haltModule
  else if f.unit = 2 && f.sub == 1 then s.haltModule.fireSource 13
  else if f.unit ≤ 5 then s.haltModule
  else if f.unit = 6 then s.assertSource 7
  else if f.unit ≤ 10 then
    let l := s.lane (f.unit - 7)
    if l.on && l.st != .retired then s.laneFault (f.unit - 7) 3 else s
  else if f.unit = 11 then s.fireSource 13
  else if f.unit = 12 then s.failPort (if f.sub = 0x0B then .b else .a)
  else if f.unit = 13 then s.frontEndFault
  else if f.unit = 14 then
    (s.setSerial .cardA { s.cus.cardA with failed := true }).mapCus (fun v => { v with cardB := { v.cardB with failed := true } })
  else s

/-- A failing self-test: EV_SELFTEST_FAIL and the consequence (R575). -/
def State.testFails (origin : Nat) (s : State) (f : TestFail) : State :=
  (s.event 0x0C04 origin [byte f.unit, byte f.test]).testConsequence f

/-- SELFTEST as under R575, from the units that failed since the last start. -/
def Power.result (p : Power) : Power := { p with selftest := if p.halted then 2 else if p.failed.isEmpty then 0 else 1 }

/-- Self-tests that end with some failures (R573). -/
def State.runTests (s : State) (origin : Nat) (fails : List TestFail) : State :=
  let fails := fails.filter (fun f => decide (f.unit < 15))
  let s := fails.foldl (State.testFails origin) s
  (s.mapPow (fun p => Power.result { p with failed := p.failed ++ fails.map (·.unit) })).evaluate origin

/-- The units that failed, as a bit mask. -/
def failedMask (fails : List TestFail) : Nat := (List.range 15).foldl (fun a i => setBit a i (fails.any (fun f => f.unit == i))) 0

/-- SYS.SELFTEST (R576): `fails` lists the tests that would fail; those of the units named count. -/
def doSysSelftest (fails : List TestFail) (rq : Rq) (s : State) : Act :=
  let units := fld rq.body 0 2
  let mine := fails.filter (fun f => decide (f.unit < 15) && bit units f.unit)
  Act.guard s (needLength rq 4 ++ needZero rq 2 2 ++ [(bit units 15, .unsupported, 0)])
    (.done .ok 0 (be 2 (failedMask mine)) (s.runTests rq.route.origin mine))

/-! ### SYS -/

/-- DOMAINS of Table 17-5: domains that are not switched off. -/
def State.domains (s : State) : Nat :=
  67 + (List.range 4).foldl (fun a i => a + b01 (s.lane i).on * 2 ^ (i + 2)) 0 + 128 * b01 s.pow.loopOn

/-- The payload of Table 17-5. -/
def State.infoPayload (s : State) : List Byte :=
  be 2 0xD256 ++ be 2 s.pow.shownVersion ++ be 2 s.pow.shownBuild ++ be 2 s.pow.floor ++ padTo 8 s.ks.deviceId
    ++ [byte s.pow.silicon, byte s.tam.life.code, byte s.ph.band, byte s.ph.st.code, byte s.pow.selftest, byte s.pow.approved]
    ++ be 2 s.domains

/-- SYS.INFO (R577). -/
def doSysInfo (rq : Rq) (s : State) : Act := Act.guard s (needLength rq 0) (.done .ok 0 s.infoPayload s)

/-- SYS.RESET (R588): the reply, and the device reset that DEVICE_RESET starts. -/
def doSysReset (rq : Rq) (s : State) : Act :=
  Act.guard s (needLength rq 4 ++ needZero rq 1 3 ++ [(at8 rq.body 0 != 2, .unsupported, 0)])
    (.done .ok 0 [] (s.mapPow (fun p => { p with armed := some 4 })))

/-! ### FW -/

/-- CODE_LEN of an image. -/
def codeLen (b : List Byte) : Nat := fld b 12 4

/-- Whether an image is malformed against Table 17-6 (R580). -/
def imageBad (b : List Byte) : Bool :=
  decide (b.length < 128) || fld b 0 2 != 0x1201 || fld b 2 2 != 128 || !zeroAt b 10 2 || !zeroAt b 64 64
    || b.length != 5940 + codeLen b || decide (8388608 < b.length) || decide (fld b 6 2 < fld b 8 2)

/-- Whether both signatures and CODE_DIGEST of an image verify under the keys of slot 0x0010 (R579): a P-384 point and an
HSS public key. -/
def imageSigned (keys b : List Byte) : Bool :=
  let n := codeLen b
  let head := b.take 128
  Hash.sha384.digest (slice b 128 n) == slice b 16 48
    && ecdsaVerify p384 (p384.decode (keys.take 97)) (Hash.sha384.digest head) (fld b (128 + n) 48) (fld b (176 + n) 48)
    && hssVerify (keys.drop 97) head (b.drop (224 + n))

/-- The checks of R580 on an image, in the order form, signatures, floor. Without the keys of slot 0x0010 nothing verifies
(R357). -/
def State.imageChecks (s : State) (b : List Byte) : List (Bool × Status × Nat) :=
  [(imageBad b, .length, 0x0134), (decide (0x10 ∈ s.ks.gone), .fault, 0x009A), (!imageSigned s.ks.fwKeys b, .authFail, 0x0132),
   (decide (fld b 6 2 < s.pow.floor), .policy, 0x0133)]

/-- EV_FW_LOAD. -/
def State.loadEvent (s : State) (origin : Nat) (b : List Byte) (detail : Nat) : State :=
  s.event 0x0C06 origin (be 2 (fld b 4 2) ++ be 2 (fld b 6 2) ++ [Config.fwResult detail])

/-- The bank that is not running. -/
def Power.otherBank (p : Power) : Nat := 1 - p.running

/-- The bank that is not running loses its image (R580). -/
def State.dropOther (s : State) : State := s.mapPow (fun p => p.setBank p.otherBank (p.bankAt p.otherBank).invalid)

/-- An accepted image in the bank that is not running (R580). -/
def State.takeImage (s : State) (b : List Byte) : State :=
  s.mapPow (fun p =>
    p.setBank p.otherBank ⟨true, fld b 4 2, fld b 6 2, fld b 8 2, Hash.sha384.digest b⟩)

/-- An image read from the host: written, judged, and accepted by a decision taken twice (R580, Table 15-4). -/
def loadImage (rq : Rq) (b : List Byte) (s : State) : Act :=
  let o := rq.route.origin
  let s := s.dropOther
  match firstFail (s.imageChecks b) with
  | some (st, d) => .refuse (s.loadEvent o b d) st d
  | none =>
    .twice s rq 6 s.pow.otherBank (fun s =>
      .done .ok 0 ([byte s.pow.otherBank] ++ be 2 (fld b 4 2) ++ be 2 (fld b 6 2)) ((s.takeImage b).loadEvent o b 0))

/-- FW.LOAD (R580): any refusal leaves the bank that is not running invalid. -/
def doFwLoad (rq : Rq) (s : State) : Act :=
  match firstFail (needLength rq 16 ++ s.needRandom ++ s.needDesc rq 0 1) with
  | some (st, d) => .refuse s.dropOther st d
  | none =>
    match s.input rq 0 (descAt rq.body 0) with
    | .data bs => loadImage rq bs (s.didInput rq (descAt rq.body 0))
    | .wait => .park (.held (.writes rq.owner)) s
    | .fail c => .refuse (s.dropOther.dmaEvent rq.route.origin rq.owner 2 c) .access 0x0020

/-- FW.ACTIVATE (R581): the bank pending, the reply, and the device reset that DEVICE_RESET starts. -/
def doFwActivate (rq : Rq) (s : State) : Act :=
  let p := s.pow
  Act.guard s
    (needLength rq 4 ++ needZero rq 2 2 ++
      [(!p.bankOk p.otherBank || (p.bankAt p.otherBank).build != fld rq.body 0 2, .policy, 0x0135)])
    (.done .ok 0 [] (s.mapPow (fun p => { p with pendBank := some p.otherBank, armed := some 5 })))

/-- A bank as FW.STATUS shows it; VALID is that of R579. -/
def Power.bankBytes (p : Power) (i : Nat) : List Byte :=
  let b := p.bankAt i
  [byte (b01 (p.bankOk i)), 0#8] ++ be 2 b.version ++ be 2 b.build ++ be 2 b.floor

/-- FW.STATUS (R584). -/
def doFwStatus (rq : Rq) (s : State) : Act :=
  Act.guard s (needLength rq 0)
    (.done .ok 0 ([byte s.pow.active, byte (s.pow.pendBank.getD 0xFF)] ++ be 2 s.pow.floor ++ s.pow.bankBytes 0
      ++ s.pow.bankBytes 1) s)

/-! ### POWER.DOMAIN (R567-R570) -/

/-- A switch of lane domain `d`. -/
def switchLane (rq : Rq) (d : Nat) (on : Bool) (s : State) : Act :=
  let i := d - 2
  if (s.lane i).on == on && !s.switching d then .done .ok 0 (stateReply rq on) s
  else if on then .park (.domainOn d) s
  else if (s.lane i).st == .inService && s.inServiceCount == 1 then .refuse s .policy 0x00B6
  else .park (.domainOff d) (s.beginRetire i rq.route.origin)

/-- POWER.DOMAIN (R567). -/
def doPowerDomain (rq : Rq) (s : State) : Act :=
  let d := at8 rq.body 0
  let on := at8 rq.body 1 == 1
  Act.guard s
    (needLength rq 4 ++ needZero rq 2 2 ++
      [(decide (1 < at8 rq.body 1), .unsupported, 0), (decide (7 < d), .range, 0),
       (d == 0 || d == 1 || d == 6, .policy, 0x0130)])
    (if d = 7 then switchLoops rq on s else switchLane rq d on s)

def execSysInfo (v : Via) (x : Ext) (s : State) : Host.Outcome State Fault Refusal :=
  .next (s.request v x (fun o _ => o == .sysInfo) doSysInfo)

def execSysSelftest (v : Via) (x : Ext) (fails : List TestFail) (s : State) : Host.Outcome State Fault Refusal :=
  .next (s.request v x (fun o _ => o == .sysSelftest) (doSysSelftest fails))

def execSysReset (v : Via) (x : Ext) (s : State) : Host.Outcome State Fault Refusal :=
  .next (s.request v x (fun o _ => o == .sysReset) doSysReset)

def execFwLoad (v : Via) (x : Ext) (s : State) : Host.Outcome State Fault Refusal :=
  .next (s.request v x (fun o _ => o == .fwLoad) doFwLoad)

def execFwActivate (v : Via) (x : Ext) (s : State) : Host.Outcome State Fault Refusal :=
  .next (s.request v x (fun o _ => o == .fwActivate) doFwActivate)

def execFwStatus (v : Via) (x : Ext) (s : State) : Host.Outcome State Fault Refusal :=
  .next (s.request v x (fun o _ => o == .fwStatus) doFwStatus)

def execPowerDomain (v : Via) (x : Ext) (s : State) : Host.Outcome State Fault Refusal :=
  .next (s.request v x (fun o _ => o == .powerDomain) doPowerDomain)

/-- Whether a request in flight switches a domain. -/
def Live.switches (d : Nat) (l : Live) : Bool := l.job == .domainOff d || l.job == .domainOn d

/-- EV_DOMAIN and vector 68 of a switch that has happened (R568, R570); the request that switches caused it. -/
def State.domainEvent (s : State) (origin d on : Nat) : State :=
  ((s.event 0x0C05 origin [byte d, byte on]).fire 3).noteCause (Live.switches d) s.evr.next

/-- The switch of a domain that is being carried out: the first in flight (Table 17-11). -/
def State.switchOf (s : State) (d : Nat) : Option Live := s.live.find? (Live.switches d)

/-- The switch of a domain ends with the state reached. -/
def State.endSwitch (s : State) (d : Nat) (on : Bool) : State :=
  s.finish (Live.switches d) (fun l s => .done .ok 0 (stateReply l.rq on) s)

/-- A lane domain that is drained loses power (R568). -/
def State.offLane (s : State) (d origin : Nat) : State :=
  let l := s.lane (d - 2)
  if !l.on then s.endSwitch d false
  else
    match l.st with
    | .retired =>
      ((s.setLane (d - 2) { l with on := false, gated := false }).domainEvent origin d 0).endSwitch d false
    | .testing | .probation =>
      let s := s.laneRetired (d - 2) origin
      ((s.setLane (d - 2) { s.lane (d - 2) with on := false, gated := false }).domainEvent origin d 0).endSwitch d false
    | .inService =>
      if s.inServiceCount == 1 then s.finish (Live.switches d) (fun _ s => .refuse s .policy 0x00B6)
      else s.beginRetire (d - 2) origin
    | .retiring => s

/-- Whether a HART transaction is in progress, which completes first (R500). -/
def State.hartRuns (s : State) : Bool := (List.range 8).any (fun i => (s.loop i).tx.isSome)

/-- The loop domain loses power (R500, R568): windows are abandoned. -/
def State.offLoops (s : State) (origin : Nat) : State :=
  if !s.pow.loopOn then s.endSwitch 7 false
  else if s.hartRuns then s
  else
    let s := (s.mapPow (fun p => { p with loopOn := false })).abandonWindows
    let s := s.mapLoops (fun _ l => { l with todo := [], polled := false })
    (s.domainEvent origin 7 0).endSwitch 7 false

/-- DOMAIN_SWITCH_OFF_COMPLETE (R568). -/
def execDomainSwitchOffComplete (d : Nat) (s : State) : Host.Outcome State Fault Refusal :=
  .next (match s.switchOf d with
    | none => s
    | some l =>
      if l.job != .domainOff d then s
      else if d = 7 then s.offLoops l.rq.route.origin
      else s.offLane d l.rq.route.origin)

/-- A lane domain gets power (R570), or does not (R596). -/
def State.powerLane (s : State) (d origin : Nat) (powered : Bool) : State :=
  let l := s.lane (d - 2)
  if l.on then s.endSwitch d true
  else if powered then
    ((s.setLane (d - 2) { l with on := true, st := .retired }).domainEvent origin d 1).endSwitch d true
  else
    ((s.event 0x0C04 origin [byte (5 + d), 1#8]).noteCause (Live.switches d) s.evr.next).finish (Live.switches d)
      (fun _ s => .refuse s .fault 0)

/-- The loop domain gets power: the front end is tested (R500, R505). -/
def State.powerLoops (s : State) (origin : Nat) (powered : Bool) : State :=
  if s.pow.loopOn then s.endSwitch 7 true
  else
    let s := (s.mapPow (fun p => { p with loopOn := true, loopFail := false })).domainEvent origin 7 1
    ((if powered then s else s.frontEndFault).endSwitch 7 true).scanLoops

/-- DOMAIN_SWITCH_ON_COMPLETE (R570, R596, R500). -/
def execDomainSwitchOnComplete (d : Nat) (powered : Bool) (s : State) : Host.Outcome State Fault Refusal :=
  .next (match s.switchOf d with
    | none => s
    | some l =>
      if l.job != .domainOn d then s
      else if d = 7 then s.powerLoops l.rq.route.origin powered
      else s.powerLane d l.rq.route.origin powered)

end Sys2Proof.Machine
end

