-- ==== Sys2Proof/Machine/Registers.lean ====
section
/-! DEFINITION. The registers of BAR0 and BAR2 (Tables 02-6, 04-2 to 04-4, 04-10, 07-12, 14-6, 15-8, 16-3): what each reads as,
and what a write does. -/

namespace Sys2Proof.Machine

/-! ### Reads -/

/-- A ring register at its offset in the block of Table 04-4 from 0x100 on; write-only doorbells read zero. -/
def Ctx.ringReg (c : Ctx) (off : Nat) : Option (BitVec 64) :=
  let cfg := fun (r : Ring) => packReg [(0, 4, r.sizeLog2), (4, 1, b01 r.enable)]
  if off = 0x00 then some (BitVec.ofNat 64 c.sq.base)
  else if off = 0x08 then some (cfg c.sq)
  else if off = 0x10 then some 0
  else if off = 0x18 then some (BitVec.ofNat 64 c.sq.head)
  else if off = 0x20 then some (BitVec.ofNat 64 c.cq.base)
  else if off = 0x28 then some (cfg c.cq)
  else if off = 0x30 then some 0
  else if off = 0x38 then some (BitVec.ofNat 64 c.cq.tail)
  else none

/-- MGR_ general registers (Table 04-3). -/
def State.mgrReg (s : State) (off : Nat) : Option (BitVec 64) :=
  let c := s.ctx 64
  if off = 0x00 then
    some (packReg [(0, 16, 0xD256), (16, 16, s.pow.shownVersion), (32, 16, s.pow.shownBuild), (48, 8, s.pow.silicon)])
  else if off = 0x08 then some (packReg [(0, 1, b01 c.irqEn)])
  else if off = 0x10 then
    some (packReg [(0, 3, s.tam.life.code), (3, 1, b01 (s.hp.rate != 4 || s.hp.width != 4)), (4, 1, b01 c.halt)])
  else if off = 0x18 then some (packReg [(0, 24, c.epoch)])
  else if off = 0x20 then some (packReg [(0, 6, c.credits)])
  else if off = 0x28 then
    some (packReg [(0, 1, b01 c.accessErr), (1, 1, b01 c.dbErr), (2, 1, b01 c.dmaErr), (3, 1, b01 c.dpmErr)])
  else if off = 0x30 then some (packReg [(0, 20, s.hp.pasid), (20, 1, b01 s.hp.valid)])
  else if off = 0x38 then some (packReg [(0, 7, s.hp.causes)])
  else none

/-- PH_ registers (Table 02-6). -/
def State.phReg (s : State) (off : Nat) : Option (BitVec 64) :=
  let p := s.ph
  if off = 0x00 then some (BitVec.ofNat 64 (fromBe p.stamp))
  else if off = 0x08 then
    some (packReg [(0, 3, p.st.code), (3, 2, p.band), (5, 3, p.missing), (8, 4, p.good), (12, 1, b01 p.lowSignal),
      (13, 1, b01 p.outOfBand)])
  else if off = 0x10 then some (packReg [(0, 16, p.freq), (16, 16, if p.st = .slew then sat 16 p.left.natAbs else 0)])
  else if off = 0x18 then some (packReg [(24, 40, p.cp)])
  else if off = 0x20 then some (packReg [(24, 40, if p.fresh then p.resume else 0)])
  else none

/-- Dirty-page map control (Table 04-10). -/
def Dpm.reg (d : Dpm) (off : Nat) : Option (BitVec 64) :=
  if off = 0 then some (BitVec.ofNat 64 d.base0)
  else if off = 8 then some (BitVec.ofNat 64 d.base1)
  else if off = 16 then some (BitVec.ofNat 64 d.win)
  else if off = 24 then
    some (packReg [(0, 1, b01 d.enable), (1, 1, b01 d.active), (3, 1, b01 d.swapDone), (4, 1, b01 d.allDirty),
      (5, 1, b01 d.mapErr), (32, 25, d.pages)])
  else none

/-- Session state codes (Table 07-12). -/
def Session.code : Session → Nat
  | .closed => 0 | .open' => 1 | .lost => 2

/-- VP_ registers of a port (Table 07-12). -/
def State.vpReg (s : State) (p : Port) (off : Nat) : Option (BitVec 64) :=
  let v := s.vp p
  if off = 0x00 then some v.cfg
  else if off = 0x08 then
    some (packReg [(0, 2, v.session.code), (2, 1, b01 v.clkMode), (3, 1, b01 (s.portPending p)),
      (32, 32, if v.session == .closed then 0 else v.number)])
  else if off = 0x10 then some (packReg [(0, 16, v.ignored), (16, 16, v.lostFr), (32, 16, v.retx), (48, 16, v.echoErr)])
  else if off = 0x18 then some (packReg [(0, 46, v.pollSlot), (46, 1, b01 v.pollValid)])
  else none

/-- LP_ registers of a loop (Table 14-6). -/
def Loop.reg (l : Loop) (off : Nat) : Option (BitVec 64) :=
  if off = 0x00 then
    some (match l.result with
      | none => 0
      | some r => packReg [(0, 32, current32 r.current), (32, 16, r.window), (48, 8, r.flags)])
  else if off = 0x08 then some (packReg [(0, 40, match l.result with
    | none => 0
    | some r => r.start)])
  else if off = 0x10 then some (packReg [(0, 5, l.events)])
  else if off = 0x18 then some (packReg [(0, 8, l.slice), (16, 2, l.wiring), (18, 4, l.drops), (22, 1, b01 l.hart)])
  else none

/-- TS_ registers (Table 15-8). -/
def State.tsReg (s : State) (off : Nat) : Option (BitVec 64) :=
  let t := s.tam
  if off = 0x00 then some (packReg [(0, 16, t.asserted), (16, 16, t.latched), (32, 3, t.life.code), (35, 2, t.src)])
  else if off = 0x08 then
    some (packReg ((List.range 16).map (fun i => (2 * i, 2, t.response.getD i 0)) ++ [(32, 16, t.fused), (48, 3, t.options)]))
  else if off = 0x10 then some (packReg [(0, 16, t.cellMv), (16, 8, t.capHours), (24, 1, b01 t.capFull)])
  else none

/-- EVR_ registers (Table 16-3). -/
def State.evrReg (s : State) (off : Nat) : Option (BitVec 64) :=
  let e := s.evr
  if off = 0x00 then some (packReg [(0, 40, e.next)])
  else if off = 0x08 then some (packReg [(0, 40, s.oldest), (40, 13, s.founding)])
  else if off = 0x10 then some (packReg [(1, 13, e.notice)])
  else if off = 0x18 then some (packReg [(0, 1, b01 (decide (256 ≤ e.staged.length))), (1, 1, b01 e.overflow), (2, 1, b01 e.brk)])
  else none

/-- MSI-X table: address, data and vector control (Table 04-2). -/
def State.msixReg (s : State) (off : Nat) : Option (BitVec 64) :=
  let v := off / 16
  let e := s.hp.vectors.get (0, 0) v
  if 72 ≤ v then none
  else if off % 16 = 0 then some (BitVec.ofNat 64 e.1)
  else some (packReg [(0, 32, e.2), (32, 1, b01 (v ∈ s.hp.masked))])

/-- MSI-X pending bits (Table 04-2). -/
def State.pbaReg (s : State) (off : Nat) : Option (BitVec 64) :=
  if off = 0 || off = 8 then
    some (packReg ((s.hp.msixPend.filter (fun v => off * 8 ≤ v && v < off * 8 + 64)).map (fun v => (v - off * 8, 1, 1))))
  else none

/-- A register of BAR0 at an aligned offset (Table 04-2); none at an unassigned one. -/
def State.bar0 (s : State) (off : Nat) : Option (BitVec 64) :=
  if off < 0x100 then s.mgrReg off
  else if off < 0x140 then (s.ctx 64).ringReg (off - 0x100)
  else if 0x200 ≤ off && off < 0x228 then s.phReg (off - 0x200)
  else if 0x1000 ≤ off && off < 0x1800 then (s.dpm ((off - 0x1000) / 32)).reg ((off - 0x1000) % 32)
  else if 0x2000 ≤ off && off < 0x2020 then s.vpReg .a (off - 0x2000)
  else if 0x2100 ≤ off && off < 0x2120 then s.vpReg .b (off - 0x2100)
  else if 0x3000 ≤ off && off < 0x3100 then (s.loop ((off - 0x3000) / 32)).reg ((off - 0x3000) % 32)
  else if off = 0x3100 then some (packReg [(0, 1, b01 s.pow.loopOn)])
  else if 0x4000 ≤ off && off < 0x4018 then s.tsReg (off - 0x4000)
  else if 0x5000 ≤ off && off < 0x5020 then s.evrReg (off - 0x5000)
  else if 0x8000 ≤ off && off < 0x8480 then s.msixReg (off - 0x8000)
  else if 0xA000 ≤ off && off < 0xA010 then s.pbaReg (off - 0xA000)
  else none

/-- SLC_PASID_LO or HI from index `i` on (Table 04-4). -/
def Slc.pasidReg (v : Slc) (i : Nat) : BitVec 64 :=
  packReg [(0, 20, v.pasids.getD i 0), (20, 1, b01 (decide (i < v.pasids.length))), (32, 20, v.pasids.getD (i + 1) 0),
    (52, 1, b01 (decide (i + 1 < v.pasids.length)))]

/-- A register of a slice page at an aligned offset (Table 04-4). -/
def State.page (s : State) (n off : Nat) : Option (BitVec 64) :=
  let c := s.ctx n
  if off < 0x100 then none
  else if off < 0x140 then c.ringReg (off - 0x100)
  else if off = 0x140 then some (packReg [(0, 24, c.epoch)])
  else if off = 0x148 then some (packReg [(0, 6, c.credits)])
  else if off = 0x150 then some (packReg [(0, 4, (s.slc n).st.code), (4, 1, b01 c.halt)])
  else if off = 0x158 then
    some (packReg [(0, 1, b01 c.accessErr), (1, 1, b01 c.dbErr), (2, 1, b01 c.pwErr), (3, 1, b01 c.dmaErr)])
  else if off = 0x160 then some ((s.slc n).pasidReg 0)
  else if off = 0x168 then some ((s.slc n).pasidReg 2)
  else if off = 0x170 then some (packReg [(0, 1, b01 c.irqEn)])
  else if off = 0x178 then some (packReg [(0, 16, c.drops)])
  else none

/-- The register of a BAR at an aligned offset. -/
def State.registerAt (s : State) (bar off : Nat) : Option (BitVec 64) :=
  if bar = 0 then s.bar0 off else if bar = 2 && off < 0x40000 then s.page (off / 0x1000) (off % 0x1000) else none

/-- What an aligned 8 B read returns (R128): unassigned offsets, push windows and misaccesses read as zero. -/
def State.readReg (s : State) (bar off size : Nat) : BitVec 64 :=
  if size = 8 && off % 8 = 0 then (s.registerAt bar off).getD 0 else 0

/-! ### Writes -/

/-- A value as a 4 KiB aligned address (R128). -/
def pageAddr (v : BitVec 64) : Nat := v.toNat / 4096 * 4096

/-- A write to a ring register of an owner, at its offset from 0x100 on. -/
def State.writeRing (s : State) (o : Owner) (off : Nat) (v : BitVec 64) : State :=
  if off = 0x00 then
    s.hostCtx o (fun c => if c.sq.enable then c else { c with sq := { c.sq with base := pageAddr v } })
  else if off = 0x08 then s.ringCfg o false v
  else if off = 0x10 then s.hostCtx o (fun c => c.bellSq (regFld v 0 16))
  else if off = 0x20 then
    s.hostCtx o (fun c => if c.cq.enable then c else { c with cq := { c.cq with base := pageAddr v } })
  else if off = 0x28 then s.ringCfg o true v
  else if off = 0x30 then s.hostCtx o (fun c => c.bellCq (regFld v 0 16))
  else s

/-- A write to the dirty-page map control of a slice (Table 04-10). -/
def State.writeDpm (s : State) (n off : Nat) (v : BitVec 64) : State :=
  let d := s.dpm n
  if off = 24 then s.writeDpmCtrl n v
  else if d.enable then s
  else if off = 0 then s.setDpm n { d with base0 := pageAddr v }
  else if off = 8 then s.setDpm n { d with base1 := pageAddr v }
  else if off = 16 then s.setDpm n { d with win := pageAddr v }
  else s

/-- A write to the MSI-X table: a vector unmasked sends its pending message (R166). -/
def State.writeMsix (s : State) (off : Nat) (v : BitVec 64) : State :=
  let k := off / 16
  let e := s.hp.vectors.get (0, 0) k
  if off % 16 = 0 then s.mapHp (fun h => { h with vectors := h.vectors.put (0, 0) k (v.toNat, e.2) })
  else
    let s := s.mapHp (fun h => { h with vectors := h.vectors.put (0, 0) k (e.1, regFld v 0 32) })
    if v.getLsbD 32 then
      if k ∈ s.hp.masked then s else s.mapHp (fun h => { h with masked := h.masked ++ [k] })
    else s.unmask k

/-- A write to an assigned register of BAR0 (Tables 04-3, 14-6, 15-8, 16-3). -/
def State.write0 (s : State) (off : Nat) (v : BitVec 64) : State :=
  if off = 0x08 then s.setCtx 64 { s.ctx 64 with irqEn := v.getLsbD 0 }
  else if off = 0x28 then
    let c := s.ctx 64
    s.setCtx 64 { c with
      accessErr := c.accessErr && !v.getLsbD 0, dbErr := c.dbErr && !v.getLsbD 1, dmaErr := c.dmaErr && !v.getLsbD 2
      dpmErr := c.dpmErr && !v.getLsbD 3 }
  else if off = 0x30 then s.mapHp (fun h => { h with pasid := regFld v 0 20, valid := v.getLsbD 20 })
  else if off = 0x38 then s.writeEvent v
  else if 0x100 ≤ off && off < 0x140 then s.writeRing .mgr (off - 0x100) v
  else if 0x1000 ≤ off && off < 0x1800 then s.writeDpm ((off - 0x1000) / 32) ((off - 0x1000) % 32) v
  else if 0x3000 ≤ off && off < 0x3100 && off % 32 = 0x10 then
    let l := s.loop ((off - 0x3000) / 32)
    s.setLoop ((off - 0x3000) / 32) { l with
      events := (List.range 5).foldl (fun a i => if v.getLsbD i then setBit a i false else a) l.events }
  else if off = 0x4000 then
    s.mapTam (fun t => { t with
      latched := (List.range 16).foldl (fun a i => if v.getLsbD (16 + i) then setBit a i false else a) t.latched })
  else if off = 0x5010 then s.mapEvr (fun e => { e with notice := regFld v 1 13 })
  else if off = 0x5018 then
    s.mapEvr (fun e => { e with overflow := e.overflow && !v.getLsbD 1, brk := e.brk && !v.getLsbD 2 })
  else if 0x8000 ≤ off && off < 0x8480 then s.writeMsix (off - 0x8000) v
  else s

/-- A write to a slice page (Table 04-4). -/
def State.writePage (s : State) (n off : Nat) (v : BitVec 64) : State :=
  let c := s.ctx n
  if 0x100 ≤ off && off < 0x140 then s.writeRing (.slice n) (off - 0x100) v
  else if off = 0x158 then
    s.setCtx n { c with
      accessErr := c.accessErr && !v.getLsbD 0, dbErr := c.dbErr && !v.getLsbD 1, pwErr := c.pwErr && !v.getLsbD 2
      dmaErr := c.dmaErr && !v.getLsbD 3 }
  else if off = 0x170 then s.setCtx n { c with irqEn := v.getLsbD 0 }
  else s

/-- A misaccess (R128): ACCESS_ERR of MGR_ERR or SLC_ERR. -/
def State.misaccess (s : State) (i : Nat) : State := s.setCtx i { s.ctx i with accessErr := true }

/-- A write to BAR2: other writes to the push windows are discarded (R142). -/
def State.write2 (s : State) (off size : Nat) (v : BitVec 64) : State :=
  let n := off / 0x1000
  if off % 0x1000 < 0x100 then s.setCtx n { s.ctx n with pwErr := true }
  else if size = 8 && off % 8 = 0 then s.writePage n (off % 0x1000) v
  else if (s.page n (off % 0x1000 / 8 * 8)).isSome then s.misaccess n
  else s

/-- REGISTER_WRITE (R128). A register that has a row of its own is written with the effect of that row. DESIGN CHOICE (log
entry 137): a misaligned or short write is judged by the register at `off / 8 * 8` alone, the one in which it begins. -/
def execRegisterWrite (bar off size : Nat) (v : BitVec 64) (s : State) : Host.Outcome State Fault Refusal :=
  .next (if !s.hostOn then s
  else if bar = 0 then
    if size = 8 && off % 8 = 0 then s.write0 off v
    else if (s.bar0 (off / 8 * 8)).isSome then s.misaccess 64
    else s
  else if bar = 2 && off < 0x40000 then s.write2 off size v
  else s)

end Sys2Proof.Machine
end

