-- ==== Sys2Proof/Machine/Reset.lean ====
section
/-! DEFINITION. Power-up, readiness, and the resets (chapter 17): boot choice, resume value (R66, R67), MAIN_POWER_UP,
MODULE_READY, FUNCTION_LEVEL_RESET, DEVICE_RESET, SHUTDOWN_WARNING and MAIN_POWER_LOST. -/

namespace Sys2Proof.Machine

/-! ### Boot (R579, R582, R595) -/

/-- The bank that the boot ROM tries first. -/
def Power.firstBank (p : Power) : Nat := p.pendBank.getD p.active

/-- EV_FW_ACTIVATE. -/
def State.activateEvent (s : State) (old new : Nat) : State :=
  s.event 0x0C07 noOrigin (be 2 old ++ be 2 new ++ be 2 s.pow.floor)

/-- A pending image that fails before ready: the mark is cleared (R582). -/
def State.dropPending (s : State) : State :=
  let old := (s.pow.bankAt s.pow.active).build
  (s.mapPow (fun p => { p with pendBank := none })).activateEvent old old

/-- The boot ROM's choice, of which `bad` banks in order fail their integrity test (R579, Table 17-4). -/
def State.boot (s : State) (bad : Nat) : State :=
  let b := s.pow.firstBank
  let spoil := fun (i : Nat) (p : Power) => p.setBank i (p.bankAt i).invalid
  let s := if 1 ≤ bad then s.mapPow (spoil b) else s
  let s := if 2 ≤ bad then s.mapPow (spoil (1 - b)) else s
  if s.pow.bankOk b then s.mapPow (fun p => { p with running := b })
  else
    let s := if s.pow.pendBank.isSome then s.dropPending else s
    if s.pow.bankOk (1 - b) then s.mapPow (fun p => { p with running := 1 - b })
    else s.haltModule

/-- Boot and self-tests of a start (R571, R573). A failing unit 0 is what the boot ROM meets. -/
def State.start (s : State) (fails : List TestFail) : State :=
  let image := fails.filter (fun f => f.unit == 0)
  let s := image.foldl (fun s f => s.event 0x0C04 noOrigin [0#8, byte f.test]) s
  let s := s.boot image.length
  let s := if s.pow.anyBank || !image.isEmpty then s else s.event 0x0C04 noOrigin [0#8, 4#8]
  (s.mapPow (fun p => { p with failed := image.map (·.unit) })).runTests noOrigin (fails.filter (fun f => f.unit != 0))

/-- A start that has come to its firmware: the model stops where a version other than Drinum 3.2 would run (R17). -/
def State.started (s : State) : Host.Outcome State Fault Refusal :=
  if s.pow.anyBank && (s.pow.bankAt s.pow.running).version != 0x0302 then .fault .ungovernedFirmware else .next s

/-! ### DEVICE_RESET -/

/-- What a device reset clears in every chapter (Table 17-8). Replies of requests in flight are not written, and GREEN and
RIPE records turn WINDFALL without a reply (Table 08-12). -/
def State.clearDevice (s : State) : State :=
  let kept := s.recs.filter (fun r => r.st == .confirmed || r.st == .offered)
  let s := { s with live := [], recs := kept }.endCeremony 2 noOrigin
  let s := (s.zeroEngines.resetLanes.clearHost.clearTable.zeroData.clearSerial.clearLoops).advance (List.range 66)
  { s with vpA := s.vpA.close, vpB := s.vpB.close }

/-- Whether a device reset has a trigger: one that SYS.RESET or FW.ACTIVATE armed, or SYS_RST_N (Table 17-7). -/
def State.resetDue (s : State) (cause : Nat) : Bool :=
  s.pow.main && !s.pow.warned && s.pow.ready && (s.pow.armed == some cause || cause == 6)

/-- The power state of a start. -/
def Power.begin (p : Power) (k : Nat) : Power :=
  { p with starting := some k, ready := false, armed := none, unapprove := false }

/-- DEVICE_RESET (R587-R590). `fails` lists the self-tests that fail after it. -/
def execDeviceReset (cause : Nat) (fails : List TestFail) (s : State) : Host.Outcome State Fault Refusal :=
  if !s.resetDue cause then .next s
  else (((s.clearDevice.mapHp (fun h => { h with d3hot := false })).mapPow (fun p => p.begin cause)).start fails).started

/-! ### FUNCTION_LEVEL_RESET -/

/-- Whether a request came over the host port. -/
def Rq.fromHost (rq : Rq) : Bool :=
  match rq.route with
  | .ring _ _ _ _ _ | .push _ _ => true
  | .console | .vital _ _ => false

/-- A slice reset in progress completes, its reply unwritten (Table 17-11). -/
def State.endResets (s : State) : State :=
  s.live.foldl (fun s l => match l.job with
    | .sliceReset n => s.resetSlice n l.rq.route.origin
    | _ => s) s

/-- Requests of the host port end without a reply; a card that runs for one of them is deactivated. -/
def State.dropHost (s : State) : State :=
  let card := s.live.any (fun l => l.job == .card && l.rq.fromHost)
  let s := { s with live := s.live.filter (fun l => !l.rq.fromHost) }
  if card then s.endExchange else s

/-- Whether work on a lane is bulk work. -/
def Work.isBulk : Work → Bool
  | .bulk _ | .kat => true
  | .first _ _ | .second _ _ => false

/-- Lanes at a function level reset: bulk work is discarded, release records go on (Table 17-8), RETIRING completes to
RETIRED and TESTING becomes RETIRED (Table 11-10). -/
def State.flrLane (s : State) (i : Nat) : State :=
  let l := s.lane i
  match l.st with
  | .retiring => (s.laneRetired i noOrigin).rehome l.work
  | .testing => s.setLane i { l with st := .retired }
  | .inService | .retired | .probation => s.clearLane i Work.isBulk

/-- What a function level reset clears (Table 17-8). -/
def State.clearFunction (s : State) : State :=
  let s := s.endResets.dropHost
  let s := (List.range 4).foldl State.flrLane s
  let s := (s.mapMult (fun m => { m with acc := List.replicate 16 0, scratch := [] })).mapKs (fun k => { k with cache := [] })
  (s.clearHost.clearTable.zeroData).advance (List.range 65)

/-- FUNCTION_LEVEL_RESET (R587-R590); the causes are 1 function level reset, 2 hot reset or link down, 3 PERST_N. -/
def execFunctionLevelReset (cause : Nat) (s : State) : Host.Outcome State Fault Refusal :=
  .next (if s.pow.main && !s.pow.warned && 1 ≤ cause && cause ≤ 3 then
    (s.clearFunction.mapHp (fun h => { h with d3hot := false })).event 0x0C03 noOrigin [byte cause]
  else s)

/-! ### SHUTDOWN_WARNING and MAIN_POWER_LOST -/

/-- Every channel's flash copy brought up to its backup copy (R300). -/
def State.copyWindows (s : State) : State :=
  s.chans.foldl (fun s e => match e.2.backup with
    | none => s
    | some h => s.setChan e.1 { e.2 with flash := h }) s

/-- The EV_LOG_OVERFLOW that a shutdown warning brings forward while no stamp is issued (R556). -/
def State.overflowNow (s : State) : State :=
  if s.evr.lost = 0 || s.ph.issuing then s
  else
    (s.mapEvr (fun e => { e with lost := 0, lostCode := 0, overflow := true })).event 0x0D02 noOrigin
      (be 4 (sat 32 s.evr.lost) ++ be 2 s.evr.lostCode)

/-- SHUTDOWN_WARNING (R585), `n` backup ticks after the last reading. -/
def execShutdownWarning (n : Nat) (s : State) : Host.Outcome State Fault Refusal :=
  .next (if !s.pow.main || s.pow.warned then s
  else
    let s := (s.tick n).mapPow (fun p => { p with warned := true })
    let s := if s.ph.issuing then s.persist else if s.ph.st == .stopped then s else s.persistEpochs
    s.copyWindows.overflowNow.event 0x0C02 noOrigin [])

/-- The phase unit without main power: no stamp is issued; STOPPED stays. -/
def Phase.down (p : Phase) : Phase :=
  { p with
    st := if p.st = .stopped then .stopped else .none, missing := 0, good := 0, history := [], since := 0
    left := 0, corr := 0 }

/-- A serial port without power. -/
def SerialPort.off (q : SerialPort) : SerialPort := { q.clear with powered := false }

/-- Key records whose write power loss interrupts (Table 09-10): the slot, and whether copy B was being written. -/
def State.tearRecord (s : State) (k : Nat) (copyB : Bool) : State :=
  if k < 0x40 then s.mapKs (fun v => { v with devs := v.devs.put .init k ((v.devs.get .init k).tear copyB) })
  else
    match (s.slot k).key with
    | none => s
    | some key => s.setSlot k { s.slot k with key := some { key with flash := key.flash.tear copyB } }

/-- MAIN_POWER_LOST (Table 17-7): what the core domain holds is lost. A write of a copy or of a key record
that it interrupts shows at power-up (Tables 02-8 and 09-10). -/
def execMainPowerLost (s : State) : Host.Outcome State Fault Refusal :=
  .next (if !s.pow.main then s
  else
    let s := { s with live := [], recs := [] }.zeroEngines.clearHost.clearTable.clearLoops
    let s := s.mapCus (fun v => { v with
      exch := none, cardA := v.cardA.off, cardB := v.cardB.off, console := v.console.clear })
    let s := { s with vpA := s.vpA.close, vpB := s.vpB.close, wm := ⟨[], []⟩ }
    let s := (s.mapPh Phase.down).mapHp (fun h => { h with linkUp := false, d3hot := false })
    let s := s.mapKs (fun k => { k with eph := none, offer := [] })
    s.mapPow (fun p => { p with main := false, ready := false, starting := none, armed := none }))

/-! ### MAIN_POWER_UP -/

/-- The backup tick difference in cycles at the upper limit of the band, rounded up (R66). -/
def offCycles (band ticks : Nat) : Nat := (ticks * (bandRange band).2 + 32767) / 32768

/-- The highest C in the stamp field of an entry (R67). -/
def State.highestC (s : State) : Nat := (s.entries.map (fun e => fld e.bytes 5 5)).foldl max 0

/-- The resume value (R66, R67); none when neither a copy nor an entry is left (R87). `lost` says that the backup domain was
without power. -/
def State.resumeValue (s : State) (lost : Bool) : Option Resume :=
  match newestCopy s.ph.copies with
  | some k =>
    if lost then some ⟨k.c + 0x1000000000, k.c, 1⟩
    else some ⟨k.c + offCycles s.ph.band (s.ph.ticks - k.ticks) + 65536, k.c, 0⟩
  | none => if s.entries.isEmpty then none else some ⟨s.highestC + 0x1000000000, s.highestC, 2⟩

/-- The phase unit at power-up (R66-R69, R87): what it keeps and the state it enters. The registers start from their reset
values (R79); the last stamp issued stays known, for R92. -/
def Phase.up (p : Phase) (r : Option Resume) : Phase :=
  let kept := { Phase.init with
    cSet := p.cSet, resume := p.resume, resumed := p.resumed, cp := p.cp, tp := p.tp, seq := p.seq
    copies := p.copies, ticks := p.ticks }
  if p.st = .stopped then { p with fresh := false }
  else if !p.cSet then kept
  else
    let at' := { kept with band := p.band, c := p.c, phi := p.phi }
    match r with
    | none => { at' with st := .fault }
    | some v => { at' with st := .acquire, waiting := some v, unbounded := v.rule != 0, cp := v.cp }

/-- The phase unit starts; without copies and entries EV_PH_LOST is recorded (R87). -/
def State.startPhase (s : State) (lost : Bool) : State :=
  let r := s.resumeValue lost
  let t := s.mapPh (fun p => p.up r)
  if t.ph.st == .fault then t.event 0x0106 noOrigin [] else t

/-- The epochs at power-up (R100): those of the newest copy, each advanced, or drawn when no copy is valid. -/
def State.startEpochs (s : State) : State :=
  match newestCopy s.ph.copies with
  | some k =>
    ((List.range 66).foldl (fun s i => s.setCtx i { s.ctx i with epoch := k.epochs.getD i 1 }) s).advance (List.range 66)
  | none =>
    let s := (List.range 66).foldl (fun s i =>
      (s.setCtx i { (s.ctx i).advance with epoch := 1 + fromBe (s.drawBytes 3) % 0xFFFFFF }).drewBytes 3) s
    s.persistEpochs

/-- A channel whose backup-domain copy of the highest accepted sequence number is invalid: the flash copy plus 1,024 (R321). -/
def State.loseSeq (s : State) (i : Nat) : State := s.setChan i { s.chan i with backup := some ((s.chan i).flash + 1024) }

/-- What a backup domain without valid contents loses (R539, R359, R559, R321, R67): its stamp copies, latches and queue, the
staging buffer, the sequence-number copies, and the storage root with every key under it. -/
def State.loseBackup (s : State) : State :=
  let s := s.mapPh (fun p => { p with copies := (p.copies.set 0 none).set 1 none })
  let s := s.mapTam (fun t => { t with latched := 0, alarm := false, lock := false, erase := false, queue := [] })
  let s := (List.range 256).foldl State.loseSeq s
  let s := s.mapEvr (fun e =>
    match e.flash.getLast? with
    | none => { e with staged := [], next := 256, head := (Evr.init s.ks.deviceId).head }
    | some x => { e with staged := [], next := x.seq + 257, head := sha256 (x.before ++ x.bytes) })
  let s := s.event 0x0B04 noOrigin []
  if s.tam.life == .service || s.tam.life == .locked then s.eraseAll.toLife .blank 3 noOrigin
  else s.dropRoot

/-- Staged entries reach flash at power-up, before the first new entry (R561). -/
def State.flushAll (s : State) : State := s.mapEvr (fun e => { e with flash := e.flash ++ e.staged, staged := [] })

/-- Keys at power-up: GCM counts advance (R390), and the rest of each HSS block is abandoned (R368). -/
def Key.up (k : Key) : Key :=
  { k with gcm := k.gcmMem + 1024, gcmMem := k.gcmMem + 1024, hss := { k.hss with leaf := k.hss.next } }

/-- Every key at power-up. -/
def State.startKeys (s : State) : State :=
  let s := s.keys.foldl (fun s e => s.setSlot e.1 { s.slot e.1 with key := some e.2.up }) s
  s.mapKs (fun k => { k with hss := { k.hss with leaf := k.hss.next } })

/-- A lane at power-up (Table 11-10): probation restarts with 256 comparisons due. -/
def Lane.up (l : Lane) : Lane :=
  { l with
    gated := false, work := [], queue := [], copies := [], left := if l.st = .probation then 256 else l.left
    st := if l.st = .retiring || l.st = .testing then .retired else l.st }

/-- Every lane at power-up, and the multiplier. -/
def State.startLanes (s : State) : State :=
  let s := (List.range 4).foldl (fun s i => s.setLane i (s.lane i).up) s
  { s with mult := .init }

/-- Tamper sources resampled (R510, Table 15-10). -/
def State.resample (s : State) (sources : List Nat) : State :=
  let on := (List.range 16).filter (fun i => i ∈ sources && !bit s.tam.fused i)
  s.mapTam (fun t => { t with asserted := on.foldl (fun a i => setBit a i true) 0, due := on, restart := false })

/-- A transition to DECOMMISSIONED that the backup domain latched (R515): no tombstone. -/
def State.applyDecom (s : State) : State :=
  if s.tam.decom.isSome then (s.mapKs (fun k => { k with tombstone := none, tombed := false })).entomb else s

/-- The power state after main power returns. -/
def Power.up (p : Power) : Power :=
  { p.begin 0 with
    main := true, halted := false, warned := false, drbgStop := false, drbgReqs := 0, failed := [], selftest := 0
    loopFail := false, turn := 0 }

/-- MAIN_POWER_UP (R571, R66-R69, R100, R321, R368, R390, R510, R539, R561). -/
def execMainPowerUp (p : PowerUp) (s : State) : Host.Outcome State Fault Refusal :=
  if s.pow.main then .next s
  else
    let s := (s.tick p.ticks).mapPow Power.up
    let s := p.torn.foldl (fun s r => s.tearRecord r.1 r.2) (s.mapPh (fun h => h.damage p.badCopies))
    let s := if p.backup then (p.badSeqs.filter (· < 256)).foldl State.loseSeq s else s.loseBackup
    let s := (s.flushAll.mapEvr (fun e => { e with limited := 0 })).applyDecom.startPhase (!p.backup)
    let s := (s.startEpochs.startKeys.startLanes.restartWindows).resample p.asserted
    let s := { s with vpA := { s.vpA with failed := false }, vpB := { s.vpB with failed := false } }
    let s := s.mapCus (fun v => { v with
      cardA := { v.cardA with failed := false }, cardB := { v.cardB with failed := false } })
    (s.start p.fails).started

/-! ### MODULE_READY (R571, R572, R532, R582) -/

/-- One queued firing recorded (R532). -/
def State.recordQueued (s : State) (q : Queued) : State :=
  s.event 0x1B01 noOrigin
    ([byte q.source, byte q.response] ++ be 2 q.further ++ be 4 (sat 32 (s.ph.ticks - q.ticks)))

/-- The latches of the outage applied: the strongest, with the weaker (R513, R532). -/
def State.applyLatches (s : State) : State :=
  let t := s.tam
  let s := s.mapTam (fun t => { t with queue := [], alarm := false, lock := false, erase := false })
  let s := if t.alarm then s.alarm else s
  let s := if t.erase then s.erase 0 else if t.lock then s.lockDown else s
  s.mapTam (fun t => { t with restart := false })

/-- Sources found asserted at power-up fire (R510). -/
def State.fireDue (s : State) : State :=
  ((s.tam.due.foldl State.fireSource (s.mapTam (fun t => { t with due := [] }))).endDecom).mapTam (fun t =>
    { t with restart := false })

/-- Events held since power-up (Table 16-5). -/
def State.recordHeld (s : State) : State :=
  s.evr.held.foldl (fun s e => s.event e.code e.origin e.detail) (s.mapEvr (fun e => { e with held := [] }))

/-- A power-up that becomes ready: queue, latches, held events, EV_POWER_UP (Table 17-3); an open ceremony is EXPIRED (Table
13-10). -/
def State.readyUp (s : State) : State :=
  let s := (s.tam.queue.foldl State.recordQueued s).endCeremony 3 noOrigin
  let s := s.applyLatches.recordHeld.fireDue
  s.event 0x0C01 noOrigin (be 2 s.pow.shownBuild ++ [byte s.pow.selftest])

/-- FW_FLOOR after an activation (R582, R583). -/
def Power.raise (p : Power) (floor : Nat) : Power :=
  if p.floor < floor && p.rises < 255 then { p with floor := floor, rises := p.rises + 1 } else p

/-- The pending image at ready (R582). -/
def State.activateFw (s : State) : State :=
  match s.pow.pendBank with
  | none => s
  | some b =>
    if s.pow.halted then s.dropPending.mapPow (fun p => { p with running := p.active })
    else
      let old := (s.pow.bankAt s.pow.active).build
      let s := s.mapPow (fun p => { (p.raise (p.bankAt b).floor) with active := b, pendBank := none })
      s.activateEvent old (s.pow.bankAt b).build

/-- MODULE_READY: after a power-up when the stamp has resumed, or when none is to come (R572); after a device reset (R590). -/
def execModuleReady (s : State) : Host.Outcome State Fault Refusal :=
  .next (match s.pow.starting with
    | none => s
    | some k =>
      if !s.pow.main || (k == 0 && s.ph.st == .acquire) then s
      else
        let s := s.mapPow (fun p => { p with starting := none })
        let s := if k = 0 then s.readyUp else s.event 0x0C03 noOrigin [byte k]
        ((s.activateFw.mapPow (fun p => { p with ready := true })).evaluate noOrigin).scanLoops)

end Sys2Proof.Machine
end

