-- ==== Sys2Proof/Machine/Seal.lean ====
section
/-! DEFINITION. SEAL and HASH commands and bulk segments (chapter 11). A SEAL operation is computed when it is accepted and
released, segment by segment, by SEGMENT_COMPLETE. -/

namespace Sys2Proof.Machine

/-- ALG codes of Table 11-2. -/
def algCbc : Nat := 1
def algCtr : Nat := 2
def algGcm : Nat := 3
def algCcm : Nat := 4
def algCmac : Nat := 5
def algKw : Nat := 6
def algKwp : Nat := 7

/-- Whether an ALG carries a tag. -/
def tagged (alg : Nat) : Bool := alg == algGcm || alg == algCcm || alg == algCmac

/-- Whether the D256 draws the IV (Table 11-2). -/
def drawsIv (alg op : Nat) : Bool := op == 1 && (alg == algGcm || alg == algCcm)

/-- Limits of Table 11-2 on IV_LEN. -/
def ivOk (alg n : Nat) : Bool :=
  if alg = algCbc || alg = algCtr then n == 16
  else if alg = algGcm then n == 12
  else if alg = algCcm then decide (7 ≤ n) && decide (n ≤ 13)
  else n == 0

/-- Limits of Table 11-2 on TAG_LEN. -/
def tagOk (alg n : Nat) : Bool :=
  if alg = algGcm then decide (12 ≤ n) && decide (n ≤ 16)
  else if alg = algCcm then decide (4 ≤ n) && decide (n ≤ 16) && n % 2 == 0
  else if alg = algCmac then decide (8 ≤ n) && decide (n ≤ 16)
  else true

/-- Limits of Table 11-2 on the data of one packet; what an open of KW or KWP reads is 8 B longer, and padded, than the
data it gives (log entry 20). -/
def dataOk (alg op ivLen n : Nat) : Bool :=
  if alg = algCbc then decide (16 ≤ n) && n % 16 == 0
  else if alg = algCtr then decide (1 ≤ n)
  else if alg = algCcm then decide (n < 2 ^ (8 * (15 - ivLen)))
  else if alg = algKw then
    let m := if op = 1 then n else n - 8
    decide (16 ≤ m) && decide (m ≤ 4096) && n % 8 == 0
  else if alg = algKwp then
    if op = 1 then decide (1 ≤ n) && decide (n ≤ 4096) else decide (16 ≤ n) && decide (n ≤ 4104) && n % 8 == 0
  else true

/-- The usage bit that an operation needs (R389). -/
def sealUse (alg op : Nat) : Nat := if alg = algCmac then uMac else if op = 1 then uEncrypt else uDecrypt

/-- Length of the descriptor at an offset, zero when it is absent. -/
def descLen (b : List Byte) (i : Nat) : Nat := if descAbsent b i then 0 else (descAt b i).len

/-- The descriptor of data or associated data that may be absent: more than 16 MiB is a data length outside the limits (R151,
R388). -/
def State.dataDesc (s : State) (rq : Rq) (at' : Nat) : List (Bool × Status × Nat) :=
  (decide (16777216 < descLen rq.body at'), .length, 0x00B1) :: s.mayDesc rq at' 1

/-- The descriptor at an offset as an output, none when it is absent. -/
def outAt (b : List Byte) (i : Nat) : Option Desc := if descAbsent b i then none else some (descAt b i)

/-- Length of an operation's output, as far as its input length gives it. -/
def outLen (alg op n : Nat) : Nat :=
  if alg = algCmac then 0
  else if alg = algKw then (if op = 1 then n + 8 else n - 8)
  else if alg = algKwp then (if op = 1 then (n + 7) / 8 * 8 + 8 else 0)
  else n

/-- The ALG field against the key's TYPE (R388). -/
def State.typeCheck (s : State) (owner k t : Nat) : List (Bool × Status × Nat) :=
  [(match s.keyFor owner k with
    | none => false
    | some key => key.attr.type != t, .policy, 0x00B0)]

/-- The GCM protect limit of R390. -/
def State.gcmCheck (s : State) (owner k alg op : Nat) : List (Bool × Status × Nat) :=
  [(match s.keyFor owner k with
    | none => false
    | some key => alg == algGcm && op == 1 && decide (2 ^ 32 ≤ key.gcm), .policy, 0x00B3)]

/-- One GCM protect operation counted, and its flash copy at every 1,024th (R390). -/
def Key.countGcm (k : Key) : Key :=
  { k with gcm := k.gcm + 1, gcmMem := if k.gcmMem + 1024 ≤ k.gcm + 1 then k.gcm + 1 else k.gcmMem }

/-- The count of a key after an operation. -/
def State.counted (s : State) (k : Nat) (key : Key) (alg op : Nat) : State :=
  if alg = algGcm && op = 1 then s.setSlot k { s.slot k with key := some key.countGcm } else s

/-- Segments of at most 4 KiB that an operation is cut into (R395). -/
def segments (n : Nat) : Nat := max 1 ((n + 4095) / 4096)

/-! ### Streams (R400): data in parts -/

/-- A stream before its first data: B0, associated data and counters. -/
def Stream.start (owner handle k : Nat) (key : List Byte) (alg op tagLen : Nat) (iv aad : List Byte) (total : Nat) :
    Stream :=
  { owner := owner, handle := handle, key := k, alg := alg, op := op, tagLen := tagLen, iv := iv
    chain := if alg = algCbc then iv else zeros 16
    mac := if alg = algGcm then be 16 (ghash (ghashKey key) 0#128 aad).toNat
      else if alg = algCcm then cbcMac key (zeros 16) (ccmHead iv aad total tagLen)
      else zeros 16
    last := [], count := 0, aadLen := aad.length, total := total }

/-- A part of a stream's data: the output and the stream after it. -/
def Stream.step (t : Stream) (key data : List Byte) : List Byte × Stream :=
  let n := t.count / 16
  let u := { t with count := t.count + data.length }
  if t.alg = algCbc then
    let (o, c) := if t.op = 1 then cbcEncrypt key t.chain data else cbcDecrypt key t.chain data
    (o, { u with chain := c })
  else if t.alg = algCtr then (ctrCrypt key (fromBe t.iv + n) data, u)
  else if t.alg = algGcm then
    let o := gctr key (t.iv ++ be 4 (2 + n)) data
    let y := ghash (ghashKey key) (BitVec.ofNat 128 (fromBe t.mac)) (if t.op = 1 then o else data)
    (o, { u with mac := be 16 y.toNat })
  else if t.alg = algCcm then
    let o := ccmCrypt key t.iv (1 + n) data
    (o, { u with mac := cbcMac key t.mac (if t.op = 1 then data else o) })
  else
    let all := t.last ++ data
    let keep := (all.length - 1) / 16 * 16
    ([], { u with mac := cbcMac key t.mac (all.take keep), last := all.drop keep })

/-- The tag of a stream after its last data. -/
def Stream.tag (t : Stream) (key : List Byte) : List Byte :=
  if t.alg = algGcm then
    let y := ghash (ghashKey key) (BitVec.ofNat 128 (fromBe t.mac)) (be 8 (8 * t.aadLen) ++ be 8 (8 * t.count))
    (xorBytes (aesEncrypt key (t.iv ++ be 4 1)) (be 16 y.toNat)).take t.tagLen
  else if t.alg = algCcm then (xorBytes t.mac (aesEncrypt key (ccmCtr t.iv 0))).take t.tagLen
  else if t.alg = algCmac then (cmacFinish key t.mac t.last).take t.tagLen
  else []

/-- The reply payload of R405. -/
def sealReply (n : Nat) (iv tag : List Byte) : List Byte :=
  be 4 n ++ [byte iv.length, byte tag.length] ++ zeros 2 ++ padTo 16 iv ++ padTo 16 tag

/-! ### SEAL.ONCE -/

/-- Reserved fields of Table 11-6 common to SEAL.ONCE and SEAL.INIT (R94). -/
def sealReserved (b : List Byte) : Bool :=
  let alg := at8 b 2
  let op := at8 b 3
  !zeroAt b 6 2 || (!tagged alg && at8 b 4 != 0)
    || (if drawsIv alg op || algCmac ≤ alg then !zeroAt b 8 16 else !zeroAt b (8 + at8 b 5) (16 - at8 b 5))
    || (alg != algGcm && alg != algCcm && !descAbsent b 24)

/-- The checks of SEAL.ONCE and SEAL.INIT on ALG, OP, IV and tag (R388, R404). -/
def sealForm (b : List Byte) (most : Nat) : List (Bool × Status × Nat) :=
  let alg := at8 b 2
  let op := at8 b 3
  [(decide (alg < 1) || decide (most < alg) || decide (op < 1) || decide (2 < op) || sealReserved b, .unsupported, 0),
   (!ivOk alg (at8 b 5) || !tagOk alg (at8 b 4), .length, 0x00B2)]

/-- The checks of a SEAL operation on its key (R324, R329, R388, R390). -/
def State.sealKey (s : State) (rq : Rq) (k alg op : Nat) : List (Bool × Status × Nat) :=
  s.keyChecks rq k (fun key => key.may (sealUse alg op)) ++ s.typeCheck rq.owner k 1 ++ s.gcmCheck rq.owner k alg op

/-- The IV of an operation, and the state after it was drawn. -/
def State.sealIv (s : State) (b : List Byte) : List Byte × State :=
  let n := at8 b 5
  if drawsIv (at8 b 2) (at8 b 3) then (s.drawBytes n, s.drewBytes n) else (slice b 8 n, s)

/-- A one-shot operation: status, DETAIL, reply and output. -/
def sealOnce (b : List Byte) (owner k : Nat) (key iv aad data : List Byte) : Status × Nat × List Byte × List Byte :=
  let alg := at8 b 2
  let op := at8 b 3
  if alg = algKw || alg = algKwp then
    let r := if alg = algKw then (if op = 1 then some (kwProtect key data) else kwOpen key data)
      else (if op = 1 then some (kwpProtect key data) else kwpOpen key data)
    match r with
    | none => (.authFail, 0x00B7, [], [])
    | some o => (.ok, 0, sealReply o.length [] [], o)
  else
    let t := Stream.start owner 0 k key alg op (at8 b 4) iv aad data.length
    let (o, u) := t.step key data
    let tag := u.tag key
    if op = 2 && tagged alg && tag != slice b 72 (at8 b 4) then (.authFail, 0x00B7, [], o)
    else (.ok, 0, sealReply o.length iv (if op = 1 then tag else []), o)

/-- A bulk operation put in flight. -/
def Act.bulk (s : State) (b : Bulk) : Act := .park (.bulk b) s

/-- SEAL.ONCE (R404, R405, R407). -/
def doSealOnce (rq : Rq) (s : State) : Act :=
  let b := rq.body
  let k := fld b 0 2
  let alg := at8 b 2
  let op := at8 b 3
  let n := descLen b 40
  Act.guard s
    (needLength rq 88 ++ s.needRandom ++ s.needLane ++ sealForm b 7 ++
      [((alg == algCmac && !descAbsent b 56) || (!(op == 2 && tagged alg) && !zeroAt b 72 16), .unsupported, 0)] ++
      s.dataDesc rq 24 ++ s.dataDesc rq 40 ++ s.mayDesc rq 56 2 ++
      [(!dataOk alg op (at8 b 5) n || decide (descLen b 56 < outLen alg op n), .length, 0x00B1)] ++
      s.sealKey rq k alg op)
    (.withKey s rq k (fun key s =>
      .withInput? s rq 0 24 (fun aad s => .withInput? s rq 1 40 (fun data s => .twice s rq 4 0 (fun s =>
        let (iv, s) := s.sealIv b
        let (st, d, reply, out) := sealOnce b rq.owner k key.secret iv aad data
        if descLen b 56 < out.length then .refuse s .length 0x00B1
        else .bulk (s.counted k key alg op)
          ⟨rq.owner, k, segments (aad.length + data.length), 0, st, d, reply, outAt b 56, out, none, none⟩)))))

/-! ### Streams -/

/-- Streams that a context holds or that SEAL.INITs in flight will open (R401). -/
def State.streamCount (s : State) (i : Nat) : Nat :=
  (s.ctx i).openStreams.length +
    (s.live.filter (fun l => match l.job with
      | .bulk b => ctxOf b.owner == i && (match b.keep with
        | none => false
        | some t => (s.ctx i).streams.all (fun u => u.handle != t.handle))
      | _ => false)).length

/-- SEAL.INIT (R400, R401, R404). -/
def doSealInit (rq : Rq) (s : State) : Act :=
  let b := rq.body
  let k := fld b 0 2
  let alg := at8 b 2
  let op := at8 b 3
  let total := fld b 40 8
  let i := ctxOf rq.owner
  Act.guard s
    (needLength rq 48 ++ s.needRandom ++ s.needLane ++ sealForm b 5 ++
      [(alg != algCcm && total != 0, .unsupported, 0)] ++ s.dataDesc rq 24 ++
      [(alg == algCcm && !dataOk alg op (at8 b 5) total, .length, 0x00B1)] ++ s.sealKey rq k alg op ++
      [(decide (16 ≤ s.streamCount i) || decide (0xFFFF < (s.ctx i).handle), .busy, 0x00B5)])
    (.withKey s rq k (fun key s => .withInput? s rq 0 24 (fun aad s => .twice s rq 4 0 (fun s =>
      let (iv, s) := s.sealIv b
      let h := (s.ctx i).handle
      let t := Stream.start rq.owner h k key.secret alg op (at8 b 4) iv aad total
      let s := (s.counted k key alg op).setCtx i { s.ctx i with handle := h + 1 }
      .bulk s ⟨rq.owner, k, segments aad.length, 0, .ok, 0, be 2 h ++ zeros 2 ++ padTo 16 iv, none, [], some t, none⟩))))

/-- The stream of a handle. -/
def State.stream (s : State) (i h : Nat) : Option Stream := (s.ctx i).streams.find? (fun t => t.handle == h)

/-- Whether a request in flight has still to work on a stream of its context. -/
def Live.onStream (h : Nat) (l : Live) : Bool :=
  match l.job with
  | .held _ => (l.rq.op == .sealUpdate || l.rq.op == .sealFinal || l.rq.op == .sealAbort) && fld l.rq.body 0 2 == h
  | .bulk b => b.handle == some h
  | _ => false

/-- Whether an operation on a handle that was accepted before a request is in flight (R402). -/
def State.streamBusy (s : State) (rq : Rq) (h : Nat) : Bool := s.live.any (fun l => l.before rq && l.onStream h)

/-- The checks of a part of `n` bytes with room for `room` bytes of output (R388, R402). -/
def Stream.partChecks (t : Stream) (last : Bool) (n room : Nat) : List (Bool × Status × Nat) :=
  [((!last && n % 16 != 0) || !(t.alg == algCcm || dataOk t.alg t.op t.iv.length n)
      || (t.alg == algGcm && decide (2 ^ 36 - 32 < t.count + n)) || decide (room < outLen t.alg t.op n), .length, 0x00B1),
   (t.alg == algCcm && (decide (t.total < t.count + n) || (last && t.count + n != t.total)), .policy, 0x00B9)]

/-- The key checks of a part: a stream whose key was destroyed answers ST_NO_KEY (Table 09-10). -/
def State.partKey (s : State) (rq : Rq) (t : Stream) : List (Bool × Status × Nat) :=
  if t.key = noKeySlot then [(true, .noKey, 0)] else s.keyChecks rq t.key (fun key => key.may (sealUse t.alg t.op))

/-- What SEAL.UPDATE and SEAL.FINAL share: the stream of the handle, its checks, key and data. -/
def sealPart (rq : Rq) (last : Bool) (size : Nat) (s : State) (k : Stream → List Byte → List Byte → State → Act) : Act :=
  let b := rq.body
  let h := fld b 0 2
  let i := ctxOf rq.owner
  Act.guard s s.needLane
    (if s.streamBusy rq h then .park (.held (.stream rq.owner h)) s
     else
       Act.guard s (needLength rq size ++ s.needRandom ++ needZero rq 2 6)
         (match s.stream i h with
          | none => .refuse s .policy 0x00B4
          | some t =>
            Act.guard s
              ([((t.alg == algCmac && !descAbsent b 24)
                  || (last && !(t.op == 2 && tagged t.alg) && !zeroAt b 40 16), .unsupported, 0)] ++
                s.dataDesc rq 8 ++ s.mayDesc rq 24 2 ++ t.partChecks last (descLen b 8) (descLen b 24) ++ s.partKey rq t)
              (.withKey s rq t.key (fun key s => .withInput? s rq 0 8 (fun data s =>
                .twice s rq 4 0 (fun s => k t key.secret data s))))))

/-- SEAL.UPDATE (R402, R406). -/
def doSealUpdate (rq : Rq) (s : State) : Act :=
  sealPart rq false 40 s (fun t key data s =>
    let (o, u) := t.step key data
    .bulk s ⟨rq.owner, t.key, segments data.length, 0, .ok, 0, be 4 o.length, outAt rq.body 24, o, some u, none⟩)

/-- SEAL.FINAL (R402, R405-R407). -/
def doSealFinal (rq : Rq) (s : State) : Act :=
  sealPart rq true 56 s (fun t key data s =>
    let (o, u) := t.step key data
    let tag := u.tag key
    let ok := !(t.op == 2 && tagged t.alg && tag != slice rq.body 40 t.tagLen)
    let reply := if ok then sealReply o.length t.iv (if t.op = 1 then tag else []) else []
    .bulk s ⟨rq.owner, t.key, segments data.length, 0, if ok then .ok else .authFail, if ok then 0 else 0x00B7, reply,
      outAt rq.body 24, o, none, some t.handle⟩)

/-- SEAL.ABORT (R406): it follows the operations of its handle that were accepted before it. -/
def doSealAbort (rq : Rq) (s : State) : Act :=
  let h := fld rq.body 0 2
  let i := ctxOf rq.owner
  Act.guard s (needLength rq 8 ++ s.needLane ++ needZero rq 2 6)
    (if s.streamBusy rq h then .park (.held (.stream rq.owner h)) s
     else .done .ok 0 [] (s.setCtx i ((s.ctx i).setStreams none (some h))))

def execSealInit (v : Via) (x : Ext) (s : State) : Host.Outcome State Fault Refusal :=
  .next (s.request v x (fun o _ => o == .sealInit) doSealInit).schedule

def execSealOnce (v : Via) (x : Ext) (s : State) : Host.Outcome State Fault Refusal :=
  .next (s.request v x (fun o _ => o == .sealOnce) doSealOnce).schedule

def execSealUpdate (v : Via) (x : Ext) (s : State) : Host.Outcome State Fault Refusal :=
  .next (s.request v x (fun o _ => o == .sealUpdate) doSealUpdate).schedule

def execSealFinal (v : Via) (x : Ext) (s : State) : Host.Outcome State Fault Refusal :=
  .next (s.request v x (fun o _ => o == .sealFinal) doSealFinal).schedule

def execSealAbort (v : Via) (x : Ext) (s : State) : Host.Outcome State Fault Refusal :=
  .next (s.request v x (fun o _ => o == .sealAbort) doSealAbort)

/-! ### HASH.DIGEST -/

/-- Limits of Table 11-2 on TAG_LEN of a hash or an HMAC. -/
def hashTagOk (len k n : Nat) : Bool := if k = 0 then n == len else decide (16 ≤ n) && decide (n ≤ len)

/-- The result of HASH.DIGEST. -/
def digestAct (b : List Byte) (mismatch : Bool) (value : List Byte) (s : State) : Act :=
  let n := at8 b 4
  let v := value.take n
  if mismatch then .done .fault 0x00B8 [] (s.fireSource 13)
  else if at8 b 1 = 2 then
    if v = slice b 24 n then .done .ok 0 ([byte n] ++ zeros 67) s else .refuse s .authFail 0x00B7
  else .done .ok 0 ([byte n] ++ zeros 3 ++ padTo 64 v) s

/-- HASH.DIGEST (R408, R420). -/
def doHashDigest (mismatch : Bool) (rq : Rq) (s : State) : Act :=
  let b := rq.body
  let op := at8 b 1
  let k := fld b 2 2
  let h := (Hash.ofAlg (at8 b 0)).getD .sha256
  Act.guard s
    (needLength rq 88 ++ (if k = 0 then [] else s.needRandom) ++
      [((Hash.ofAlg (at8 b 0)).isNone || decide (op < 1) || decide (2 < op) || !zeroAt b 5 3
          || (op == 1 && !zeroAt b 24 64), .unsupported, 0),
       (!hashTagOk h.len k (at8 b 4), .length, 0x00B2)] ++ s.dataDesc rq 8 ++
      (if k = 0 then [] else s.keyChecks rq k (fun key => key.may uMac) ++ s.typeCheck rq.owner k 2))
    (if k = 0 then
      .withInput? s rq 0 8 (fun data s => digestAct b mismatch (h.digest data) s)
     else
      .withKey s rq k (fun key s => .withInput? s rq 0 8 (fun data s => .twice s rq 4 0 (fun s =>
        digestAct b mismatch (hmac h key.secret data) s))))

/-- HASH.DIGEST (R408, R420); a request that waits keeps the mismatch of its hash units with it. -/
def execHashDigest (v : Via) (x : Ext) (mismatch : Bool) (s : State) : Host.Outcome State Fault Refusal :=
  .next (s.request v (if mismatch then { x with misses := x.misses + 1 } else x) (fun o _ => o == .hashDigest)
    (doHashDigest mismatch))

/-! ### Segments -/

/-- The bulk work at the front of a context's queue goes on with a changed job, in its place. -/
def State.setJob (s : State) (l : Live) (j : Job) : State :=
  { s with live := s.live.map (fun m => if m = l then { m with job := j } else m) }

/-- The active bulk work of a lane: its context. -/
def Lane.bulkCtx (l : Lane) : Option Nat :=
  match l.work with
  | .bulk i :: _ => some i
  | _ => none

/-- SEGMENT_COMPLETE, before held requests are looked at again (R396, R397, R415, R416). -/
def State.segment (s : State) (lane : Nat) (mismatch : Bool) : State :=
  match (s.lane lane).bulkCtx with
  | none => s
  | some i =>
    let front := Live.bulkOf i
    match s.live.find? front with
    | none => s.endWork (.bulk i)
    | some l =>
      match l.job with
      | .bulk b =>
        if mismatch then
          let t := (s.setJob l (.bulk { b with tries := b.tries + 1 })).laneFault lane 2
          if 0 < b.tries then (t.finish front (fun m s => match m.job with
            | .bulk c => c.fail m.rq.route.origin s
            | _ => .refuse s .fault 0x00B8)).schedule
          else t
        else
          let t := s.endWork (.bulk i)
          if b.segs ≤ 1 then (t.finish front (fun m s => match m.job with
            | .bulk c => c.finish m.rq.route.origin s
            | _ => .refuse s .fault 0x00B8)).schedule
          else (t.setJob l (.bulk { b with segs := b.segs - 1, tries := 0 })).schedule
      | _ => s

end Sys2Proof.Machine
end

