-- ==== Sys2Proof/Machine/Vital.lean ====
section
/-! DEFINITION. Commands and frames of the vital ports (chapter 07): sessions, polls and release records, IDLE and FETCH frames,
late replies, and the pins VIO and SEL_N. -/

namespace Sys2Proof.Machine

/-- The port of a request that came over one. -/
def Route.port : Route → Port
  | .vital p _ => p
  | .ring _ _ _ _ _ | .push _ _ | .console => .a

/-- ALIVE of the frame that carried a request. -/
def Route.alive : Route → Nat
  | .vital _ a => a
  | .ring _ _ _ _ _ | .push _ _ | .console => 0

/-! ### Sessions (R270, R271) -/

/-- The port MAC of R252. -/
def portMac (key msg : List Byte) : List Byte := (cmac key msg).take 8

/-- Payload bytes 0-17 of a VP.OPEN reply (Table 07-9). -/
def State.openHead (s : State) (p : Port) (number : Nat) : List Byte :=
  be 4 number ++ [portCode p, byte s.ph.band] ++ kcv ((s.vp p).key.getD []) ++ padTo 8 s.ks.deviceId

/-- AUTH of Table 07-9. -/
def State.openAuth (s : State) (p : Port) (cnonce head : List Byte) : List Byte :=
  portMac ((s.vp p).key.getD []) (cnonce ++ s.ph.stamp ++ head)

/-- A port whose session is closed for a new one: stored, pending and partial replies are discarded (R270). -/
def State.closeSession (s : State) (p : Port) : State :=
  let s := { s with live := s.live.filter (fun l => match l.rq.route with
    | .vital q _ => q != p
    | .ring _ _ _ _ _ | .push _ _ | .console => true) }
  s.setVp p { s.vp p with reply := none, ready := none, held := none, stored := zeros 60 }

/-- VP.OPEN (R270). -/
def doVpOpen (rq : Rq) (s : State) : Act :=
  let p := rq.route.port
  Act.guard s (needLength rq 8 ++ s.needStamp ++ s.needRandom)
    (let s := s.closeSession p
     let number := fromBe (s.drawBytes 4)
     let own := fromBe ((s.drewBytes 4).drawBytes 2)
     let s := (s.drewBytes 4).drewBytes 2
     let s := s.setVp p { s.vp p with session := .open', number := number, last := rq.route.alive, own := own, misses := 0 }
     let s := (s.event 0x0501 rq.route.origin (portCode p :: be 4 number)).fire 6
     let head := s.openHead p number
     .done .ok 0 (head ++ s.openAuth p rq.body head) s)

/-- VP.RESYNC (R271). -/
def doVpResync (rq : Rq) (s : State) : Act :=
  let p := rq.route.port
  let n := (s.vp p).number
  Act.guard s (needLength rq 4 ++ s.needStamp ++ [(fld rq.body 0 4 != n, .policy, 0x0075)])
    (let s := s.setVp p { s.vp p with session := .open', last := rq.route.alive, misses := 0 }
     let s := (s.event 0x0502 rq.route.origin (portCode p :: be 4 n)).fire 6
     .done .ok 0 (be 4 n ++ be 6 s.ph.slot) s)

def execVpOpen (v : Via) (x : Ext) (s : State) : Host.Outcome State Fault Refusal :=
  .next (s.request v x (fun o _ => o == .vpOpen) doVpOpen)

def execVpResync (v : Via) (x : Ext) (s : State) : Host.Outcome State Fault Refusal :=
  .next (s.request v x (fun o _ => o == .vpResync) doVpResync)

/-! ### Polls (R272-R279) -/

/-- The bit of a port in the ports of a record. -/
def portBit (p : Port) : Nat := if p == .a then 0 else 1

/-- A record put in ascending order of channel and sequence number. -/
def insertRec (r : Rec) : List Rec → List Rec
  | [] => [r]
  | q :: t => if r.ch < q.ch || (r.ch == q.ch && r.seq < q.seq) then r :: q :: t else q :: insertRec r t

/-- The records readable on a port for a slot, in INDEX order (R273, R274, R277). -/
def State.readable (s : State) (p : Port) (slot : Nat) : List Rec :=
  (s.recs.filter (fun r => r.st == .offered && r.target == slot && bit r.ports (portBit p))).foldr insertRec []

/-- Bytes 6-51 of a RECORD body (Table 07-10). -/
def Rec.vital (r : Rec) : List Byte :=
  [byte r.ch, byte r.len] ++ be 5 r.seq ++ be 5 (r.target / 64) ++ be 2 (r.target % 64 * 1024) ++ padTo 32 (r.data.take r.len)

/-- EMPTY (Table 07-11). -/
def State.emptyResponse (s : State) (slot count reason alive : Nat) : List Byte :=
  response 3 0 alive (be 6 slot ++ be 2 count ++ [byte reason, 0#8] ++ s.ph.stamp)

/-- The response to a VP.POLL (R272-R274). -/
def State.pollResponse (s : State) (p : Port) (slot index alive : Nat) : List Byte :=
  let now := s.ph.slot
  if now < slot then s.emptyResponse slot 0 1 alive
  else if slot + 4 ≤ now then s.emptyResponse slot 0 2 alive
  else
    let rs := s.readable p slot
    match rs[index]? with
    | none => s.emptyResponse slot rs.length 0 alive
    | some r => response 2 (4 * b01 (decide (index + 1 < rs.length))) alive (r.vital ++ portMac ((s.vp p).key.getD []) r.vital)

/-- Whether a slot opens after now and at most 6 µs from now (R275). -/
def Phase.opensSoon (p : Phase) (slot : Nat) : Bool :=
  decide (p.now < slot * 1024) && decide ((slot * 1024 - p.now) * p.rate ≤ 6000 * 65536)

/-- A VP.POLL that executes: its response, or a hold until the slot has opened (R275). The parts of an earlier reply are gone
(Table 07-14); its own response has none. -/
def State.poll (s : State) (p : Port) (slot index alive : Nat) : State :=
  let s := s.setVp p { s.vp p with pollSlot := slot, pollValid := true, reply := none }
  if s.ph.opensSoon slot then s.setVp p { s.vp p with held := some (slot, index, alive) }
  else s.answerFrame p true (s.pollResponse p slot index alive)

/-- The checks of VP.POLL (R272, R62). -/
def doVpPoll (rq : Rq) (s : State) : Act :=
  Act.guard s
    (needLength rq 8 ++ s.needStamp ++
      [(decide (2 ^ 46 ≤ fld rq.body 0 6), .unsupported, 0), (decide (1023 < fld rq.body 6 2), .range, 0)])
    (.done .ok 0 [] s)

/-- The answer to a VP.POLL frame: RECORD or EMPTY, or REPLY after a failed check (R272). -/
def answerPoll (p : Port) (bad : Option (Nat × Nat)) (rq : Rq) (alive : Nat) : Act → State
  | .done .ok _ _ t => (t.spoil bad).poll p (fld rq.body 0 6) (fld rq.body 6 2) alive
  | .done st d _ t => t.refuseFrame p rq.op.code alive st d
  | .park _ t => t

/-- VP.POLL (R272-R275). It is a command of the vital ports alone, so other arrivals meet Table 03-6. -/
def execVpPoll (v : Via) (x : PollExt) (s : State) : Host.Outcome State Fault Refusal :=
  .next (match v with
    | .vital p f =>
      if (s.vp p).isMine f (fun o _ => o == .vpPoll) then
        s.frame p f (fun s => s.serveRequest p f x.x doVpPoll (answerPoll p x.bad))
      else s
    | .ring _ | .push _ _ _ | .console => s.request v x.x (fun o _ => o == .vpPoll) doVpPoll)

/-- HELD_POLL_RESPONSE (R275): once the slot has opened the response is built and RDY rises; until then RDY stays low. A
double-bit error found in a record comes first (R319). -/
def execHeldPollResponse (h : HeldPoll) (s : State) : Host.Outcome State Fault Refusal :=
  let p := h.port
  .next (match (s.vp p).held with
    | none => s
    | some (slot, index, alive) =>
      if s.ph.slot < slot then s
      else
        let s := s.spoil h.bad
        (s.setVp p { s.vp p with held := none }).answerFrame p true (s.pollResponse p slot index alive))

/-! ### IDLE, FETCH, late replies -/

/-- An accepted IDLE frame (R254, R263); OPCODE and PART are zero in it (R256). -/
def State.serveIdle (s : State) (p : Port) (f : Frame) : State :=
  let v := s.vp p
  match firstFail (v.frameChecks f ++ [(!zeroAt f.bytes 6 4, .unsupported, 0)]) with
  | some (st, d) => s.refuseFrame p 0 (fld f.bytes 2 2) st d
  | none =>
    match v.ready with
    | some r => (s.setVp p { v with ready := none }).answerFrame p true (r.part 0 r.alive)
    | none => s.answerFrame p true (s.noneResponse p)

/-- IDLE_FRAME (R254). -/
def execIdleFrame (p : Port) (f : Frame) (s : State) : Host.Outcome State Fault Refusal :=
  .next (if (s.vp p).kind f == .bad || (s.vp p).kind f == .idle then s.frame p f (fun s => s.serveIdle p f) else s)

/-- Parts of a reply (R262). -/
def VReply.parts (r : VReply) : Nat := max 1 ((r.body.length + 37) / 38)

/-- An accepted FETCH frame (R262, R263). It is a request frame, so it meets steps 4 to 6 of Table 07-7 with its OPCODE. -/
def State.serveFetch (s : State) (p : Port) (f : Frame) : State :=
  let v := s.vp p
  let alive := fld f.bytes 2 2
  let part := fld f.bytes 8 2
  let code := fld f.bytes 6 2
  if s.portPending p then s.refuseFrame p code alive .busy 0x0072
  else
    match Op.ofCode code with
    | none => s.refuseFrame p code alive .unsupported 0
    | some o =>
      match firstFail (s.portChecks (.vital p alive) p o ++ v.frameChecks f) with
      | some (st, d) => s.refuseFrame p code alive st d
      | none =>
        match v.reply with
        | none => s.refuseFrame p code alive .length 0x0071
        | some r =>
          if r.parts ≤ part then s.refuseFrame p code alive .length 0x0071 else s.answerFrame p true (r.part part alive)

/-- FETCH (R262). -/
def execFetch (p : Port) (f : Frame) (s : State) : Host.Outcome State Fault Refusal :=
  .next (if (s.vp p).kind f == .bad || (s.vp p).kind f == .fetch then s.frame p f (fun s => s.serveFetch p f) else s)

/-- Whether a request in flight is one whose reply is late on a port. -/
def Live.isLate (p : Port) (l : Live) : Bool :=
  match l.rq.route, l.job with
  | .vital q _, .late _ _ _ => q == p
  | _, _ => false

/-- The reply of a late request; AUTH of a VP.OPEN is over the STAMP of that reply. -/
def lateReply (l : Live) (s : State) : Act :=
  match l.job with
  | .late st d b =>
    if l.rq.op == .vpOpen && st == .ok then
      .done st d (b.take 18 ++ s.openAuth l.rq.route.port l.rq.body (b.take 18)) s
    else .done st d b s
  | j => .park j s

/-- PENDING_REPLY_READY (R263): the reply waits for the next IDLE frame. -/
def execPendingReplyReady (p : Port) (s : State) : Host.Outcome State Fault Refusal :=
  .next (s.finish (Live.isLate p) lateReply)

/-! ### Pins -/

/-- VP_FRAME_UNSTARTED (R246, R248): SEL_N falls while RDY is low, in the ordinary stretch after a frame or without limit. -/
def execVpFrameUnstarted (p : Port) (s : State) : Host.Outcome State Fault Refusal :=
  .next (if s.rdyHigh p && !(s.vp p).stretch && (s.vp p).vio then s else s.unstarted p)

/-- SEL_N_LOW_TIMEOUT (R247): the frame, which started with CLK at a level (R244), is ignored. -/
def execSelNLowTimeout (f : LowFrame) (s : State) : Host.Outcome State Fault Refusal :=
  let p := f.port
  .next (if s.rdyHigh p && (s.vp p).vio then (s.startFrame p f.clkHigh).ignoreFrame p else s.unstarted p)

/-- VIO_LOW (R607). -/
def execVioLow (p : Port) (s : State) : Host.Outcome State Fault Refusal := .next (s.setVp p { s.vp p with vio := false })

/-- VIO_RESTORED (R607). -/
def execVioRestored (p : Port) (s : State) : Host.Outcome State Fault Refusal := .next (s.setVp p { s.vp p with vio := true })

end Sys2Proof.Machine
end

