-- ==== Sys2Proof/Machine/Resume.lean ====
section
/-! DEFINITION. Requests that waited run again: the command-specific part of every opcode, one pass over the held requests, and
the rows that end something others wait for. -/

namespace Sys2Proof.Machine

/-- The command-specific part of a request, by its opcode. Operands of a row that are not in the request stand at the values of
a run without faults (log entry 31). -/
def handle (rq : Rq) (s : State) : Act :=
  match rq.op with
  | .sysInfo => doSysInfo rq s
  | .sysSelftest => doSysSelftest [] rq s
  | .sysReset => doSysReset rq s
  | .stampRead => doStampRead rq s
  | .stampReport => doStampReport rq s
  | .sliceCreate => doSliceCreate rq s
  | .sliceBind => doSliceBind rq s
  | .sliceQuota => doSliceQuota rq s
  | .sliceQuiesce => doSliceQuiesce rq s
  | .sliceResume => doSliceResume rq s
  | .sliceReset => doSliceReset rq s
  | .sliceRemove => doSliceRemove rq s
  | .sliceStatus => doSliceStatus rq s
  | .sliceEmigrate => doSliceEmigrate none rq s
  | .sliceImmigrate => doSliceImmigrate false rq s
  | .sliceReceipt => doSliceReceipt rq s
  | .sliceRefuse => doSliceRefuse rq s
  | .channelInvalidate => doChannelInvalidate rq s
  | .channelStatus => doChannelStatus rq s
  | .fieldCommand => if isLoad rq.body then doFieldLoad rq s else doFieldCommand rq s
  | .keyGen => doKeyGen rq s
  | .keyImport => doKeyImport rq s
  | .keyWrap => doKeyWrap rq s
  | .keyUnwrap => doKeyUnwrap rq s
  | .keyDerive => doKeyDerive rq s
  | .keyDestroy => doKeyDestroy rq s
  | .keyAttr => doKeyAttr rq s
  | .sealOnce => doSealOnce rq s
  | .sealInit => doSealInit rq s
  | .sealUpdate => doSealUpdate rq s
  | .sealFinal => doSealFinal rq s
  | .sealAbort => doSealAbort rq s
  | .hashDigest => doHashDigest (decide (0 < rq.x.misses)) rq s
  | .bnMac | .bnMul | .bnModmul | .bnModinv | .bnModexp => doBn rq s
  | .pkSign => doPkSign rq s
  | .pkVerify => doPkVerify rq s
  | .pkAgree => doPkAgree rq s
  | .pkEncrypt => doPkEncrypt rq s
  | .pkDecrypt => doPkDecrypt rq s
  | .pkLoadCurve => doPkLoadCurve rq s
  | .rngDraw => doRngDraw rq s
  | .laneRetire => doLaneRetire rq s
  | .laneRestore => doLaneRestore rq s
  | .laneStatus => doLaneStatus rq s
  | .loopRead => doLoopRead rq s
  | .loopReport => doLoopReport rq s
  | .loopHart => doLoopHart rq s
  | .loopAssign => doLoopAssign rq s
  | .loopPower => doLoopPower rq s
  | .logRead => doLogRead rq s
  | .logHead => doLogHead rq s
  | .logClear => doLogClear rq s
  | .attestDevice => doAttestDevice rq s
  | .attestKey => doAttestKey rq s
  | .ceremonyStart => doCeremonyStart rq s
  | .ceremonyStep => doCeremonyStep true none rq s
  | .ceremonyCancel => doCeremonyCancel rq s
  | .ceremonyStatus => doCeremonyStatus rq s
  | .peerPair => doPeerPair rq s
  | .peerUnpair => doPeerUnpair rq s
  | .peerStatus => doPeerStatus rq s
  | .fwLoad => doFwLoad rq s
  | .fwActivate => doFwActivate rq s
  | .fwStatus => doFwStatus rq s
  | .tamperStatus => doTamperStatus rq s
  | .tamperConfig => doTamperConfig rq s
  | .powerDomain => doPowerDomain rq s
  | .vpOpen => doVpOpen rq s
  | .vpPoll => doVpPoll rq s
  | .vpResync => doVpResync rq s

/-- Whether a request still waits for a change of its slice's rules: a new command of the slice (Table 05-6). Those that were in
flight before the change go on. -/
def State.ruled (s : State) (l : Live) : Bool :=
  match l.rq.route.tenant with
  | none => false
  | some n => l.job == .held (.rules n) && s.ruleChange n

/-- A held request put back at its place in the order of arrival. -/
def State.putBack (s : State) (at' : Nat) (l : Live) : State :=
  { s with live := s.live.take at' ++ [l] ++ s.live.drop at' }

/-- One held request looked at again: it ends, goes on, or keeps its place. -/
def State.retry (s : State) (l : Live) : State :=
  match l.job with
  | .held _ =>
    if l ∉ s.live || s.ruled l then s
    else
      match handle l.rq { s with live := s.live.erase l } with
      | .done st d b t => (t.closePart l.rq st).complete l.rq (t.evr.next != s.evr.next) st d b
      | .park j t =>
        t.putBack (s.live.findIdx (· == l))
          ⟨l.rq.after (t.evr.next != s.evr.next) j, j⟩
  | _ => s

/-- Every held request looked at again, in the order of arrival; bulk work that they queue starts on idle lanes (R396). -/
def State.pump (s : State) : State := (s.live.foldl State.retry s).schedule

/-- What the block does with no command waiting: requests whose wait is over go on, the time bus counts (log entry 3),
and RDY of the vital ports rises (log entry 152). -/
def State.idle (s : State) : State := s.pump.nextPhi.rdyRises

/-! ### Binding entries (R213, R217-R220, R239) -/

/-- Whether a request waits for the binding entry of a channel. -/
def Live.wantsEntry (ch : Nat) (l : Live) : Bool := l.job == .held (.binding ch)

/-- Requests in flight that `p` picks out end with a refusal. -/
def State.endAll (s : State) (p : Live → Bool) (st : Status) (detail : Nat) : State :=
  (s.live.filter p).foldl (fun s l => ({ s with live := s.live.erase l }.closePart l.rq st).complete l.rq false st detail []) s

/-- A channel whose entry in host memory does not match (R218). -/
def State.suspend (s : State) (ch origin : Nat) (cached fetched : List Byte) : State :=
  let s := { s with cached := s.cached.filter (fun e => e.1 != ch) }
  let s := s.setChan ch { s.chan ch with suspended := true }
  let s := s.event 0x0402 origin ([byte ch] ++ be 3 (entryGen cached) ++ be 3 (entryGen fetched))
  s.windfallAll (fun r => r.ch == ch && r.st == .green) .tableStale 0

/-- A failed read of an entry that a command waits for (R239). -/
def State.entryFails (s : State) (ch origin completion : Nat) : State :=
  ((s.dmaEvent origin 0xFF 6 completion).noteCause (Live.wantsEntry ch) s.evr.next).endAll (Live.wantsEntry ch) .policy 0x0059

/-- An entry fetched on a miss (R213, R220). -/
def State.entryComes (s : State) (ch origin : Nat) (e : List Byte) : State :=
  let c := s.chan ch
  if !s.usable e then s.endAll (Live.wantsEntry ch) .policy 0x0059
  else if c.evicted && !c.entry.isEmpty && entryGen e == c.gen && entryCheck e != c.check then
    (s.suspend ch origin c.entry e).noteCause (Live.wantsEntry ch) s.evr.next
  else s.cacheEntry ch e

/-- The read of the binding-table entry of a channel, under MGR_PASID (R208, R637). -/
def State.readEntry (s : State) (ch : Nat) : State := s.dmaRead s.hp.pasid (s.table.getD 0 + 64 * ch) 64

/-- The fetch of the entry of channel `ch` ends: bytes or a completion code. -/
def State.entryFetch (s : State) (ch : Nat) (got : Except Nat (List Byte)) : State :=
  match s.live.find? (Live.wantsEntry ch) with
  | none => s
  | some l =>
    let o := l.rq.route.origin
    if s.hp.d3hot then s
    else
      match s.dmaStop 64, got with
      | some c, _ => (s.entryFails ch o c).pump
      | none, .error c => ((s.readEntry ch).entryFails ch o c).pump
      | none, .ok bs => ((s.readEntry ch).entryComes ch o (s.readBytes bs 64)).pump

/-- BINDING_ENTRY_FETCH (R213). -/
def execBindingEntryFetch (ch : Nat) (bytes : List Byte) (s : State) : Host.Outcome State Fault Refusal :=
  .next (s.entryFetch ch (.ok bytes))

/-- One cached entry re-read and compared (R217, R218, R239). -/
def State.audit (s : State) (ch : Nat) (e : List Byte) (d : Dma) : State :=
  let free := s.readBytes [] 64
  match s.dmaStop 64, d with
  | some c, _ => (s.dmaEvent noOrigin 0xFF 6 c).suspend ch noOrigin e free
  | none, .fail x => ((s.readEntry ch).dmaEvent noOrigin 0xFF 6 (dmaCode x)).suspend ch noOrigin e free
  | none, .data bs =>
    let f := s.readBytes bs 64
    if f = e then s.readEntry ch else (s.readEntry ch).suspend ch noOrigin e f

/-- Whether an audit sweep is due: at φ = 0x0000 of a C that is a multiple of 1,024, once (R217). No DMA request starts in D3hot
(R127). -/
def State.sweepDue (s : State) : Bool :=
  s.pow.main && s.ph.issuing && s.ph.c % 1024 == 0 && s.ph.phi == 0 && s.ph.audited != some s.ph.c && !s.hp.d3hot

/-- AUDIT_SWEEP (R217): `reads` are the fetches of the cached entries, in the order of the cache. The sweep skips the channels of
a waiting CHANNEL.INVALIDATE (Table 06-7). -/
def execAuditSweep (reads : List Dma) (s : State) : Host.Outcome State Fault Refusal :=
  .next (if !s.sweepDue then s
  else
    let es := s.cached.filter (fun e => !s.live.any (Live.invalidates e.1))
    (es.zipIdx.foldl (fun s e => s.audit e.1.1 e.1.2 (reads.getD e.2 (.data [])))
      (s.mapPh (fun p => { p with audited := some p.c }))).pump)

/-- CHANNEL_INVALIDATE_COMPLETE (R216). -/
def execChannelInvalidateComplete (s : State) : Host.Outcome State Fault Refusal := .next s.endInvalidate.pump

/-! ### Decisions on release records -/

/-- FIRST_DECISION (R293, R294, R318). -/
def execFirstDecision (ch seq : Nat) (e : LaneEnd Bool) (s : State) : Host.Outcome State Fault Refusal :=
  .next (s.firstDecision ch seq e.out e.bad).pump

/-- IN_SEQUENCE_COMMIT (R308). -/
def execInSequenceCommit (ch seq : Nat) (s : State) : Host.Outcome State Fault Refusal := .next (s.commit ch seq).pump

/-- SECOND_DECISION (R305, R307, R318). -/
def execSecondDecision (ch seq : Nat) (e : LaneEnd Second) (s : State) : Host.Outcome State Fault Refusal :=
  .next (s.secondDecision ch seq e.out e.bad).pump

/-! ### Keys, lanes, multiplier -/

/-- Whether a request waits for the key in a slot to be loaded. -/
def Live.wantsKey (k : Nat) (l : Live) : Bool := l.job == .held (.key k)

/-- A key that is loaded from flash into the key cache (R339, R340). -/
def State.keyComes (s : State) (k : Nat) : State := ((s.loadCache k).getD s).pump

/-- KEY_CACHE_LOAD (R339, R357, R384): `okA` and `okB` tell whether the two flash copies of the record pass their check, unless
one of them failed before. The signing requests of a lost HSS key are looked at again, and refused as R384 says. -/
def execKeyCacheLoad (k : Nat) (okA okB : Bool) (s : State) : Host.Outcome State Fault Refusal :=
  .next (if !s.live.any (Live.wantsKey k) then s
  else
    match (s.slot k).key with
    | none => s.pump
    | some key =>
      if (okA && key.flash.okA) || (okB && key.flash.okB) then s.keyComes k
      else if key.attr.type = 0x30 then (s.loseKey k).pump
      else ((s.loseKey k).endAll (Live.wantsKey k) .fault 0x009A).pump)

/-- SEGMENT_COMPLETE (R395, R396, R415, R416). -/
def execSegmentComplete (lane : Nat) (mismatch : Bool) (s : State) : Host.Outcome State Fault Refusal :=
  .next (s.segment lane mismatch).pump

/-- MODULAR_MULTIPLICATION_BOUNDARY (R443, R446-R448). -/
def execModularMultiplicationBoundary (last : Bool) (fault : Option PkFault) (s : State) : Host.Outcome State Fault Refusal :=
  .next (s.boundary last fault).pump

/-! ### Card steps and ceremonies -/

/-- CARD_APDU_RESPONSE (R463-R465, R472): a T=1 block that is invalid is asked for again; a T=0 character that stays wrong
fails the step. -/
def execCardApduResponse (card : Serial) (data : List Byte) (sw : Nat) (split : Bool) (fuseFails : List Nat) (s : State) :
    Host.Outcome State Fault Refusal :=
  let q := s.serial card
  .next (if q.blockBad then (s.badBlock card).pump
  else if q.charBad then ((s.emptyQueue card).cardGone card).pump
  else (((s.emptyQueue card).goodBlock).cardResponse card data sw split fuseFails).pump)

/-- ATR_TIMEOUT (R608). -/
def execAtrTimeout (card : Serial) (atr : Option (List Byte)) (s : State) : Host.Outcome State Fault Refusal :=
  .next (s.atrLate card atr).pump

/-- CARD_REMOVED (R606). -/
def execCardRemoved (card : Serial) (s : State) : Host.Outcome State Fault Refusal := .next (s.cardGone card).pump

/-- CARD_OVERCURRENT (R480). -/
def execCardOvercurrent (card : Serial) (s : State) : Host.Outcome State Fault Refusal := .next (s.cardTrip card).pump

/-- CEREMONY.CANCEL (R456). -/
def execCeremonyCancel (v : Via) (x : Ext) (s : State) : Host.Outcome State Fault Refusal :=
  .next (s.request v x (fun o _ => o == .ceremonyCancel) doCeremonyCancel).pump

/-- CEREMONY_WINDOW_EXPIRY (R457, R462). -/
def execCeremonyWindowExpiry (s : State) : Host.Outcome State Fault Refusal :=
  .next (if s.windowOver then ((s.failStep .notFresh 0x00E6).endCeremony 3 noOrigin).pump else s)

/-- CEREMONY_OPEN_TIMEOUT (R458, R459). -/
def execCeremonyOpenTimeout (s : State) : Host.Outcome State Fault Refusal :=
  .next (if s.openOver then ((s.failStep .notFresh 0x00E6).endCeremony 3 noOrigin).pump else s)

/-- Entries that a receive queue holds (R470). -/
def queueSize (q : Serial) : Nat := if q == .console then 4608 else 512

/-- The bit of a port in POLICY (Table 13-7). -/
def policyBit : Serial → Nat
  | .cardA => 0 | .cardB => 1 | .console => 2

/-- The level of a bit: the majority of its three samples (R469). -/
def majority (b : Samples) : Bool := (b.early && b.mid) || (b.early && b.late) || (b.mid && b.late)

/-- Whether the three samples of a bit disagree (R469). -/
def noisy (b : Samples) : Bool := !(b.early == b.mid && b.mid == b.late)

/-- The value of a list of bits, the first one the least significant. -/
def ofBits : List Bool → Nat
  | [] => 0
  | b :: r => b01 b + 2 * ofBits r

/-- The line levels of a character's bits: start, eight data bits, on a card port parity, stop or guard (R469, R474). -/
def levelOf (bits : List Samples) (i : Nat) : Bool := majority (bits.getD i ⟨true, true, true⟩)

/-- The data bits of a character in the order in which they arrive, as the convention reads the levels (Table 13-4). -/
def dataBits (inverse : Bool) (bits : List Samples) : List Bool := (List.range 8).map (fun i => levelOf bits (i + 1) != inverse)

/-- DATA of a character: the inverse convention sends the most significant bit first. -/
def charData (inverse : Bool) (bits : List Samples) : Nat :=
  ofBits (if inverse then (dataBits inverse bits).reverse else dataBits inverse bits)

/-- Whether the parity of a character is wrong: parity is even over data and parity bit (Table 13-4). -/
def parityWrong (inverse : Bool) (bits : List Samples) : Bool :=
  (dataBits inverse bits).foldl (fun a b => a != b) (levelOf bits 9 != inverse)

/-- A receive-queue entry (Table 13-6): PARITY on card ports, NOISE, FRAMING, and BREAK on CONSOLE. -/
def queueEntry (q : Serial) (inverse : Bool) (bits : List Samples) : BitVec 16 :=
  let card := q != .console
  let framing := !levelOf bits (if card then 10 else 9)
  let brk := !card && framing && (List.range 8).all (fun i => !levelOf bits (i + 1))
  BitVec.ofNat 16 (charData (card && inverse) bits + 256 * b01 (card && parityWrong inverse bits) + 512 * b01 (bits.any noisy)
    + 1024 * b01 framing + 4096 * b01 brk)

/-- A queue entry with OVERRUN set. -/
def overrunEntry (e : BitVec 16) : BitVec 16 := e ||| 0x0800#16

/-- A character received (R470-R472). -/
def SerialPort.receive (p : SerialPort) (size : Nat) (overwrite : Bool) (e : BitVec 16) : SerialPort :=
  let p := if e.getLsbD 9 then { p with noise := sat 16 (p.noise + 1) } else p
  if p.queue.length < size then { p with queue := p.queue ++ [e] }
  else
    let last := if overwrite then e else p.queue.getD (size - 1) 0
    { p with queue := p.queue.take (size - 1) ++ [overrunEntry last], overruns := sat 16 (p.overruns + 1) }

/-- Whether a character is asked for again by the error signal of T=0: its parity is wrong and it has not been repeated four
times (Table 13-4). -/
def SerialPort.repeats (p : SerialPort) (e : BitVec 16) : Bool := p.proto == 0 && e.getLsbD 8 && decide (p.reps < 4)

/-- RECEIVED_CHARACTER (R469-R472): a start bit whose majority is not the start level is a glitch. -/
def execReceivedCharacter (q : Serial) (start : Samples) (rest : List Samples) (s : State) :
    Host.Outcome State Fault Refusal :=
  let p := s.serial q
  let bits := start :: rest
  let e := queueEntry q p.inverse bits
  .next (if !s.pow.main || (q != .console && !p.powered) || levelOf bits 0 then s
  else if q != .console && p.repeats e then (s.setSerial q { p with reps := p.reps + 1 }).emit (.cardError q)
  else s.setSerial q ({ p with reps := 0 }.receive (queueSize q) (bit s.cus.policy (policyBit q)) e))

/-! ### Host transfers that end (R156, R167-R170) -/

/-- A pending write that leaves the write buffer; a failure is recorded (log entry 32). -/
def State.endWrite (s : State) (n : Nat) (completion : Option Nat) : State :=
  let c := s.ctx n
  match c.pw with
  | [] => s
  | _ :: r =>
    let s := s.setCtx n { c with pw := r }
    (match completion with
    | none => s
    | some k => s.dmaEvent noOrigin n 4 k).drain n

/-- PENDING_WRITE_COMPLETE (R156): the oldest pending write of slice `n`. -/
def execPendingWriteComplete (n : Nat) (e : Option DmaErr) (s : State) : Host.Outcome State Fault Refusal :=
  .next (if n < 64 && s.pow.main then (s.endWrite n (e.map dmaCode)).pump else s)

/-- Every output write of a context that is pending or waits fails with the link (R170). -/
def State.failWritesOf (s : State) (i : Nat) : State :=
  let c := s.ctx i
  times (fun s => s.dmaEvent noOrigin (dmaSlice i) 4 6) (c.pw.length + c.stalled.length)
    (s.setCtx i { c with pw := [], stalled := [] })

/-- Every output write of every context fails with the link (R170). -/
def State.failWrites (s : State) : State := (List.range 65).foldl State.failWritesOf s

/-- Entry fetches in progress fail with the link (R170, R239). -/
def State.failEntries (s : State) : State :=
  (List.range 256).foldl (fun s ch =>
    match s.live.find? (Live.wantsEntry ch) with
    | none => s
    | some l => s.entryFails ch l.rq.route.origin 6) s

/-- LINK_LOSS (R170). -/
def execLinkLoss (s : State) : Host.Outcome State Fault Refusal :=
  .next (if s.pow.main && s.hp.linkUp then
    ((s.mapHp (fun h => { h with linkUp := false })).event 0x0202 noOrigin [0#8, 0#8, 0#8]).failWrites.failEntries.pump
  else s)

/-- POWER_STATE_CHANGE (R127). Back in D0 what waited for DMA goes on. -/
def execPowerStateChange (d3hot : Bool) (s : State) : Host.Outcome State Fault Refusal :=
  .next (if s.pow.main && s.hp.linkUp then
    let s := s.mapHp (fun h => { h with d3hot := d3hot })
    if d3hot then s else s.drainAll.sendPending.pump
  else s)

/-- Commands that read host memory through a buffer descriptor (R150, R151). -/
def Op.readsHost (o : Op) : Bool :=
  o ∈ [.keyImport, .keyUnwrap, .pkSign, .pkVerify, .peerPair, .sliceImmigrate, .sliceRefuse, .fwLoad, .sealOnce, .sealInit,
    .sealUpdate, .sealFinal, .hashDigest]

/-- DMA_READ_FAILURE (R167, R169, R239). An input read fails in the request that `v` brings. -/
def execDmaReadFailure (k : ReadKind) (e : DmaErr) (s : State) : Host.Outcome State Fault Refusal :=
  .next (match k with
    | .ringFetch o => if s.fetches o then s.haltRing o ((s.dmaStop (ownerIdx o)).getD (dmaCode e)) else s
    | .packet o entry => s.ringFetch o entry (.error (dmaCode e))
    | .input v => s.request v ⟨List.replicate 4 (.fail e), false, false, 0, [], false, [], none⟩ (fun o _ => o.readsHost) handle
    | .binding ch => s.entryFetch ch (.error (dmaCode e))
    | .dirtyMap n =>
      if n < 64 && s.pow.main && !s.hp.d3hot then
        match (s.dpm n).words with
        | [] => s
        | w :: _ => s.flushWord n w (.fail e)
      else s)

end Sys2Proof.Machine
end

