-- ==== Sys2Proof/Machine/Dispatch.lean ====
section
/-! DEFINITION. One arm per command. -/

namespace Sys2Proof.Machine

def exec (i : Instr) (s : State) : Host.Outcome State Fault Refusal :=
  match i with
  | .sysInfo v x => Sys2Proof.Machine.execSysInfo v x s
  | .sysSelftest v x fails => Sys2Proof.Machine.execSysSelftest v x fails s
  | .sysReset v x => Sys2Proof.Machine.execSysReset v x s
  | .stampRead v x => Sys2Proof.Machine.execStampRead v x s
  | .stampReport v x => Sys2Proof.Machine.execStampReport v x s
  | .sliceCreate v x => Sys2Proof.Machine.execSliceCreate v x s
  | .sliceBind v x => Sys2Proof.Machine.execSliceBind v x s
  | .sliceQuota v x => Sys2Proof.Machine.execSliceQuota v x s
  | .sliceQuiesce v x => Sys2Proof.Machine.execSliceQuiesce v x s
  | .quiesceComplete n => Sys2Proof.Machine.execQuiesceComplete n s
  | .sliceResume v x => Sys2Proof.Machine.execSliceResume v x s
  | .sliceReset v x => Sys2Proof.Machine.execSliceReset v x s
  | .sliceResetComplete n => Sys2Proof.Machine.execSliceResetComplete n s
  | .sliceRemove v x => Sys2Proof.Machine.execSliceRemove v x s
  | .sliceStatus v x => Sys2Proof.Machine.execSliceStatus v x s
  | .sliceEmigrate v x writeFails => Sys2Proof.Machine.execSliceEmigrate v x writeFails s
  | .sliceImmigrate v x fault => Sys2Proof.Machine.execSliceImmigrate v x fault s
  | .sliceReceipt v x => Sys2Proof.Machine.execSliceReceipt v x s
  | .sliceRefuse v x => Sys2Proof.Machine.execSliceRefuse v x s
  | .channelInvalidate v x => Sys2Proof.Machine.execChannelInvalidate v x s
  | .channelInvalidateComplete => Sys2Proof.Machine.execChannelInvalidateComplete s
  | .channelStatus v x => Sys2Proof.Machine.execChannelStatus v x s
  | .fieldCommand v x => Sys2Proof.Machine.execFieldCommand v x s
  | .fieldCommandLoad v x => Sys2Proof.Machine.execFieldCommandLoad v x s
  | .bindingEntryFetch ch bytes => Sys2Proof.Machine.execBindingEntryFetch ch bytes s
  | .firstDecision ch seq e => Sys2Proof.Machine.execFirstDecision ch seq e s
  | .inSequenceCommit ch seq => Sys2Proof.Machine.execInSequenceCommit ch seq s
  | .secondDecision ch seq e => Sys2Proof.Machine.execSecondDecision ch seq e s
  | .keyGen v x => Sys2Proof.Machine.execKeyGen v x s
  | .keyImport v x => Sys2Proof.Machine.execKeyImport v x s
  | .keyWrap v x => Sys2Proof.Machine.execKeyWrap v x s
  | .keyUnwrap v x => Sys2Proof.Machine.execKeyUnwrap v x s
  | .keyDerive v x => Sys2Proof.Machine.execKeyDerive v x s
  | .keyDestroy v x => Sys2Proof.Machine.execKeyDestroy v x s
  | .keyDestroyComplete slot => Sys2Proof.Machine.execKeyDestroyComplete slot s
  | .keyAttr v x => Sys2Proof.Machine.execKeyAttr v x s
  | .keyCacheLoad slot okA okB => Sys2Proof.Machine.execKeyCacheLoad slot okA okB s
  | .sealOnce v x => Sys2Proof.Machine.execSealOnce v x s
  | .sealInit v x => Sys2Proof.Machine.execSealInit v x s
  | .sealUpdate v x => Sys2Proof.Machine.execSealUpdate v x s
  | .sealFinal v x => Sys2Proof.Machine.execSealFinal v x s
  | .sealAbort v x => Sys2Proof.Machine.execSealAbort v x s
  | .hashDigest v x mismatch => Sys2Proof.Machine.execHashDigest v x mismatch s
  | .segmentComplete lane mismatch => Sys2Proof.Machine.execSegmentComplete lane mismatch s
  | .bnMac v x => Sys2Proof.Machine.execBnMac v x s
  | .bnMul v x => Sys2Proof.Machine.execBnMul v x s
  | .bnModmul v x => Sys2Proof.Machine.execBnModmul v x s
  | .bnModinv v x => Sys2Proof.Machine.execBnModinv v x s
  | .bnModexp v x => Sys2Proof.Machine.execBnModexp v x s
  | .pkSign v x => Sys2Proof.Machine.execPkSign v x s
  | .pkVerify v x => Sys2Proof.Machine.execPkVerify v x s
  | .pkAgree v x => Sys2Proof.Machine.execPkAgree v x s
  | .pkEncrypt v x => Sys2Proof.Machine.execPkEncrypt v x s
  | .pkDecrypt v x => Sys2Proof.Machine.execPkDecrypt v x s
  | .pkLoadCurve v x => Sys2Proof.Machine.execPkLoadCurve v x s
  | .bottomTreeBuilt slot => Sys2Proof.Machine.execBottomTreeBuilt slot s
  | .rngDraw v x => Sys2Proof.Machine.execRngDraw v x s
  | .drbgReseed => Sys2Proof.Machine.execDrbgReseed s
  | .entropyTestFailure test repeatPasses => Sys2Proof.Machine.execEntropyTestFailure test repeatPasses s
  | .laneRetire v x => Sys2Proof.Machine.execLaneRetire v x s
  | .laneDrained lane => Sys2Proof.Machine.execLaneDrained lane s
  | .laneRestore v x => Sys2Proof.Machine.execLaneRestore v x s
  | .laneTestComplete lane pass => Sys2Proof.Machine.execLaneTestComplete lane pass s
  | .probationComparison lane clean => Sys2Proof.Machine.execProbationComparison lane clean s
  | .probationIdleFeed lane => Sys2Proof.Machine.execProbationIdleFeed lane s
  | .laneStatus v x => Sys2Proof.Machine.execLaneStatus v x s
  | .domainIdleGate domain => Sys2Proof.Machine.execDomainIdleGate domain s
  | .loopRead v x => Sys2Proof.Machine.execLoopRead v x s
  | .loopReport v x => Sys2Proof.Machine.execLoopReport v x s
  | .loopHart v x => Sys2Proof.Machine.execLoopHart v x s
  | .loopAssign v x => Sys2Proof.Machine.execLoopAssign v x s
  | .loopPower v x => Sys2Proof.Machine.execLoopPower v x s
  | .loopWindowEnd loop first rest => Sys2Proof.Machine.execLoopWindowEnd loop first rest s
  | .hartTransaction loop addr command e => Sys2Proof.Machine.execHartTransaction loop addr command e s
  | .hartBurstFrame loop addr => Sys2Proof.Machine.execHartBurstFrame loop addr s
  | .loopSupplyLimit loop => Sys2Proof.Machine.execLoopSupplyLimit loop s
  | .loopFrontEndFault => Sys2Proof.Machine.execLoopFrontEndFault s
  | .logRead v x => Sys2Proof.Machine.execLogRead v x s
  | .logHead v x => Sys2Proof.Machine.execLogHead v x s
  | .logClear v x => Sys2Proof.Machine.execLogClear v x s
  | .stagingFlush written lost => Sys2Proof.Machine.execStagingFlush written lost s
  | .attestDevice v x => Sys2Proof.Machine.execAttestDevice v x s
  | .attestKey v x => Sys2Proof.Machine.execAttestKey v x s
  | .ceremonyStart v x => Sys2Proof.Machine.execCeremonyStart v x s
  | .ceremonyStep v x present atr => Sys2Proof.Machine.execCeremonyStep v x present atr s
  | .cardApduResponse card data sw split fuseFails => Sys2Proof.Machine.execCardApduResponse card data sw split fuseFails s
  | .atrTimeout card atr => Sys2Proof.Machine.execAtrTimeout card atr s
  | .cardRemoved card => Sys2Proof.Machine.execCardRemoved card s
  | .cardOvercurrent card => Sys2Proof.Machine.execCardOvercurrent card s
  | .ceremonyCancel v x => Sys2Proof.Machine.execCeremonyCancel v x s
  | .ceremonyStatus v x => Sys2Proof.Machine.execCeremonyStatus v x s
  | .ceremonyWindowExpiry => Sys2Proof.Machine.execCeremonyWindowExpiry s
  | .ceremonyOpenTimeout => Sys2Proof.Machine.execCeremonyOpenTimeout s
  | .peerPairOffer v x => Sys2Proof.Machine.execPeerPairOffer v x s
  | .peerPairAcceptance v x => Sys2Proof.Machine.execPeerPairAcceptance v x s
  | .peerPairStep3 v x => Sys2Proof.Machine.execPeerPairStep3 v x s
  | .peerUnpair v x => Sys2Proof.Machine.execPeerUnpair v x s
  | .peerStatus v x => Sys2Proof.Machine.execPeerStatus v x s
  | .fwLoad v x => Sys2Proof.Machine.execFwLoad v x s
  | .fwActivate v x => Sys2Proof.Machine.execFwActivate v x s
  | .fwStatus v x => Sys2Proof.Machine.execFwStatus v x s
  | .tamperStatus v x => Sys2Proof.Machine.execTamperStatus v x s
  | .tamperConfig v x => Sys2Proof.Machine.execTamperConfig v x s
  | .sourceFires k f => Sys2Proof.Machine.execSourceFires k f s
  | .commandProcessorRestart => Sys2Proof.Machine.execCommandProcessorRestart s
  | .powerDomain v x => Sys2Proof.Machine.execPowerDomain v x s
  | .domainSwitchOffComplete domain => Sys2Proof.Machine.execDomainSwitchOffComplete domain s
  | .domainSwitchOnComplete domain powered => Sys2Proof.Machine.execDomainSwitchOnComplete domain powered s
  | .vpOpen v x => Sys2Proof.Machine.execVpOpen v x s
  | .vpPoll v x => Sys2Proof.Machine.execVpPoll v x s
  | .heldPollResponse h => Sys2Proof.Machine.execHeldPollResponse h s
  | .vpResync v x => Sys2Proof.Machine.execVpResync v x s
  | .idleFrame p f => Sys2Proof.Machine.execIdleFrame p f s
  | .fetch p f => Sys2Proof.Machine.execFetch p f s
  | .pendingReplyReady p => Sys2Proof.Machine.execPendingReplyReady p s
  | .vpFrameUnstarted p => Sys2Proof.Machine.execVpFrameUnstarted p s
  | .vioLow p => Sys2Proof.Machine.execVioLow p s
  | .mainsCycleEnd m => Sys2Proof.Machine.execMainsCycleEnd m s
  | .crossingMissing => Sys2Proof.Machine.execCrossingMissing s
  | .acquireTimeout => Sys2Proof.Machine.execAcquireTimeout s
  | .stampIncrement => Sys2Proof.Machine.execStampIncrement s
  | .periodicPersistence ticks => Sys2Proof.Machine.execPeriodicPersistence ticks s
  | .slotOpen ecc => Sys2Proof.Machine.execSlotOpen ecc s
  | .auditSweep reads => Sys2Proof.Machine.execAuditSweep reads s
  | .keySweeperVisit okA okB corrected => Sys2Proof.Machine.execKeySweeperVisit okA okB corrected s
  | .sqTail o value => Sys2Proof.Machine.execSqTail o value s
  | .ringEntryFetch o entry packet => Sys2Proof.Machine.execRingEntryFetch o entry packet s
  | .cqHead o value => Sys2Proof.Machine.execCqHead o value s
  | .replyEntryWrite o e => Sys2Proof.Machine.execReplyEntryWrite o e s
  | .sqCfg o reply value => Sys2Proof.Machine.execSqCfg o reply value s
  | .mgrEvent value => Sys2Proof.Machine.execMgrEvent value s
  | .dpmEnable n value => Sys2Proof.Machine.execDpmEnable n value s
  | .dpmSwap n => Sys2Proof.Machine.execDpmSwap n s
  | .dpmSwapDone m => Sys2Proof.Machine.execDpmSwapDone m s
  | .msixUnmask vector => Sys2Proof.Machine.execMsixUnmask vector s
  | .registerWrite bar offset size value => Sys2Proof.Machine.execRegisterWrite bar offset size value s
  | .powerStateChange d3hot => Sys2Proof.Machine.execPowerStateChange d3hot s
  | .dmaReadFailure k e => Sys2Proof.Machine.execDmaReadFailure k e s
  | .pendingWriteComplete n e => Sys2Proof.Machine.execPendingWriteComplete n e s
  | .linkLoss => Sys2Proof.Machine.execLinkLoss s
  | .hostLinkUp rate width => Sys2Proof.Machine.execHostLinkUp rate width s
  | .functionLevelReset cause => Sys2Proof.Machine.execFunctionLevelReset cause s
  | .deviceReset cause fails => Sys2Proof.Machine.execDeviceReset cause fails s
  | .mainPowerUp p => Sys2Proof.Machine.execMainPowerUp p s
  | .moduleReady => Sys2Proof.Machine.execModuleReady s
  | .shutdownWarning ticks => Sys2Proof.Machine.execShutdownWarning ticks s
  | .mainPowerLost => Sys2Proof.Machine.execMainPowerLost s
  | .sourceClears k => Sys2Proof.Machine.execSourceClears k s
  | .vioRestored p => Sys2Proof.Machine.execVioRestored p s
  | .selNLowTimeout f => Sys2Proof.Machine.execSelNLowTimeout f s
  | .modularMultiplicationBoundary last fault => Sys2Proof.Machine.execModularMultiplicationBoundary last fault s
  | .receivedCharacter q start rest => Sys2Proof.Machine.execReceivedCharacter q start rest s

end Sys2Proof.Machine
end

