-- ==== Sys2Proof/WellFormed.lean ====
section
/-! DEFINITION. The well-formed commands: every operand within the numbers that the spec gives the block. `exec` is total, so an
ill-formed command has an outcome too; statements about ranges are made for well-formed commands. -/

namespace Sys2Proof

/-- The block serves 64 slices (R31), numbered from 0. -/
def sliceOk (n : Nat) : Bool := decide (n < 64)

/-- The rings of slices 0-63 and of the manager (Table 04-2). -/
def Owner.wf : Owner → Bool
  | .slice n => sliceOk n
  | .mgr => true

/-- A push-window write names a slice and one of its four windows (Table 04-4). -/
def Via.wf : Via → Bool
  | .ring o => o.wf
  | .push n w _ => sliceOk n && decide (w < 4)
  | .console => true
  | .vital _ _ => true

/-- Table 17-4 numbers the self-test units 0-14. -/
def TestFail.wf (t : TestFail) : Bool := decide (t.unit ≤ 14)

/-- The block has 256 channels, FC0-FC255 (R31). -/
def channelOk (ch : Nat) : Bool := decide (ch < 256)

/-- The key store holds 16,384 slots (R355). -/
def slotOk (k : Nat) : Bool := decide (k < 16384)

/-- The lanes are L0-L3 (Table 17-1). -/
def laneOk (l : Nat) : Bool := decide (l < 4)

/-- The block has eight loops (R31). -/
def loopOk (l : Nat) : Bool := decide (l < 8)

/-- The supervisor watches 16 sources (R536). -/
def sourceOk (i : Nat) : Bool := decide (i < 16)

/-- Power domains are numbered 0-7 (Table 17-1). -/
def domainOk (d : Nat) : Bool := decide (d < 8)

/-- A spoilt release record is one of a channel that exists (R319). -/
def recOk : Option (Nat × Nat) → Bool
  | none => true
  | some (ch, _) => channelOk ch

/-- A double-bit error outside the execution of a request lies in a record or in the firmware area (R193, R319). -/
def eccOk : Option Ecc → Bool
  | none => true
  | some (.record ch _) => channelOk ch
  | some (.firmware a) => decide (a < 0x4000)

/-- A DMA read belongs to rings, an arrival point, a channel or a slice that exists. -/
def ReadKind.wf : ReadKind → Bool
  | .ringFetch o => o.wf
  | .packet o e => o.wf && decide (e.length = 32)
  | .input v => v.wf
  | .binding ch => channelOk ch
  | .dirtyMap n => sliceOk n

/-- Whether every operand of a command is in range. -/
def Instr.wf : Instr → Bool
  | .sysInfo v _ | .sysReset v _ | .stampRead v _ | .stampReport v _ => v.wf
  | .sysSelftest v _ fails => v.wf && fails.all TestFail.wf
  | .sliceCreate v _ | .sliceBind v _ | .sliceQuota v _ | .sliceQuiesce v _ | .sliceResume v _ | .sliceReset v _
  | .sliceRemove v _ | .sliceStatus v _ | .sliceEmigrate v _ _ | .sliceImmigrate v _ _ | .sliceReceipt v _
  | .sliceRefuse v _ => v.wf
  | .quiesceComplete n | .sliceResetComplete n => sliceOk n
  | .channelInvalidate v _ | .channelStatus v _ | .fieldCommand v _ | .fieldCommandLoad v _ => v.wf
  | .channelInvalidateComplete => true
  | .bindingEntryFetch ch bytes => channelOk ch && decide (bytes.length = 64)
  | .firstDecision ch _ _ | .inSequenceCommit ch _ | .secondDecision ch _ _ => channelOk ch
  | .keyGen v _ | .keyImport v _ | .keyWrap v _ | .keyUnwrap v _ | .keyDerive v _ | .keyDestroy v _ | .keyAttr v _ => v.wf
  | .keyDestroyComplete k | .keyCacheLoad k _ _ | .bottomTreeBuilt k => slotOk k
  | .sealOnce v _ | .sealInit v _ | .sealUpdate v _ | .sealFinal v _ | .sealAbort v _ | .hashDigest v _ _ => v.wf
  | .segmentComplete l _ | .laneDrained l | .laneTestComplete l _ | .probationComparison l _ | .probationIdleFeed l => laneOk l
  | .bnMac v _ | .bnMul v _ | .bnModmul v _ | .bnModinv v _ | .bnModexp v _ => v.wf
  | .pkSign v _ | .pkVerify v _ | .pkAgree v _ | .pkEncrypt v _ | .pkDecrypt v _ | .pkLoadCurve v _ => v.wf
  | .rngDraw v _ | .laneRetire v _ | .laneRestore v _ | .laneStatus v _ => v.wf
  | .drbgReseed | .entropyTestFailure _ _ => true
  | .domainIdleGate d | .domainSwitchOffComplete d | .domainSwitchOnComplete d _ => domainOk d
  | .loopRead v _ | .loopReport v _ | .loopHart v _ | .loopAssign v _ | .loopPower v _ => v.wf
  | .loopWindowEnd l _ _ | .hartTransaction l _ _ _ | .hartBurstFrame l _ | .loopSupplyLimit l => loopOk l
  | .loopFrontEndFault => true
  | .logRead v _ | .logHead v _ | .logClear v _ | .attestDevice v _ | .attestKey v _ => v.wf
  | .stagingFlush _ _ => true
  | .ceremonyStart v _ | .ceremonyStep v _ _ _ | .ceremonyCancel v _ | .ceremonyStatus v _ => v.wf
  | .cardApduResponse c _ sw _ _ => decide (c ≠ .console) && decide (sw < 65536)
  | .atrTimeout c _ | .cardRemoved c | .cardOvercurrent c => decide (c ≠ .console)
  | .ceremonyWindowExpiry | .ceremonyOpenTimeout => true
  | .peerPairOffer v _ | .peerPairAcceptance v _ | .peerPairStep3 v _ | .peerUnpair v _ | .peerStatus v _ => v.wf
  | .fwLoad v _ | .fwActivate v _ | .fwStatus v _ | .tamperStatus v _ | .tamperConfig v _ | .powerDomain v _ => v.wf
  | .sourceFires i _ | .sourceClears i => sourceOk i
  | .commandProcessorRestart => true
  | .vpOpen v _ | .vpResync v _ => v.wf
  | .vpPoll v x => v.wf && recOk x.bad
  | .heldPollResponse h => recOk h.bad
  | .idleFrame _ _ | .fetch _ _ | .pendingReplyReady _ | .vpFrameUnstarted _ | .vioLow _
  | .vioRestored _ | .selNLowTimeout _ => true
  | .mainsCycleEnd _ | .crossingMissing | .acquireTimeout | .stampIncrement | .periodicPersistence _ => true
  | .slotOpen ecc => eccOk ecc.before && eccOk ecc.during
  | .auditSweep _ | .keySweeperVisit _ _ _ => true
  | .sqTail o _ | .ringEntryFetch o _ _ | .cqHead o _ | .replyEntryWrite o _ | .sqCfg o _ _ => o.wf
  | .mgrEvent _ | .powerStateChange _ | .linkLoss | .hostLinkUp _ _ => true
  | .dpmEnable n _ | .dpmSwap n | .dpmSwapDone ⟨n, _⟩ | .pendingWriteComplete n _ => sliceOk n
  | .msixUnmask v => decide (v < 72)
  | .registerWrite bar _ size _ => (bar == 0 || bar == 2) && decide (size ≤ 8)
  | .dmaReadFailure k _ => k.wf
  | .functionLevelReset _ | .moduleReady | .shutdownWarning _ | .mainPowerLost => true
  | .mainPowerUp p => p.badCopies.all (fun k => decide (k < 4)) && p.torn.all (fun e => slotOk e.1) &&
    p.badSeqs.all channelOk && p.fails.all TestFail.wf
  | .deviceReset _ fails => fails.all TestFail.wf
  | .modularMultiplicationBoundary _ _ => true
  | .receivedCharacter q _ rest => rest.length == (if q = .console then 9 else 10)

end Sys2Proof
end

