-- ==== Sys2Proof/Safety.lean ====
section
/-! DEFINITION. The terms that the statements about the block use: which requests pass the entry checks of Table 03-6, what a
request row starts from, and the canonical form of every table of State. -/

namespace Sys2Proof.Machine

/-! ### Requests that pass the entry checks -/

/-- A packet that is well formed and speaks for its context: steps 1 to 4 of Table 03-6. -/
structure GoodHeader (s : State) (rt : Route) (o : Op) (p : List Byte) : Prop where
  version : hdrVersion p = 1
  kind    : hdrKind p = 1
  opcode  : hdrOpcode p = o.code
  length  : p.length = 16 + hdrLength p
  size    : p.length ≤ 4096
  flags   : hdrFlags p / 2 = 0
  source  : hdrSource p = ctxSource (rt.ctx?.getD 66)
  epoch   : hdrEpoch p = (s.ctx (rt.ctx?.getD 66)).epoch

/-- A request ID that its context has not used in the epoch so far: step 6 (Table 03-3). -/
structure FreshId (s : State) (rt : Route) (p : List Byte) : Prop where
  cache : ∀ e ∈ (s.ctx (rt.ctx?.getD 66)).cache, e.id ≠ hdrId p
  live  : ∀ l ∈ s.live, l.rq.route.ctx? = some (rt.ctx?.getD 66) → hdrId l.rq.hdr ≠ hdrId p
  floor : ∀ f, (s.ctx (rt.ctx?.getD 66)).floor = some f → f < hdrId p

/-- What steps 7 to 11 ask of the module and the sender before the command's own checks. -/
structure Open (s : State) (rt : Route) (o : Op) (p : List Byte) : Prop where
  awake  : s.pow.warned = false
  level  : firstFail (accessChecks rt o) = none
  life   : o.runsIn s.tam.life = true
  locked : s.tam.life = .locked → o = .ceremonyStart → 3 ∈ ceremonyStates (at8 p 16)
  runs   : s.pow.halted = true → o.runsHalted = true
  slice  : firstFail (s.sliceChecks rt o) = none
  rules  : ∀ n, rt.tenant = some n → s.ruleChange n = false
  room   : s.evr.staged.length + s.roomHeld + o.room ≤ 256

/-- The credit of a request at step 5: a ring request holds the one it took when it was fetched, a push-window request takes
one, and CONSOLE has one request in flight (R113, R146). -/
def State.hasCredit (s : State) : Route → Prop
  | .ring _ _ _ _ _ => True
  | .push n _ => 0 < (s.ctx n).credits
  | .console => s.live.any (fun l => l.rq.route.ctx? == some 65) = false
  | .vital _ _ => False

/-- The credit of a push-window request taken (R146). -/
def State.paid (s : State) : Route → State
  | .push n _ => s.setCtx n { s.ctx n with credits := (s.ctx n).credits - 1 }
  | .ring _ _ _ _ _ | .console | .vital _ _ => s

/-- The state in which an accepted request runs: it holds its credit and is one more that its context has accepted. -/
def State.charged (s : State) (rt : Route) : State := (s.paid rt).accepted (rt.ctx?.getD 66)

/-- A request that a row finds, whose packet `p` came in on route `rt` with its last byte at stamp `arr`, passes every entry
check of command `o`, and runs in state `t`. -/
structure Arrives (s : State) (v : Via) (o : Op) (rt : Route) (p : List Byte) (arr : Nat × Nat) (t : State) : Prop where
  found  : ∃ s', s.find v = .packet rt p arr s' ∧ t = s'.charged rt ∧ s'.hasCredit rt ∧ GoodHeader s' rt o p
  fresh  : FreshId t rt p
  opened : Open t rt o p

/-- The request that an arrival gives its command. -/
def State.request? (t : State) (rt : Route) (p : List Byte) (arr : Nat × Nat) (o : Op) (x : Ext) : Rq :=
  t.rq rt p (digestOf p) arr o x

/-- Command `c` ends in its own effect, its execution meeting no internal fault (R122): the reply of request `rq`, which ran in
state `t`, has status ST_OK and this payload, and `u` is the state the command leaves before its reply is sent. -/
def Completes (c : Instr) (s t : State) (rq : Rq) (payload : List Byte) (u : State) : Prop :=
  rq.x.intact = true → exec c s = .next (u.complete rq (u.evr.next != t.evr.next) .ok 0 payload)

/-- Command `c`, its execution meeting no internal fault, leaves its request `rq`, which ran in state `t`, in flight with work `j`
left, in state `u`. -/
def StaysInFlight (c : Instr) (s t : State) (rq : Rq) (j : Job) (u : State) : Prop :=
  rq.x.intact = true → exec c s = .next (u.hold t.evr.next rq j)

/-- Command `c`, its execution meeting no internal fault, is refused past the entry checks: no payload, and no effect but the
reply and, for a part of a stream, the end of its stream (R98, R403). -/
def Refuses (c : Instr) (s t : State) (rq : Rq) (st : Status) (detail : Nat) : Prop :=
  rq.x.intact = true → exec c s = .next ((t.closePart rq st).complete rq false st detail [])

/-- An input that a request names at an offset of its payload: nothing when the descriptor is absent, else what DMA reads. -/
def InputIs (t : State) (rq : Rq) (i at' : Nat) (bs : List Byte) : Prop :=
  (descAbsent rq.body at' = true ∧ bs = []) ∨ (descAbsent rq.body at' = false ∧ t.input rq i (descAt rq.body at') = .data bs)

/-- The state after a request has read such an input. -/
def State.tookIn (t : State) (rq : Rq) (at' : Nat) : State :=
  if descAbsent rq.body at' then t else t.didInput rq (descAt rq.body at')

/-! ### Frames of the vital ports -/

/-- The state in which a started frame is judged: its ECHO is checked and SDO carries the response to the frame before (R254,
R269). -/
def State.begun (s : State) (p : Port) (f : Frame) : State :=
  let t := s.startFrame p f.clkHigh
  t.setVp p ((t.vp p).checkEcho f (s.vp p).ownSent)

/-- How many ALIVE values a frame is ahead of the last one accepted. -/
def Vp.ahead (v : Vp) (f : Frame) : Nat := (fld f.bytes 2 2 + 65536 - v.last) % 65536

/-- A request frame of command `o` that a port accepts and runs in state `t`: RDY is high, the frame is good, its session
admits it (R264-R268), and steps 4 to 7 of Table 07-7 pass. -/
structure FrameRuns (s : State) (p : Port) (f : Frame) (o : Op) (t : State) : Prop where
  ready   : s.rdyHigh p = true
  vio     : (s.vp p).vio = true
  kind    : (s.vp p).kind f = .request o.code
  session : ((s.vp p).mode ≠ .guarded ∧ t = s.begun p f) ∨
    ((s.vp p).mode = .guarded ∧ o = .vpOpen ∧ t = (s.begun p f).setVp p { (s.begun p f).vp p with misses := 0 }) ∨
    ((s.vp p).mode = .guarded ∧ (s.vp p).session = .open' ∧ o ≠ .vpOpen ∧ o ≠ .vpResync ∧ 1 ≤ (s.vp p).ahead f ∧
      (s.vp p).ahead f ≤ 3 ∧
      t = (s.begun p f).setVp p (((s.begun p f).vp p).advance (fld f.bytes 2 2) ((s.vp p).ahead f))) ∨
    ((s.vp p).mode = .guarded ∧ (s.vp p).session = .open' ∧ o = .vpResync ∧
      t = (s.begun p f).setVp p { (s.begun p f).vp p with last := fld f.bytes 2 2, misses := 0 }) ∨
    ((s.vp p).mode = .guarded ∧ (s.vp p).session = .lost ∧ o = .vpResync ∧ t = s.begun p f)
  free    : t.portPending p = true → o = .vpPoll ∨ o = .vpOpen
  checks  : firstFail (t.vitalChecks (.vital p (fld f.bytes 2 2)) p o f) = none

/-- The request of a frame. -/
def State.frameRequest (t : State) (p : Port) (f : Frame) (o : Op) (x : Ext) : Rq :=
  t.vitalRq (.vital p (fld f.bytes 2 2)) o f x

/-- Command `c` answers its frame with a reply of status ST_OK: `u` is the state it leaves before the reply is stored. -/
def CompletesOnPort (c : Instr) (s : State) (p : Port) (f : Frame) (o : Op) (payload : List Byte) (u : State) : Prop :=
  let r : VReply := ⟨o.code, 0, 0, u.ph.stamp, payload, fld f.bytes 2 2⟩
  exec c s = .next ((u.setVp p { u.vp p with reply := some r }).answerFrame p true (r.part 0 (fld f.bytes 2 2)))

/-! ### Canonical form -/

/-- Every table of State is in its canonical form: indices strictly rise, and no entry equals what an unlisted index reads
as. Equal contents are then equal data. -/
structure State.Canonical (s : State) : Prop where
  ctxs    : s.ctxs.wf .init = true
  slices  : s.slices.wf .init = true
  chans   : s.chans.wf .init = true
  lanes   : s.lanes.wf .init = true
  loops   : s.loops.wf .init = true
  slots   : s.ks.slots.wf .init = true
  regs    : s.ks.regs.wf none = true
  curves  : s.ks.curves.wf none = true
  dpm     : s.hp.dpm.wf .init = true
  vectors : s.hp.vectors.wf (0, 0) = true
  cells   : s.wm.cells.wf 0#40 = true
  quiet   : s.tam.quiet.wf (none, 0) = true

end Sys2Proof.Machine
end

