-- ==== Sys2Proof/Certificates/Slice0/Obligations.lean ====
section
/-! DEFINITION. The statements about the block. Each docstring says what its statement claims, by the rules it cites. Where a
statement ends in `pump`, requests that wait are looked at again after the command's own effect (log entry 3); a request that
`Arrives` has passed the entry checks of Table 03-6 and runs in state `t`; `Completes` gives the reply with status ST_OK, its
payload and the exact state that the command leaves, so all that the state's expression does not change is unchanged. -/

open Sys2Proof Sys2Proof.Machine

/-- One step executes the command at the front of the queue on the state with the queue's rest. On an empty queue it does what
`State.idle` says, which is the model's choice (log entry 3). -/
def Obligations.StepRunsTheFrontCommand : Prop :=
  (∀ (c : Instr) (r : List Instr) (s : State), step { s with pending := c :: r } = exec c { s with pending := r }) ∧
  ∀ s : State, s.pending = [] → step s = .next s.idle

/-- State.reset: every slice and the manager hold 32 credits with an empty reply cache and no floor, the sources have the
default responses of Table 15-1, the module is BLANK with the phase unit in NONE and C never set, every slice is FREE, working
memory reads zero, no key is held, every lane is in service, and the event record is empty. That reset stands for the
delivered module in BLANK is the model's choice (log entry 1). -/
def Obligations.ResetHoldsTheDeliveredModule : Prop :=
  (∀ n, n < 65 → (State.reset.ctx n).credits = 32 ∧ (State.reset.ctx n).cache = [] ∧ (State.reset.ctx n).floor = none) ∧
  State.reset.tam.response = [3, 3, 2, 0, 0, 2, 2, 2, 3, 0, 0, 0, 3, 2, 2, 1] ∧
  State.reset.tam.life = .blank ∧ State.reset.ph.st = .none ∧ State.reset.ph.cSet = false ∧
  (∀ n, (State.reset.slc n).st = .free) ∧ (∀ a, State.reset.wmRead a = 0#40) ∧
  (∀ k, (State.reset.slot k).key = none) ∧ (∀ i, (State.reset.lane i).st = .inService) ∧
  State.reset.evr.next = 0 ∧ State.reset.entries = [] ∧ State.reset.pending = [] ∧ State.reset.live = []

/-- State.reset meets State.Canonical: contexts, slices, channels, lanes, loops, key slots, registrations, curves, dirty-page
controls, MSI-X vectors, working memory and the records of the sources are tables with strictly rising indices and no entry
that equals what an unlisted index reads as. -/
def Obligations.ResetIsCanonical : Prop :=
  State.reset.Canonical

/-- For every state that meets State.Canonical, whatever its queue holds, a step that answers a next state answers one that
meets State.Canonical. Equal contents of memory, key store, contexts, slices, channels, lanes and loops are then equal data in
every run. -/
def Obligations.EveryStepKeepsTheTablesCanonical : Prop :=
  ∀ s t : State, s.Canonical → step s = .next t → t.Canonical

/-- SYS.INFO, STAMP.READ, FW.STATUS, TAMPER.STATUS and LANE.STATUS, well formed and past the entry checks, complete with the
payload that the spec lays out, computed from the state, and do nothing else. -/
def Obligations.StatusCommandsReplyWhatTheModuleShows : Prop :=
  ∀ (s t : State) (v : Via) (x : Ext) (rt : Route) (arr : Nat × Nat) (p : List Byte),
    (Arrives s v .sysInfo rt p arr t → p.length = 16 →
      Completes (.sysInfo v x) s t (t.request? rt p arr .sysInfo x)
        (be 2 0xD256 ++ be 2 t.pow.shownVersion ++ be 2 t.pow.shownBuild ++ be 2 t.pow.floor ++ padTo 8 t.ks.deviceId
          ++ [byte t.pow.silicon, byte t.tam.life.code, byte t.ph.band, byte t.ph.st.code, byte t.pow.selftest,
            byte t.pow.approved] ++ be 2 t.domains) t) ∧
    (Arrives s v .stampRead rt p arr t → p.length = 16 →
      Completes (.stampRead v x) s t (t.request? rt p arr .stampRead x)
        ([byte t.ph.st.code, byte t.ph.band] ++ be 2 t.ph.freq ++ be 5 (if t.ph.resumed then t.ph.resume else 0) ++ zeros 3
          ++ t.ph.stamp) t) ∧
    (Arrives s v .fwStatus rt p arr t → p.length = 16 →
      Completes (.fwStatus v x) s t (t.request? rt p arr .fwStatus x)
        ([byte t.pow.active, byte (t.pow.pendBank.getD 0xFF)] ++ be 2 t.pow.floor ++ t.pow.bankBytes 0 ++ t.pow.bankBytes 1) t) ∧
    (Arrives s v .tamperStatus rt p arr t → p.length = 20 → zeroAt p 17 3 = true → at8 p 16 ≤ 1 →
      Completes (.tamperStatus v x) s t (t.request? rt p arr .tamperStatus x)
        (if at8 p 16 = 0 then t.tamperView0 else t.tamperView1) t) ∧
    (Arrives s v .laneStatus rt p arr t → p.length = 16 →
      Completes (.laneStatus v x) s t (t.request? rt p arr .laneStatus x)
        ((t.lane 0).bytes ++ (t.lane 1).bytes ++ (t.lane 2).bytes ++ (t.lane 3).bytes) t)

/-- The stamp field is C, phi and FLAGS in LOCK, HOLD, COAST, SLEW and STOPPED, and eight zero bytes in NONE, ACQUIRE and
FAULT. -/
def Obligations.TheStampFieldIsZeroWhileNoStampIsIssued : Prop :=
  ∀ p : Phase,
    ((p.st = .lock ∨ p.st = .hold ∨ p.st = .coast ∨ p.st = .slew ∨ p.st = .stopped) →
      p.stamp = be 5 p.c ++ be 2 p.phi ++ [byte p.flags]) ∧
    ((p.st = .none ∨ p.st = .acquire ∨ p.st = .fault) → p.stamp = zeros 8)

/-- SYS.RESET arms the device reset of cause 4. SYS.SELFTEST replies the mask of the failed units among those it names, and a
run in which no unit fails writes only the result. TAMPER.CONFIG stores the responses and options, records EV_TAMPER_CONFIG
and has the approved indicator evaluated. -/
def Obligations.DeviceCommandsTakeEffect : Prop :=
  (∀ (s t : State) (v : Via) (x : Ext) (rt : Route) (arr : Nat × Nat) (p : List Byte),
    (Arrives s v .sysReset rt p arr t → p.length = 20 → at8 p 16 = 2 → zeroAt p 17 3 = true →
      Completes (.sysReset v x) s t (t.request? rt p arr .sysReset x) [] { t with pow := { t.pow with armed := some 4 } }) ∧
    (∀ fails, Arrives s v .sysSelftest rt p arr t → p.length = 20 → zeroAt p 18 2 = true → bit (fld p 16 2) 15 = false →
      let mine := fails.filter (fun f => decide (f.unit < 15) && bit (fld p 16 2) f.unit)
      Completes (.sysSelftest v x fails) s t (t.request? rt p arr .sysSelftest x) (be 2 (failedMask mine))
        (t.runTests rt.origin mine)) ∧
    (Arrives s v .tamperConfig rt p arr t → p.length = 36 → zeroAt p 34 2 = true → firstFail (t.configChecks (p.drop 16)) = none →
      let u := { t with tam := { t.tam with response := configResponses (p.drop 16), options := fld p 32 2 } }
      Completes (.tamperConfig v x) s t (t.request? rt p arr .tamperConfig x) []
        ((u.event 0x0B02 rt.origin ((sha256 u.tamperView0).take 8)).evaluate rt.origin))) ∧
  (∀ (s : State) (o : Nat), s.pow.halted = false → s.pow.failed = [] →
    s.runTests o [] = { s with pow := { s.pow with selftest := 0 } }.evaluate o)

/-- FW.LOAD of a valid image stores it in the bank that is not running and replies bank, version and build. FW.ACTIVATE marks
that bank pending and arms the device reset. A signed image whose build lies below FW_FLOOR is refused with ST_POLICY, DETAIL
0x0133; the bank that is not running is then invalid and the floor stands. Where the spec is silent it follows the model's
readings in log entry 87. -/
def Obligations.FirmwareCommandsTakeEffect : Prop :=
  (∀ (s t : State) (v : Via) (x : Ext) (rt : Route) (arr : Nat × Nat) (p : List Byte),
    (∀ b, Arrives s v .fwLoad rt p arr t → p.length = 32 → t.pow.drbgStop = false →
      firstFail (descCheck (p.drop 16) 0 1 1) = none →
      t.input (t.request? rt p arr .fwLoad x) 0 (descAt p 16) = .data b →
      firstFail (t.imageChecks b) = none → x.split = false →
      Completes (.fwLoad v x) s t (t.request? rt p arr .fwLoad x)
        ([byte t.pow.otherBank] ++ be 2 (fld b 4 2) ++ be 2 (fld b 6 2))
        ((((t.didInput (t.request? rt p arr .fwLoad x) (descAt p 16)).dropOther.drewDelay).takeImage b).loadEvent rt.origin b 0)) ∧
    (Arrives s v .fwActivate rt p arr t → p.length = 20 → zeroAt p 18 2 = true → t.pow.bankOk t.pow.otherBank = true →
      (t.pow.bankAt t.pow.otherBank).build = fld p 16 2 →
      Completes (.fwActivate v x) s t (t.request? rt p arr .fwActivate x) []
        { t with pow := { t.pow with pendBank := some t.pow.otherBank, armed := some 5 } })) ∧
  (∀ (s t : State) (v : Via) (x : Ext) (rt : Route) (arr : Nat × Nat) (p b : List Byte), Arrives s v .fwLoad rt p arr t →
    p.length = 32 →
    x.intact = true → t.pow.drbgStop = false → firstFail (descCheck (p.drop 16) 0 1 1) = none →
    t.input (t.request? rt p arr .fwLoad x) 0 (descAt p 16) = .data b → imageBad b = false → 0x10 ∉ t.ks.gone →
    imageSigned t.ks.fwKeys b = true → fld b 6 2 < t.pow.floor →
    let w := (t.didInput (t.request? rt p arr .fwLoad x) (descAt p 16)).dropOther.loadEvent rt.origin b 0x0133
    ∃ u, exec (.fwLoad v x) s = .next u ∧ (u.pow.bankAt u.pow.otherBank).valid = false ∧ u.pow.floor = t.pow.floor ∧
      u = w.complete (t.request? rt p arr .fwLoad x) (w.evr.next != t.evr.next) .policy 0x0133 [])

/-- LANE.RETIRE of a lane in service that is not the last one makes it RETIRING, moves the work that it has not started to
other lanes, and stays in flight, LANE.RESTORE starts the
test of a retired powered lane, and POWER.DOMAIN starts the switch of a lane domain. The only lane in service is neither
retired nor switched off: ST_POLICY, DETAIL 0x00B6. Where the spec is silent it follows the model's readings in log entry 17.
-/
def Obligations.LaneCommandsTakeEffect : Prop :=
  (∀ (s t : State) (v : Via) (x : Ext) (rt : Route) (arr : Nat × Nat) (p : List Byte),
    (Arrives s v .laneRetire rt p arr t → p.length = 20 → zeroAt p 17 3 = true → at8 p 16 < 4 →
      (t.lane (at8 p 16)).st = .inService → t.inServiceCount ≠ 1 →
      StaysInFlight (.laneRetire v x) s t (t.request? rt p arr .laneRetire x) (.laneRetire (at8 p 16))
        (((t.setLane (at8 p 16) { t.lane (at8 p 16) with st := .retiring, queue := [] }).wakeKept).rehome
          (t.lane (at8 p 16)).queue)) ∧
    (Arrives s v .laneRestore rt p arr t → p.length = 20 → zeroAt p 17 3 = true → at8 p 16 < 4 →
      (t.lane (at8 p 16)).st = .retired → (t.lane (at8 p 16)).on = true →
      Completes (.laneRestore v x) s t (t.request? rt p arr .laneRestore x) []
        (t.setLane (at8 p 16) { t.lane (at8 p 16) with st := .testing, gated := false })) ∧
    (Arrives s v .powerDomain rt p arr t → p.length = 20 → zeroAt p 18 2 = true → 2 ≤ at8 p 16 → at8 p 16 ≤ 5 → at8 p 17 = 0 →
      (t.lane (at8 p 16 - 2)).on = true → (t.lane (at8 p 16 - 2)).st = .inService → t.inServiceCount ≠ 1 →
      StaysInFlight (.powerDomain v x) s t (t.request? rt p arr .powerDomain x) (.domainOff (at8 p 16))
        (((t.setLane (at8 p 16 - 2) { t.lane (at8 p 16 - 2) with st := .retiring, queue := [] }).wakeKept).rehome
          (t.lane (at8 p 16 - 2)).queue)) ∧
    (Arrives s v .powerDomain rt p arr t → p.length = 20 → zeroAt p 18 2 = true → 2 ≤ at8 p 16 → at8 p 16 ≤ 5 → at8 p 17 = 1 →
      (t.lane (at8 p 16 - 2)).on = false →
      StaysInFlight (.powerDomain v x) s t (t.request? rt p arr .powerDomain x) (.domainOn (at8 p 16)) t)) ∧
  (∀ (s t : State) (v : Via) (x : Ext) (rt : Route) (arr : Nat × Nat) (p : List Byte), t.inServiceCount = 1 → p.length = 20 →
    (Arrives s v .laneRetire rt p arr t → zeroAt p 17 3 = true → at8 p 16 < 4 → (t.lane (at8 p 16)).st = .inService →
      Refuses (.laneRetire v x) s t (t.request? rt p arr .laneRetire x) .policy 0x00B6) ∧
    (Arrives s v .powerDomain rt p arr t → zeroAt p 18 2 = true → 2 ≤ at8 p 16 → at8 p 16 ≤ 5 → at8 p 17 = 0 →
      (t.lane (at8 p 16 - 2)).on = true → (t.lane (at8 p 16 - 2)).st = .inService →
      Refuses (.powerDomain v x) s t (t.request? rt p arr .powerDomain x) .policy 0x00B6))

/-- A test that passes brings a TESTING lane into PROBATION with 256 operations left, one that fails retires it with CAUSE 3;
a clean comparison of a copy counts down and the last one brings the lane into service; a comparison that is not clean retires it
with CAUSE 4; generated work is fed to a probation lane without copies; an idle lane beyond those kept awake, and the idle
multiplier, are gated; a drained RETIRING lane is RETIRED with CAUSE 1. -/
def Obligations.LaneEventsMoveTheLane : Prop :=
  ∀ (s : State) (i : Nat), i < 4 →
    ((s.lane i).st = .testing → ∃ u, exec (.laneTestComplete i true) s = .next u ∧ (u.lane i).st = .probation ∧
      (u.lane i).left = 256) ∧
    ((s.lane i).st = .testing → ∃ u, exec (.laneTestComplete i false) s = .next u ∧ (u.lane i).st = .retired ∧
      (u.lane i).cause = 3) ∧
    ((s.lane i).st = .probation → (s.lane i).copies ≠ [] → 1 < (s.lane i).left →
      exec (.probationComparison i true) s
        = .next (s.setLane i { s.lane i with left := (s.lane i).left - 1, copies := (s.lane i).copies.drop 1 })) ∧
    ((s.lane i).st = .probation → (s.lane i).copies ≠ [] → (s.lane i).left = 1 →
      ∃ u, exec (.probationComparison i true) s = .next u ∧ (u.lane i).st = .inService ∧ (u.lane i).left = 0) ∧
    ((s.lane i).st = .probation → (s.lane i).copies ≠ [] → ∃ u, exec (.probationComparison i false) s = .next u ∧
      (u.lane i).st = .retired ∧ (u.lane i).cause = 4) ∧
    ((s.lane i).st = .probation → (s.lane i).copies = [] →
      exec (.probationIdleFeed i) s = .next (s.setLane i { s.lane i with copies := [.kat] })) ∧
    ((s.lane i).on = true → (s.lane i).work = [] → (s.lane i).queue = [] → (s.lane i).st = .inService → i ∉ s.keptAwake →
      exec (.domainIdleGate (i + 2)) s = .next (s.setLane i { s.lane i with gated := true })) ∧
    (s.multQueued = false → exec (.domainIdleGate 6) s = .next { s with mult := { s.mult with gated := true } }) ∧
    ((s.lane i).st = .retiring → (s.lane i).work = [] → (∀ l ∈ s.live, l.job ≠ .laneRetire i) →
      ∃ u, exec (.laneDrained i) s = .next u ∧ (u.lane i).st = .retired ∧ (u.lane i).cause = 1 ∧ (u.lane i).work = [])

/-- STAMP_INCREMENT adds one to C and sets phi to zero while stamps are issued, leads to FAULT with C as it stands at the end
of the count, and does nothing otherwise. SLOT_OPEN moves phi to the next slot boundary and creates no GREEN record.
PERIODIC_PERSISTENCE at a C that is a multiple of 65,536 writes the pair of C and backup tick count with the next sequence
number and the epochs to one slot of each store. -/
def Obligations.TheStampAdvancesAndIsPersisted : Prop :=
  (∀ s : State,
    (s.ph.issuing = true → s.ph.c + 1 < stampEnd → ∃ u, exec .stampIncrement s = .next u ∧ u.ph.c = s.ph.c + 1 ∧
      u.ph.phi = 0 ∧ u.ph.st = s.ph.st ∧ u.ks.sigs = 0) ∧
    (s.ph.issuing = true → stampEnd ≤ s.ph.c + 1 → ∃ u, exec .stampIncrement s = .next u ∧ u.ph.c = s.ph.c ∧
      u.ph.st = .fault) ∧
    (s.ph.issuing = false → exec .stampIncrement s = .next s)) ∧
  (∀ s : State, s.ph.issuing = true → s.ph.phi / 1024 < 63 →
    ∃ u, exec (.slotOpen ⟨none, none⟩) s = .next u ∧ u.ph = { s.ph with phi := (s.ph.phi / 1024 + 1) * 1024 } ∧
      ∀ r ∈ u.recs, r.st = .green → ∃ q ∈ s.recs, q.ch = r.ch ∧ q.seq = r.seq ∧ q.st = .green) ∧
  (∀ (s : State) (n : Nat), s.ph.issuing = true → s.ph.c % 65536 = 0 → (s.ph.cp ≠ s.ph.c ∨ s.ph.seq = 0) → s.ph.copies.length = 4 →
    ∃ u, exec (.periodicPersistence n) s = .next u ∧ u.ph.cp = s.ph.c ∧ u.ph.tp = s.ph.ticks + n ∧ u.ph.seq = s.ph.seq + 1 ∧
      u.ph.copies[u.ph.seq % 2]? = some (some ⟨s.ph.c, s.ph.ticks + n, u.ph.seq, s.epochs, true⟩) ∧
      u.ph.copies[u.ph.seq % 2 + 2]? = some (some ⟨s.ph.c, s.ph.ticks + n, u.ph.seq, s.epochs, true⟩))

/-- A missing crossing brings LOCK and SLEW to HOLD; the fourth in HOLD brings COAST with C and phi unchanged and no
correction left; in COAST it is counted once a good cycle has given a prediction. The eighth good cycle in a row in ACQUIRE
brings LOCK, with C zero the first time and the resume value later. A cycle that is not good restarts the count and leaves
stamp and state alone. The timeout of ACQUIRE resumes the stamp in COAST. Where the spec is silent it follows the model's
readings in log entry 35. -/
def Obligations.PhaseUnitFollowsTheMains : Prop :=
  (∀ s : State, s.pow.main = true →
    ((s.ph.st = .lock ∨ s.ph.st = .slew) → ∃ u, exec .crossingMissing s = .next u ∧
      u.ph = { s.ph with st := .hold, missing := min 4 (s.ph.missing + 1) }) ∧
    (s.ph.st = .hold → s.ph.missing + 1 < 4 → ∃ u, exec .crossingMissing s = .next u ∧
      u.ph = { s.ph with missing := s.ph.missing + 1 }) ∧
    (s.ph.st = .hold → 4 ≤ s.ph.missing + 1 → ∃ u, exec .crossingMissing s = .next u ∧ u.ph.st = .coast ∧ u.ph.c = s.ph.c ∧
      u.ph.phi = s.ph.phi ∧ u.ph.left = 0 ∧ u.ph.corr = 0 ∧ u.ph.history = s.ph.history) ∧
    (s.ph.st = .coast → s.ph.period ≠ 0 → exec .crossingMissing s
      = .next { s with ph := { s.ph with missing := min 4 (s.ph.missing + 1) } })) ∧
  (∀ (s : State) (m : MainsCycle), s.pow.main = true → s.ph.st = .acquire → s.ph.goodCycle m = true → 7 ≤ s.ph.good →
    s.ph.good ≤ 8 →
    (s.ph.cSet = false → ∃ u, exec (.mainsCycleEnd m) s = .next u ∧ u.ph.st = .lock ∧ u.ph.c = 0 ∧ u.ph.phi = 0 ∧
      u.ph.cSet = true) ∧
    (∀ r, s.ph.cSet = true → s.ph.waiting = some r → r.start < stampEnd →
      ∃ u, exec (.mainsCycleEnd m) s = .next u ∧ u.ph.st = .lock ∧ u.ph.c = r.start ∧ u.ph.phi = 0 ∧ u.ph.resumed = true ∧
        u.ph.resume = r.start)) ∧
  (∀ (s : State) (m : MainsCycle), s.observing = true → s.ph.goodCycle m = false →
    ∃ u, exec (.mainsCycleEnd m) s = .next u ∧ u.ph.good = 0 ∧ u.ph.c = s.ph.c ∧ u.ph.phi = s.ph.phi ∧ u.ph.st = s.ph.st) ∧
  (∀ (s : State) (r : Resume), s.pow.main = true → s.ph.st = .acquire → s.ph.cSet = true → s.ph.waiting = some r →
    r.start < stampEnd →
    ∃ u, exec .acquireTimeout s = .next u ∧ u.ph.st = .coast ∧ u.ph.c = r.start ∧ u.ph.phi = 0 ∧ u.ph.waiting = none)

/-- A source that fires with response RECORD is asserted and latched and named in the LAST fields, and no key, slice, record
or life-cycle state changes. A fused source, and one that is still asserted, does not fire: only the backup ticks that the row
reports are counted. A source that clears is no longer asserted, and every latch and every other source stands. Where the spec
is silent it follows the model's readings in log entry 43. -/
def Obligations.SourcesFireAndClear : Prop :=
  (∀ (s : State) (i n : Nat) (cut : Bool), i < 16 → s.pow.main = true → bit s.tam.fused i = false →
    bit s.tam.asserted i = false → s.responseOf i = 0 → s.tam.decom = none →
    ∃ u, exec (.sourceFires i ⟨n, cut⟩) s = .next u ∧ bit u.tam.latched i = true ∧ bit u.tam.asserted i = true ∧ u.tam.lastSrc = i ∧
      u.tam.lastResp = 0 ∧ u.ks = s.ks ∧ u.slices = s.slices ∧ u.recs = s.recs ∧ u.tam.life = s.tam.life) ∧
  (∀ (s : State) (i n : Nat) (cut : Bool), i < 16 → (bit s.tam.fused i = true ∨ bit s.tam.asserted i = true) →
    s.tam.decom = none → exec (.sourceFires i ⟨n, cut⟩) s = .next (s.tick n)) ∧
  (∀ (s : State) (i : Nat), bit s.tam.asserted i = true →
    ∃ u, exec (.sourceClears i) s = .next u ∧ bit u.tam.asserted i = false ∧ u.tam.latched = s.tam.latched ∧
      ∀ j, j ≠ i → bit u.tam.asserted j = bit s.tam.asserted j)

/-- A source that fires with response LOCK in SERVICE brings LOCKED, discards every release record, clears the key cache,
accumulator and scratch memory, and leaves the requests in flight to the restart of the command processor, which ends every
one of them without changing the life-cycle state. Where the spec is silent it follows the model's readings in log entry 118.
-/
def Obligations.ALockResponseAndItsRestart : Prop :=
  (∀ (s : State) (i n : Nat) (cut : Bool), i < 16 → s.pow.main = true → bit s.tam.fused i = false →
    bit s.tam.asserted i = false → s.tam.life = .service → s.tam.response.getD i 0 = 2 → s.tam.decom = none →
    ∃ u, exec (.sourceFires i ⟨n, cut⟩) s = .next u ∧ u.tam.life = .locked ∧ u.recs = [] ∧ u.ks.cache = [] ∧
      u.mult.acc = List.replicate 16 0 ∧ u.mult.scratch = [] ∧ u.tam.restart = true ∧
      ∀ l ∈ u.live, l.job = .again ∨ l.job = .restart) ∧
  (∀ s : State, s.tam.restart = true →
    ∃ u, exec .commandProcessorRestart s = .next u ∧ u.tam.restart = false ∧ u.tam.life = s.tam.life ∧
      ∀ l ∈ u.live, l.job ≠ .restart)

/-- LOG.READ replies entries and changes nothing, LOG.HEAD replies the head under the dual signature, LOG.CLEAR removes the
entries it names, records EV_LOG_CLEAR and replies their count with the oldest and next sequence numbers. A flush moves the
oldest staged entry to event flash and loses nothing; one whose write fails leaves it staged; one flash copy of an entry that
fails loses no entry. -/
def Obligations.LogCommandsTakeEffect : Prop :=
  (∀ (s t : State) (v : Via) (x : Ext) (rt : Route) (arr : Nat × Nat) (p : List Byte),
    (Arrives s v .logRead rt p arr t → p.length = 24 → zeroAt p 22 2 = true → 1 ≤ at8 p 21 → at8 p 21 ≤ 125 →
      Completes (.logRead v x) s t (t.request? rt p arr .logRead x) (t.logPayload (fld p 16 5) (at8 p 21)) t) ∧
    (Arrives s v .logHead rt p arr t → p.length = 32 → t.ph.issuing = true → t.pow.drbgStop = false →
      firstFail (t.dualChecks (rt.ctx?.getD 66)) = none → x.verify = none → x.misses = 0 →
      Completes (.logHead v x) s t (t.request? rt p arr .logHead x)
        (t.headBody (p.drop 16) ++ t.dualSign (t.headBody (p.drop 16))) (t.dualSigned (rt.ctx?.getD 66))) ∧
    (Arrives s v .logClear rt p arr t → p.length = 24 → zeroAt p 21 3 = true → fld p 16 5 < t.evr.next →
      t.entries.filter (clears (fld p 16 5)) ≠ [] →
      let n := (t.entries.filter (clears (fld p 16 5))).length
      let u := ({ t with evr := { t.evr with
        flash := t.evr.flash.filter (fun e => !clears (fld p 16 5) e)
        staged := t.evr.staged.filter (fun e => !clears (fld p 16 5) e) } } : State).event 0x0D01 rt.origin
          (be 5 (fld p 16 5) ++ be 3 (sat 24 n))
      Completes (.logClear v x) s t (t.request? rt p arr .logClear x) (be 3 (sat 24 n) ++ be 5 u.oldest ++ be 5 t.evr.next) u)) ∧
  (∀ (s : State) (e : Entry) (r : List Entry), s.evr.staged = e :: r →
    exec (.stagingFlush true none) s = .next { s with evr := { s.evr with staged := r, flash := s.evr.flash ++ [e] } } ∧
    exec (.stagingFlush false none) s = .next s ∧
    (∀ t, exec (.stagingFlush true none) s = .next t → t.entries = s.entries)) ∧
  (∀ (s : State) (e : Entry) (b : Bool), e ∈ s.entries → e.okA = true → e.okB = true →
    ∃ t, exec (.stagingFlush false (some (e.seq, b))) s = .next t ∧ t.evr.next = s.evr.next ∧ t.evr.head = s.evr.head ∧
      t.entries.map (·.bytes) = s.entries.map (·.bytes))

/-- G is SHA-256 over "D256-EVR" and DEVICE_ID. Writing an entry takes NEXT as its sequence number, makes the full head
SHA-256 of the full head before it and bytes 0-23 of the entry, and stores the entry with the full head before it. Keys,
tamper state, contexts, stamp, memory and slices are unchanged. -/
def Obligations.AnEntryExtendsTheChain : Prop :=
  (∀ device : List Byte, (Evr.init device).head = sha256 (ascii "D256-EVR" ++ device)) ∧
  ∀ (s : State) (code origin : Nat) (d : List Byte),
    let bytes := be 5 s.evr.next ++ s.ph.stamp ++ be 2 code ++ [byte origin] ++ padTo 8 d
    (s.write code origin d).evr.next = s.evr.next + 1 ∧
    (s.write code origin d).evr.head = sha256 (s.evr.head ++ bytes) ∧
    (s.write code origin d).evr.staged = s.evr.staged ++ [⟨s.evr.next, bytes, s.evr.head, true, true⟩] ∧
    (s.write code origin d).ks = s.ks ∧ (s.write code origin d).tam = s.tam ∧ (s.write code origin d).ctxs = s.ctxs ∧
    (s.write code origin d).ph = s.ph ∧ (s.write code origin d).wm = s.wm ∧ (s.write code origin d).slices = s.slices

/-- A FIELD.COMMAND that passes steps 6 to 9 of Table 08-3 stays in flight with a GREEN record of its command on a lane: it
names the stamp at which the last byte of the request arrived (R292, R293), and the sequence windows of all channels are
untouched. A frame-table load that passes its checks writes its steps into the area of its slice and completes; a word it
reads with a double-bit error ends it with ST_FAULT, DETAIL 0x0042, EV_WM_ECC, and stays flagged. Where the spec is silent it
follows the model's readings in log entries 53 and 70. -/
def Obligations.FieldCommandsEnter : Prop :=
  (∀ (s t : State) (v : Via) (x : Ext) (rt : Route) (arr : Nat × Nat) (p e : List Byte) (n l : Nat),
    let b := p.drop 16
    let ch := at8 b 1
    let seq := fld b 2 5
    let rq := t.request? rt p arr .fieldCommand x
    Arrives s v .fieldCommand rt p arr t → rt.tenant = some n → isLoad b = false → 35 ≤ b.length → b.length ≤ 66 →
    ((∃ m w, rt = .push m w) → b.length ≤ 48) → at8 b 0 / 2 = 0 → at8 b 7 / 64 = 0 → t.ph.issuing = true →
    t.pow.drbgStop = false → t.live.any (Live.invalidates ch) = false → t.table ≠ none → (t.chan ch).suspended = false →
    t.entryOf ch = some e → t.usable e = true → entrySlice e = n → firstFail (t.fieldKeyChecks rq ch e) = none →
    entryKey e ∈ t.ks.cache → entryKey e ∉ x.keyErrs → (∀ r ∈ t.recs, r.ch = ch → r.seq = seq → r.st ≠ .green) →
    (t.chan ch).duplicate seq = none → t.queueFull ch = false → t.pickFirst = some l →
    ∃ u r, StaysInFlight (.fieldCommand v x) s t rq (.record ch seq) u ∧ u.recs = t.recs ++ [r] ∧ r.st = .green ∧ r.ch = ch ∧
      r.seq = seq ∧ r.slice = n ∧ r.body = b ∧ r.entry = e ∧ r.table = t.tableAt e ∧ r.arrC = arr.1 ∧
      r.arrSlot = arr.1 * 64 + arr.2 / 1024 ∧ r.passed = false ∧ r.lane = l ∧ u.chans = t.chans ∧
      u = ({ (t.touchKey (entryKey e)).touchEntry ch with recs := t.recs ++ [r] } : State).startWork l (.first ch seq)) ∧
  (∀ (s t : State) (v : Via) (x : Ext) (rt : Route) (arr : Nat × Nat) (p : List Byte) (n : Nat) (q : Part),
    let b := p.drop 16
    let r := refAt b 6
    Arrives s v .fieldCommand rt p arr t → rt.tenant = some n → b.length = 12 → at8 b 0 = 0x80 → zeroAt b 5 1 = true →
    refReserved b 6 = false → 1 ≤ at8 b 4 → at8 b 4 ≤ 128 → r.words = at8 b 4 → n < 64 →
    t.holdsAll n .r r = true → t.inData n r = true → t.mustWait (t.request? rt p arr .fieldCommand x) = false →
    let m := t.meet x.bad [r]
    let rq := t.request? rt p arr .fieldCommand x
    (m.badWord r = none → t.area n (at8 b 1) = some q → t.areaRuns n (at8 b 1) = false → fld b 2 2 + at8 b 4 ≤ q.len →
      (∀ w ∈ t.wmWords r, stepOk w = true) → (∃ w ∈ t.wmWords r, stepOp w = 8) →
      Completes (.fieldCommandLoad v x) s t rq [] (t.wmWriteAll (q.base + fld b 2 2) (t.wmWords r))) ∧
    (∀ a, m.badWord r = some a → x.intact = true → exec (.fieldCommandLoad v x) s =
      .next ((m.wmEcc rt.origin .command a).complete rq ((m.wmEcc rt.origin .command a).evr.next != t.evr.next) .fault 0x0042 [])))

/-- A first decision that passes stores the framed data and the record stays GREEN. A frame-table fetch that the rules of the
slice do not allow discards the record: its command ends with ST_ACCESS, DETAIL 0x0041, and EV_WM_ACCESS (R179, R189). A
commit with no lower GREEN record on the channel turns it RIPE with its target slot, takes its number into the sequence window
and starts the second computation after a drawn delay. A second decision that agrees turns it CONFIRMED and replies slot and
rolls. A split one drops the record and marks the split. Where the spec is silent it follows the model's readings in log
entries 47 and 129. -/
def Obligations.RecordsRipenAndAreConfirmed : Prop :=
  (∀ (s : State) (ch seq : Nat) (r : Rec) (k : Key), s.record ch seq = some r → r.st = .green → r.passed = false →
    (s.slot (entryKey r.entry)).key = some k →
    let u := s.endWork (.first r.ch r.seq)
    (∀ bad, u.tableStop r bad = none →
      firstFail (s.firstChecks r (openField k.secret (entryMode r.entry) r.body).2) = none →
      let f := runFrame (s.frameTable r) (openField k.secret (entryMode r.entry) r.body).1 (r.body.take 18)
      f.2 ≠ 0 →
      exec (.firstDecision ch seq ⟨false, bad⟩) s =
        .next ((u.setRecord { r with passed := true, data := f.1, len := f.2 }).schedule).pump) ∧
    (∀ bad a, u.refused r.fetches = some a →
      exec (.firstDecision ch seq ⟨false, bad⟩) s =
        .next ((u.stopRecord r (u.wmAccess r.slice a) .access 0x0041).schedule).pump)) ∧
  (∀ (s : State) (ch seq : Nat) (r : Rec), s.record ch seq = some r → r.st = .green → r.passed = true →
    s.lowerGreen ch seq = false → firstFail (r.slotChecks (s.targetFor r)) = none →
    let l2 := (s.pickSecond r.lane).getD r.lane
    exec (.inSequenceCommit ch seq) s =
      .next ((((s.setChan r.ch (Chan.persist (s.chan r.ch) ((s.chan r.ch).ripen r.seq))).setRecord
        { r with st := .ripe, target := s.targetFor r, lane2 := l2, delay := s.delay }).drewDelay).startWork l2
          (.second r.ch r.seq)).pump) ∧
  (∀ (s : State) (ch seq : Nat) (r : Rec) (bad : List Nat), s.record ch seq = some r → r.st = .ripe → s.tableStop r bad = none →
    exec (.secondDecision ch seq ⟨.agree, bad⟩) s =
      .next (((((s.endWork (.second r.ch r.seq)).setRecord { r with st := .confirmed }).finish (Live.isRecord r.ch r.seq)
        (fun _ s => .done .ok 0 ([byte r.ch] ++ be 5 r.seq ++ be 6 r.target ++ [byte r.rollCount] ++
          zeros 3) s)).schedule)).pump) ∧
  (∀ (s : State) (ch seq : Nat) (r : Rec) (bad : List Nat), s.record ch seq = some r → r.st = .ripe → s.tableStop r bad = none →
    ∃ u : State, exec (.secondDecision ch seq ⟨.split, bad⟩) s = .next u.pump ∧ u.tam.split = true ∧
      ∀ q ∈ u.recs, q ∈ s.recs ∧ ¬(q.ch = r.ch ∧ q.seq = r.seq))

/-- On the window of a channel: a number that has ripened is a duplicate or too low from then on, and a number that is refused
stays refused whatever ripens later. No number of a channel ripens twice under one entry. Where the spec is silent it follows
the model's readings in log entry 12. -/
def Obligations.NoSequenceNumberRipensTwice : Prop :=
  ∀ (c : Chan) (a b : Nat),
    ((c.ripen a).duplicate a).isSome = true ∧ ((c.duplicate a).isSome = true → ((c.ripen b).duplicate a).isSome = true)

/-- When a slot opens, an OFFERED record was CONFIRMED for that slot, or was OFFERED before and its four slots are not over. A
poll shows the OFFERED records of its slot that name its port, and no others, in ascending order of channel and sequence
number. -/
def Obligations.OnlyConfirmedRecordsAreOffered : Prop :=
  (∀ (s : State) (a : Nat) (r : Rec), r ∈ (s.openSlot a).recs → r.st = .offered →
    ∃ q ∈ s.recs, q.ch = r.ch ∧ q.seq = r.seq ∧ ((q.st = .confirmed ∧ q.target = a) ∨ (q.st = .offered ∧ q.target + 4 ≠ a))) ∧
  (∀ (s : State) (p : Port) (slot : Nat),
    (∀ r, r ∈ s.readable p slot ↔ r ∈ s.recs ∧ r.st = .offered ∧ r.target = slot ∧ bit r.ports (portBit p) = true) ∧
    (s.readable p slot).Pairwise (fun a b => a.ch < b.ch ∨ (a.ch = b.ch ∧ a.seq ≤ b.seq)))

/-- SLICE.CREATE of a FREE slice makes it CREATED with quota and run, makes its root key, advances its epoch, leaves every
other slice alone, and replies base, words and epoch. SLICE.QUOTA with unchanged sizes sets the quota, and with new sizes that
fit puts the new run in place of the old with keys and contexts unchanged. A placed run lies in the pool, holds its parts and
a guard band, and meets no other run. Where the spec is silent it follows the model's readings in log entry 79. -/
def Obligations.SlicesAreMadeAndResized : Prop :=
  (∀ (s t : State) (v : Via) (x : Ext) (rt : Route) (arr : Nat × Nat) (p : List Byte) (r : Run),
    let b := p.drop 16
    let n := at8 b 0
    let rq := t.request? rt p arr .sliceCreate x
    Arrives s v .sliceCreate rt p arr t → p.length = 32 → t.ph.issuing = true → t.pow.drbgStop = false →
    firstFail (sizeChecks rq) = none → (t.slc n).st = .free → (t.slot (0x40 + n)).retired = false →
    t.quotaSum n + quotaOf b + t.retiredSlots ≤ 16128 → t.place (dataOf b) (ft0Of b) (ft1Of b) = .ok r →
    ∃ u, Completes (.sliceCreate v x) s t rq (be 3 r.base ++ be 3 r.words ++ be 3 (nextEpoch (t.ctx n).epoch)) u ∧
      u.slc n = ⟨.created, [], quotaOf b, some r⟩ ∧ (∀ m, m ≠ n → u.slc m = t.slc m) ∧
      (u.slot (0x40 + n)).key.isSome = true ∧ (u.ctx n).epoch = nextEpoch (t.ctx n).epoch) ∧
  (∀ (s t : State) (v : Via) (x : Ext) (rt : Route) (arr : Nat × Nat) (p : List Byte) (r : Run),
    let b := p.drop 16
    let n := at8 b 0
    let rq := t.request? rt p arr .sliceQuota x
    Arrives s v .sliceQuota rt p arr t → p.length = 32 → firstFail (sizeChecks rq) = none → (t.slc n).run = some r →
    firstFail (t.shrinkChecks n b r) = none →
    (dataOf b = r.data.len → ft0Of b = areaLen r.ft0 → ft1Of b = areaLen r.ft1 →
      Completes (.sliceQuota v x) s t rq (be 3 r.base ++ be 3 r.words ++ be 3 (t.ctx n).epoch)
        (t.setSlc n { t.slc n with quota := quotaOf b })) ∧
    (∀ r', (dataOf b ≠ r.data.len ∨ ft0Of b ≠ areaLen r.ft0 ∨ ft1Of b ≠ areaLen r.ft1) → t.ruleUsers n = false →
      t.resize r (dataOf b) (ft0Of b) (ft1Of b) = .ok r' →
      ∃ u, Completes (.sliceQuota v x) s t rq (be 3 r'.base ++ be 3 r'.words ++ be 3 (t.ctx n).epoch) u ∧
        u.slc n = { t.slc n with run := some r', quota := quotaOf b } ∧ u.ks = t.ks ∧ u.ctxs = t.ctxs)) ∧
  (∀ (s : State) (d f0 f1 : Nat) (r : Run), s.place d f0 f1 = .ok r →
    r.words = d + f0 + f1 + 256 ∧ r.data.len = d ∧ areaLen r.ft0 = f0 ∧ areaLen r.ft1 = f1 ∧ r.base + r.words ≤ poolEnd ∧
    (∀ q ∈ s.runs, r.base + r.words ≤ q.base ∨ q.base + q.words ≤ r.base) ∧
    ((∀ q ∈ s.runs, poolFirst ≤ q.base) → poolFirst ≤ r.base))

/-- SLICE.BIND, SLICE.RESUME, SLICE.REMOVE and SLICE.STATUS complete with their effect; SLICE.QUIESCE of an active slice makes
it QUIESCING and waits, of a quiesced one completes; SLICE.RESET waits. A QUIESCING slice with nothing in flight and no
pending writes becomes QUIESCED and every waiting SLICE.QUIESCE ends; a waiting SLICE.RESET of a drained slice then has its
effect and replies. Where the spec is silent it follows the model's readings in log entries 77 and 80. -/
def Obligations.SliceCommandsTakeEffect : Prop :=
  (∀ (s t : State) (v : Via) (x : Ext) (rt : Route) (arr : Nat × Nat) (p : List Byte),
    let b := p.drop 16
    let n := at8 b 0
    n < 64 → (∀ m, rt.tenant = some m → m = n) →
    (Arrives s v .sliceBind rt p arr t → p.length = 34 → 1 ≤ at8 b 1 → at8 b 1 ≤ 4 →
      (∀ i, i < 4 → bindField b i < 2 ^ 20 ∧ (at8 b 1 ≤ i → bindField b i = 0)) →
      ((t.slc n).st = .created ∨ (t.slc n).st = .quiesced) → (∀ q ∈ bindPasids b, t.pasidTaken n q = false) →
      Completes (.sliceBind v x) s t (t.request? rt p arr .sliceBind x) []
        (t.setSlc n { t.slc n with
          pasids := bindPasids b, st := if (t.slc n).st = .created then .active else .quiesced })) ∧
    (Arrives s v .sliceResume rt p arr t → p.length = 17 → (t.slc n).st = .quiesced →
      Completes (.sliceResume v x) s t (t.request? rt p arr .sliceResume x) [] (t.setSlc n { t.slc n with st := .active })) ∧
    (Arrives s v .sliceQuiesce rt p arr t → p.length = 17 → (t.slc n).st = .quiesced →
      Completes (.sliceQuiesce v x) s t (t.request? rt p arr .sliceQuiesce x) [] t) ∧
    (Arrives s v .sliceQuiesce rt p arr t → p.length = 17 → ((t.slc n).st = .active ∨ (t.slc n).st = .quiescing) →
      StaysInFlight (.sliceQuiesce v x) s t (t.request? rt p arr .sliceQuiesce x) (.quiesce n)
        (t.setSlc n { t.slc n with st := .quiescing })) ∧
    (Arrives s v .sliceReset rt p arr t → p.length = 17 → (t.slc n).st ≠ .emigrating → (t.slc n).st ≠ .immigrating →
      StaysInFlight (.sliceReset v x) s t (t.request? rt p arr .sliceReset x) (.sliceReset n) t) ∧
    (Arrives s v .sliceRemove rt p arr t → p.length = 17 → ((t.slc n).st = .created ∨ (t.slc n).st = .quiesced) →
      Completes (.sliceRemove v x) s t (t.request? rt p arr .sliceRemove x) [] (t.removeSlice n rt.origin)) ∧
    (Arrives s v .sliceStatus rt p arr t → p.length = 17 →
      Completes (.sliceStatus v x) s t (t.request? rt p arr .sliceStatus x) (t.slicePayload n) t)) ∧
  (∀ (s : State) (n : Nat), n < 64 →
    ((s.slc n).st = .quiescing → s.sliceBusy n = false → (s.ctx n).written = true →
      ∃ u, exec (.quiesceComplete n) s = .next u ∧ (u.slc n).st = .quiesced ∧ (∀ l ∈ u.live, l.job ≠ .quiesce n) ∧
        u.wm = s.wm ∧ u.ks = s.ks) ∧
    (∀ l w, (s.slc n).st ≠ .quiescing → s.sliceBusy n = false → (s.ctx n).written = true → (s.ctx n).drained = true →
      s.takeLive (fun l => l.job == .sliceReset n) = some (l, w) →
      let z := w.resetSlice n l.rq.route.origin
      exec (.sliceResetComplete n) s = .next (z.complete l.rq (z.evr.next != s.evr.next) .ok 0 [])))

/-- From a state in canonical form, SLICE.REMOVE leaves the slice FREE and unbound with no quota and no run, no key of its
owner in any slot, every word of its run reading zero, and every other slice unchanged. -/
def Obligations.ARemovedSliceLeavesNothing : Prop :=
  ∀ (s : State) (n o : Nat) (r : Run), s.Canonical → (s.slc n).run = some r →
    (s.removeSlice n o).slc n = .init ∧ (∀ k key, ((s.removeSlice n o).slot k).key = some key → key.attr.owner ≠ n) ∧
    (∀ a, r.base ≤ a → a < r.base + r.words → (s.removeSlice n o).wmRead a = 0#40) ∧
    (∀ m, m ≠ n → (s.removeSlice n o).slc m = s.slc m)

/-- CHANNEL.INVALIDATE with no GREEN record on its channels drops exactly their cached entries, takes the table address and
completes; a range beyond channel 255 is refused with ST_LENGTH; one that waited has its effect when no GREEN record is left.
CHANNEL.STATUS replies the channel and changes nothing. Where the spec is silent it follows the model's readings in log
entries 81 and 82. -/
def Obligations.ChannelCommandsTakeEffect : Prop :=
  (∀ (s t : State) (v : Via) (x : Ext) (rt : Route) (arr : Nat × Nat) (p : List Byte),
    let b := p.drop 16
    (Arrives s v .channelInvalidate rt p arr t → p.length = 32 → zeroAt b 12 4 = true → 1 ≤ fld b 10 2 →
      fld b 0 8 % 4096 = 0 → fld b 8 2 + fld b 10 2 ≤ 256 → fld b 8 2 ≤ 255 → t.table = some (fld b 0 8) →
      (∀ r ∈ t.recs, r.st = .green → ¬(fld b 8 2 ≤ r.ch ∧ r.ch < fld b 8 2 + fld b 10 2)) →
      ∃ u, Completes (.channelInvalidate v x) s t (t.request? rt p arr .channelInvalidate x) [] u ∧ u.table = some (fld b 0 8) ∧
        (∀ e, e ∈ u.cached ↔ e ∈ t.cached ∧ ¬(fld b 8 2 ≤ e.1 ∧ e.1 < fld b 8 2 + fld b 10 2)) ∧ u.recs = t.recs) ∧
    (Arrives s v .channelInvalidate rt p arr t → p.length = 32 → zeroAt b 12 4 = true →
      (fld b 10 2 < 1 ∨ 256 < fld b 8 2 + fld b 10 2) →
      Refuses (.channelInvalidate v x) s t (t.request? rt p arr .channelInvalidate x) .length 0) ∧
    (Arrives s v .channelStatus rt p arr t → p.length = 18 → fld b 0 2 ≤ 255 →
      (∀ m, rt.tenant = some m → (t.chan (fld b 0 2)).entry ≠ [] ∧ entrySlice (t.chan (fld b 0 2)).entry = m) →
      Completes (.channelStatus v x) s t (t.request? rt p arr .channelStatus x) (t.channelPayload (fld b 0 2)) t)) ∧
  (∀ (s w : State) (l : Live), s.takeLive s.canInvalidate = some (l, w) →
    exec .channelInvalidateComplete s = .next
      ((w.invalidate (fld l.rq.body 0 8) (fld l.rq.body 8 2) (fld l.rq.body 10 2)).complete l.rq false .ok 0 []).pump)

/-- A usable entry fetched on a miss is cached as the entry in force, in a cache of at most 64. The audit sweep, once at φ =
0x0000 of a C that is a multiple of 1,024, leaves a channel alone whose entry in host memory is the cached one; one whose
entry differs is suspended, leaves the cache, and keeps no GREEN record. It skips a channel that a waiting CHANNEL.INVALIDATE
names. Where the spec is silent it follows the model's readings in log entries 83 and 84. -/
def Obligations.BindingEntriesAreCachedAndAudited : Prop :=
  (∀ (s : State) (ch : Nat) (e : List Byte) (l : Live), e.length = 64 → s.live.find? (Live.wantsEntry ch) = some l →
    s.hp.d3hot = false → s.dmaStop 64 = none → s.usable e = true → (s.chan ch).evicted = false →
    ∃ u : State, exec (.bindingEntryFetch ch e) s = .next u.pump ∧ u.entryOf ch = some e ∧ (u.chan ch).entry = e ∧
      u.cached.length ≤ 64 ∧ u.live = s.live) ∧
  (∀ (s : State) (ch : Nat) (e f : List Byte), s.pow.main = true → s.ph.issuing = true → s.ph.c % 1024 = 0 → s.ph.phi = 0 →
    s.ph.audited ≠ some s.ph.c → s.hp.d3hot = false →
    let w : State := { s with ph := { s.ph with audited := some s.ph.c } }
    s.dmaStop 64 = none → s.cached = [(ch, e)] → e.length = 64 → f.length = 64 →
    (s.live.any (Live.invalidates ch) = true → exec (.auditSweep [.data f]) s = .next w.pump) ∧
    (s.live.any (Live.invalidates ch) = false → exec (.auditSweep [.data e]) s = .next (w.readEntry ch).pump) ∧
    (s.live.any (Live.invalidates ch) = false → f ≠ e → ∃ u : State, exec (.auditSweep [.data f]) s = .next u.pump ∧
      (u.chan ch).suspended = true ∧ u.cached = [] ∧
      ∀ r ∈ u.recs, r.ch = ch → r.st ≠ .green))

/-- KEY.GEN of a symmetric or HSS key puts a key with the asked attributes, one level below its parent and under the parent's
generation, into the slot it chose and replies its attributes; EC and RSA keys wait for the multiplier. KEY.DERIVE puts the
key that the KDF of R344 gives below its source. No other slot changes. Where the spec is silent it follows the model's
readings in log entry 63. -/
def Obligations.KeysAreMade : Prop :=
  (∀ (s t : State) (v : Via) (x : Ext) (rt : Route) (arr : Nat × Nat) (p : List Byte),
    let b := p.drop 16
    let q := specAt b
    let rq := t.request? rt p arr .keyGen x
    let k := t.target rq.owner (fld b 2 2)
    Arrives s v .keyGen rt p arr t → p.length = 32 → t.ph.issuing = true → t.pow.drbgStop = false → specReserved b = false →
    firstFail (t.specChecks rq.owner q) = none → publicType q.type = false →
    firstFail (t.parentChecks rq (fld b 0 2)) = none → firstFail (t.targetChecks rq.owner (fld b 2 2)) = none → x.split = false →
    ((q.type ≠ 0x10 ∧ q.type ≠ 0x20) → t.cacheReady = true →
      ∃ key u, Completes (.keyGen v x) s t rq (keyReply k key) u ∧ (u.slot k).key = some key ∧ key.attr.type = q.type ∧
        key.attr.size = q.size ∧ key.attr.usage = q.usage ∧ key.attr.flags = q.flags ∧ key.attr.owner = rq.owner ∧
        key.attr.origin = 0 ∧ key.attr.parent = fld b 0 2 ∧ key.attr.parentGen = (t.slot (fld b 0 2)).gen ∧
        key.attr.gen = (t.slot k).gen ∧ (∀ par, (t.slot (fld b 0 2)).key = some par → key.attr.level = par.attr.level + 1) ∧
        (∀ j, j ≠ k → u.slot j = t.slot j)) ∧
    ((q.type = 0x10 ∨ q.type = 0x20) →
      StaysInFlight (.keyGen v x) s t rq (.mult rq.owner 0 k [] [])
        { t.drewDelay with mult := { t.mult with gated := false } })) ∧
  (∀ (s t : State) (v : Via) (x : Ext) (rt : Route) (arr : Nat × Nat) (p : List Byte) (src : Key),
    let b := p.drop 16
    let q := specAt b
    let rq := t.request? rt p arr .keyDerive x
    let k := t.target rq.owner (fld b 2 2)
    let f := prfOf src.secret (at8 b 16)
    Arrives s v .keyDerive rt p arr t → 1 ≤ at8 b 17 → at8 b 17 ≤ 64 → at8 b 18 ≤ 128 → b.length = 20 + at8 b 17 + at8 b 18 →
    t.ph.issuing = true → t.pow.drbgStop = false → specReserved b = false → at8 b 19 = 0 → (q.type = 1 ∨ q.type = 2) →
    firstFail (t.specChecks rq.owner q) = none →
    firstFail (t.keyChecks rq (fld b 0 2) (fun k => k.may uDerive)) = none →
    firstFail (t.parentChecks rq (fld b 0 2)) = none → t.cachedKey rq.owner (fld b 0 2) = some src →
    prfFits src.attr.type (at8 b 16) = true → (at8 b 16 = 0 → t.laneInService = true) →
    firstFail (t.targetChecks rq.owner (fld b 2 2)) = none → x.split = false → x.misses = 0 → fld b 0 2 ∉ x.keyErrs →
    ∃ key u, Completes (.keyDerive v x) s t rq (keyReply k key) u ∧ (u.slot k).key = some key ∧
      key.secret = kdf f.1 f.2 (slice b 20 (at8 b 17)) (slice b (20 + at8 b 17) (at8 b 18)) q.size ∧
      key.attr.parent = fld b 0 2 ∧ key.attr.level = src.attr.level + 1 ∧ key.attr.owner = rq.owner ∧
      (∀ j, j ≠ k → u.slot j = t.slot j))

/-- KEY.IMPORT installs a public key given in clear, or the secret that opens under its wrapping key. KEY.UNWRAP of a blob
that opens installs its key with the usage that the mask leaves. Both record ORIGIN 1 and change no other slot. Where the spec
is silent it follows the model's readings in log entry 61. -/
def Obligations.KeysAreImportedAndUnwrapped : Prop :=
  (∀ (s t : State) (v : Via) (x : Ext) (rt : Route) (arr : Nat × Nat) (p data : List Byte),
    let b := p.drop 16
    let q := specAt b
    let rq := t.request? rt p arr .keyImport x
    let k := t.target rq.owner (fld b 2 2)
    Arrives s v .keyImport rt p arr t → p.length = 52 → t.ph.issuing = true → t.pow.drbgStop = false → specReserved b = false →
    zeroAt b 18 2 = true → firstFail (t.specChecks rq.owner q) = none → firstFail (t.importChecks rq) = none → x.split = false →
    (fld b 16 2 = 0xFFFF → t.input rq 0 (descAt b 20) = .data data →
      (∀ c, q.type = 0x11 → t.curve rq.owner q.size = some c → firstFail (c.pointChecks data) = none) →
      ∃ key u, Completes (.keyImport v x) s t rq (keyReply k key) u ∧ (u.slot k).key = some key ∧ key.pub = data ∧
        key.attr.origin = 1 ∧ key.attr.type = q.type ∧ (∀ j, j ≠ k → u.slot j = t.slot j)) ∧
    (∀ w secret, fld b 16 2 ≠ 0xFFFF → x.misses = 0 → fld b 16 2 ∉ x.keyErrs → t.cachedKey rq.owner (fld b 16 2) = some w →
      t.input rq 0 (descAt b 20) = .data data → kwpOpen w.secret data = some secret →
      secret.length = t.secretLen rq.owner q.type q.size →
      firstFail (t.scalarChecks rq.owner q.type q.size secret) = none →
      ∃ key u, Completes (.keyImport v x) s t rq (keyReply k key) u ∧ (u.slot k).key = some key ∧
        key.secret = secretOf q.type secret ∧ key.attr.origin = 1 ∧ (∀ j, j ≠ k → u.slot j = t.slot j))) ∧
  (∀ (s t : State) (v : Via) (x : Ext) (rt : Route) (arr : Nat × Nat) (p blob plain : List Byte) (w : Key),
    let b := p.drop 16
    let rq := t.request? rt p arr .keyUnwrap x
    let k := t.target rq.owner (fld b 4 2)
    let a := attrAt blob 4
    Arrives s v .keyUnwrap rt p arr t → p.length = 40 → t.ph.issuing = true → t.pow.drbgStop = false → t.laneInService = true →
    firstFail (t.keyChecks rq (fld b 0 2) (fun k => k.attr.type == 1 && k.may uUnwrap)) = none →
    firstFail (t.parentChecks rq (fld b 2 2)) = none → firstFail (t.targetChecks rq.owner (fld b 4 2)) = none →
    firstFail (t.needDesc rq 8 1) = none → (descAt b 8).len ≤ 4096 → t.cachedKey rq.owner (fld b 0 2) = some w →
    t.input rq 0 (descAt b 8) = .data blob → x.split = false → x.misses = 0 → fld b 0 2 ∉ x.keyErrs → fld blob 0 2 = 0x0901 →
    58 ≤ blob.length → firstFail (blobChecks a) = none →
    fld blob 2 2 = blob.length → fld blob 24 2 = 0 → openBlob w.secret blob = some plain → (a.type = 1 ∨ a.type = 2) →
    plain.length = a.size / 8 →
    ∃ key u, Completes (.keyUnwrap v x) s t rq (keyReply k key) u ∧ (u.slot k).key = some key ∧ key.secret = plain ∧
      key.attr.usage = a.usage &&& fld b 6 2 ∧ key.attr.type = a.type ∧ key.attr.flags = a.flags ∧ key.attr.origin = 1 ∧
      key.attr.owner = rq.owner ∧ (∀ j, j ≠ k → u.slot j = t.slot j))

/-- KEY.WRAP writes the wrap blob of the subject under the wrapping key through its descriptor, replies its length, sets the
exported flag of the subject, and changes no other slot. Where the spec is silent it follows the model's readings in log entry
19. -/
def Obligations.KeyWrapWritesTheBlob : Prop :=
  ∀ (s t : State) (v : Via) (x : Ext) (rt : Route) (arr : Nat × Nat) (p : List Byte) (w k : Key),
    let b := p.drop 16
    let rq := t.request? rt p arr .keyWrap x
    let d := descAt b 8
    let n := 42 + kwpLen (t.material k).length
    let a := t.drewDelay.drewDelay
    let blob := wrapBlob 0x0901 w.secret k.attr.blob [] (a.drawBytes 16) (t.material k)
    let m : Key := { k with pflags := setBit k.pflags 1 true }.stored t.ph.c
    Arrives s v .keyWrap rt p arr t → p.length = 40 → t.pow.drbgStop = false → t.laneInService = true → zeroAt b 4 4 = true →
    firstFail (t.keyChecks rq (fld b 0 2) (fun k => k.attr.type == 1 && k.may uWrap)) = none →
    firstFail (t.keyChecks rq (fld b 2 2) Key.usable) = none → bit k.attr.flags 0 = true →
    firstFail (t.needDesc rq 8 2) = none → n ≤ d.len → fld b 0 2 ∈ t.ks.cache → fld b 2 2 ∈ t.ks.cache →
    t.keyFor rq.owner (fld b 0 2) = some w → t.keyFor rq.owner (fld b 2 2) = some k → t.dmaStop rq.owner = none →
    x.split = false → x.misses = 0 → fld b 0 2 ∉ x.keyErrs → fld b 2 2 ∉ x.keyErrs →
    ∃ u, Completes (.keyWrap v x) s t rq (be 4 n) u ∧ (u.slot (fld b 2 2)).key = some m ∧
      (∀ j, j ≠ fld b 2 2 → u.slot j = t.slot j) ∧
      u = (((((t.touchKey (fld b 0 2)).touchKey (fld b 2 2)).drewDelay.drewDelay).drewBytes 16).output rq.owner d blob).setSlot
        (fld b 2 2) { t.slot (fld b 2 2) with key := some m }

/-- KEY.DESTROY waits until nothing uses the key; its slot is then empty, its generation one higher, its cache entry gone, and
no other slot changes. KEY.ATTR removes usage and changes flags as asked, keeps the secret, never adds usage, replies the new
attributes, and changes no other slot. -/
def Obligations.KeysAreDestroyedAndNarrowed : Prop :=
  ((∀ (s t : State) (v : Via) (x : Ext) (rt : Route) (arr : Nat × Nat) (p : List Byte) (k : Key),
    let rq := t.request? rt p arr .keyDestroy x
    Arrives s v .keyDestroy rt p arr t → p.length = 18 → t.keyFor rq.owner (fld p 16 2) = some k →
    (∀ l ∈ t.live, l.job ≠ .keyDestroy (fld p 16 2)) → k.frozen = false → k.isRoot = false →
    StaysInFlight (.keyDestroy v x) s t rq (.keyDestroy (fld p 16 2)) t) ∧
  (∀ (s w : State) (k : Nat) (l : Live), s.keyBusy k = false →
    s.takeLive (fun l => l.job == .keyDestroy k) = some (l, w) → (s.slot k).gen < 0xFFFFFF →
    ∃ u, exec (.keyDestroyComplete k) s = .next u ∧ (u.slot k).key = none ∧ (u.slot k).gen = (s.slot k).gen + 1 ∧
      k ∉ u.ks.cache ∧ (∀ j, j ≠ k → u.slot j = s.slot j))) ∧
  (∀ (s t : State) (v : Via) (x : Ext) (rt : Route) (arr : Nat × Nat) (p : List Byte) (k : Key),
    let b := p.drop 16
    let rq := t.request? rt p arr .keyAttr x
    let a : Attr := { k.attr with
      usage := k.attr.usage - (k.attr.usage &&& fld b 2 2)
      flags := (k.attr.flags ||| at8 b 4) - (k.attr.flags &&& at8 b 5) }
    Arrives s v .keyAttr rt p arr t → p.length = 24 → zeroAt b 6 2 = true → fld b 2 2 < 512 → (at8 b 4 = 0 ∨ at8 b 4 = 2) →
    at8 b 5 ≤ 1 → t.keyFor rq.owner (fld b 0 2) = some k → t.doomed rq (fld b 0 2) = false → k.frozen = false →
    (k.isRoot = false ∨ (fld b 2 2 = 0 ∧ at8 b 4 = 0 ∧ at8 b 5 = 0)) →
    ∃ u key, Completes (.keyAttr v x) s t rq (a.bytes ++ [byte (b01 (t.orphaned k))] ++ be 2 k.pub.length ++ k.pub) u ∧
      (u.slot (fld b 0 2)).key = some key ∧ key.attr = a ∧ key.secret = k.secret ∧
      (∀ j, j ≠ fld b 0 2 → u.slot j = t.slot j) ∧
      (∀ i, bit key.attr.usage i = true → bit k.attr.usage i = true))

/-- A key that a request waits for enters the cache while it has room; when both copies of a key that is no HSS key fail, the
slot is freed under a new generation and no request waits for it. The sweeper frees an orphaned key that nothing uses, passes over
a good one, and writes the failed copy of a key again from the good one. What the sweeper does with a key in use, and what becomes
of a lost HSS key, are the model's readings (log entries 62 and 45). -/
def Obligations.KeysAreLoadedAndSwept : Prop :=
  (∀ (s : State) (k : Nat), s.live.any (Live.wantsKey k) = true →
    (∀ key, (s.slot k).key = some key → key.flash.okA = true → s.ks.cache.length < s.cacheRoom →
      ∃ u : State, exec (.keyCacheLoad k true true) s = .next u.pump ∧ k ∈ u.ks.cache ∧
      u.live = s.live ∧ u.ks.slots = s.ks.slots) ∧
    (∀ key, (s.slot k).key = some key → key.attr.type ≠ 0x30 → (s.slot k).gen < 0xFFFFFF →
      ∃ u : State, exec (.keyCacheLoad k false false) s = .next u.pump ∧ (u.slot k).key = none ∧
        (u.slot k).gen = (s.slot k).gen + 1 ∧ ∀ l ∈ u.live, l.job ≠ .held (.key k))) ∧
  (∀ (s : State) (key : Key), s.pow.main = true → 0x40 ≤ s.ks.sweepAt → s.ks.sweepAt < 16383 →
    (s.slot s.ks.sweepAt).key = some key → s.keyBusy s.ks.sweepAt = false →
    (s.orphaned key = true → (s.slot s.ks.sweepAt).gen < 0xFFFFFF →
      ∃ u, exec (.keySweeperVisit true true (false, false)) s = .next u ∧ (u.slot s.ks.sweepAt).key = none ∧
        u.ks.sweepAt = s.ks.sweepAt + 1 ∧ u.ks.swept = s.ks.swept + 1 ∧ ∀ j, j ≠ s.ks.sweepAt → u.slot j = s.slot j) ∧
    (s.orphaned key = false → key.flash.okA = true → key.flash.okB = true → s.ph.c - key.flash.ageA ≤ 16777216 →
      s.ph.c - key.flash.ageB ≤ 16777216 →
      ∃ u, exec (.keySweeperVisit true true (false, false)) s = .next u ∧ u.ks.sweepAt = s.ks.sweepAt + 1 ∧
        (∀ j, u.slot j = s.slot j) ∧ u.ks.swept = s.ks.swept) ∧
    (s.orphaned key = false → key.flash.okA = true →
      ∃ u, exec (.keySweeperVisit true false (false, false)) s = .next u ∧
        (u.slot s.ks.sweepAt).key = some { key with flash :=
          ⟨true, true, if 16777216 < s.ph.c - key.flash.ageA then s.ph.c else key.flash.ageA, s.ph.c, key.flash.writes + 1⟩ } ∧
        ∀ j, j ≠ s.ks.sweepAt → u.slot j = s.slot j))

/-- A key whose parent slot is empty or has another generation is orphaned; one directly under a root of the recorded
generation is not. A slot that is device-reserved, empty or owned by another is answered with ST_NO_KEY, DETAIL 0, and gives
no key. -/
def Obligations.OrphansAndForeignKeysAreRefused : Prop :=
  (∀ (s : State) (key par : Key), 1 < key.attr.level →
    ((s.slot key.attr.parent).key = none → s.orphaned key = true) ∧
    ((s.slot key.attr.parent).key = some par → (s.slot key.attr.parent).gen ≠ key.attr.parentGen → s.orphaned key = true) ∧
    ((s.slot key.attr.parent).key = some par → (s.slot key.attr.parent).gen = key.attr.parentGen → par.attr.level ≤ 1 →
      s.orphaned key = false)) ∧
  (∀ (s : State) (rq : Rq) (k : Nat) (ok : Key → Bool),
    (k < 0x40 ∨ (s.slot k).key = none ∨ (∃ key, (s.slot k).key = some key ∧ key.attr.owner ≠ rq.owner)) →
    s.keyFor rq.owner k = none ∧ firstFail (s.keyChecks rq k ok) = some (.noKey, 0) ∧ s.cachedKey rq.owner k = none)

/-- SEAL.ONCE past its checks stays in flight with its result as bulk work in segments of 4 KiB. A segment that is not the
last only counts down; the last one releases output, stream and reply. Where the spec is silent it follows the model's
readings in log entries 66 and 120. -/
def Obligations.SealOnceAndSegments : Prop :=
  (∀ (s t : State) (v : Via) (x : Ext) (rt : Route) (arr : Nat × Nat) (p aad data : List Byte) (key : Key),
    let b := p.drop 16
    let rq := t.request? rt p arr .sealOnce x
    let k := fld b 0 2
    let u := (t.touchKey k).tookIn rq 24
    let a := (u.tookIn rq 40).drewDelay
    let r := sealOnce b rq.owner k key.secret (a.sealIv b).1 aad data
    Arrives s v .sealOnce rt p arr t → p.length = 104 → t.pow.drbgStop = false → t.laneInService = true →
    firstFail (sealForm b 7) = none → (at8 b 2 = algCmac → descAbsent b 56 = true) →
    ((at8 b 3 = 2 ∧ tagged (at8 b 2) = true) ∨ zeroAt b 72 16 = true) → firstFail (t.dataDesc rq 24) = none →
    firstFail (t.dataDesc rq 40) = none → firstFail (t.mayDesc rq 56 2) = none →
    dataOk (at8 b 2) (at8 b 3) (at8 b 5) (descLen b 40) = true → outLen (at8 b 2) (at8 b 3) (descLen b 40) ≤ descLen b 56 →
    firstFail (t.sealKey rq k (at8 b 2) (at8 b 3)) = none → t.cachedKey rq.owner k = some key → k ∉ x.keyErrs →
    InputIs (t.touchKey k) rq 0 24 aad → InputIs u rq 1 40 data → x.split = false → x.intact = true →
      r.2.2.2.length ≤ descLen b 56 →
    exec (.sealOnce v x) s = .next
      ((((a.sealIv b).2.counted k key (at8 b 2) (at8 b 3)).hold t.evr.next rq
        (.bulk ⟨rq.owner, k, segments (aad.length + data.length), 0, r.1, r.2.1, r.2.2.1, outAt b 56, r.2.2.2, none,
          none⟩))).schedule) ∧
  (∀ (s w : State) (lane i : Nat) (l : Live) (b : Bulk), (s.lane lane).bulkCtx = some i →
    (s.endWork (.bulk i)).takeLive (Live.bulkOf i) = some (l, w) → l.job = .bulk b →
    (b.segs ≤ 1 → exec (.segmentComplete lane false) s =
      .next (((b.finish l.rq.route.origin w).settle s.evr.next l.rq).schedule).pump) ∧
    (1 < b.segs → exec (.segmentComplete lane false) s =
      .next ((((s.endWork (.bulk i)).setJob l (.bulk { b with segs := b.segs - 1, tries := 0 }))).schedule).pump))

/-- SEAL.INIT starts a stream context under the next handle of its context. SEAL.UPDATE runs one part and keeps the stream.
SEAL.FINAL runs the last part, gives or checks the tag, replies ST_AUTH_FAIL, DETAIL 0x00B7 on a wrong one, and closes the
stream. SEAL.ABORT drops the stream at once. Where the spec is silent it follows the model's readings in log entries 64 and
120. -/
def Obligations.StreamsRunInOrder : Prop :=
  (∀ (s t : State) (v : Via) (x : Ext) (rt : Route) (arr : Nat × Nat) (p : List Byte),
    let b := p.drop 16
    (∀ aad key,
      let rq := t.request? rt p arr .sealInit x
      let i := ctxOf rq.owner
      let k := fld b 0 2
      let a := ((t.touchKey k).tookIn rq 24).drewDelay
      let h := (t.ctx i).handle
      Arrives s v .sealInit rt p arr t → p.length = 64 → t.pow.drbgStop = false → t.laneInService = true →
      firstFail (sealForm b 5) = none → (at8 b 2 = algCcm ∨ fld b 40 8 = 0) → firstFail (t.dataDesc rq 24) = none →
      (at8 b 2 = algCcm → dataOk (at8 b 2) (at8 b 3) (at8 b 5) (fld b 40 8) = true) →
      firstFail (t.sealKey rq k (at8 b 2) (at8 b 3)) = none → t.streamCount i < 16 → h ≤ 0xFFFF →
      t.cachedKey rq.owner k = some key → k ∉ x.keyErrs → InputIs (t.touchKey k) rq 0 24 aad → x.split = false → x.intact = true →
      ∃ u : State, exec (.sealInit v x) s = .next (u.hold t.evr.next rq (.bulk ⟨rq.owner, k, segments aad.length, 0, .ok, 0,
          be 2 h ++ zeros 2 ++ padTo 16 (a.sealIv b).1, none, [],
          some (Stream.start rq.owner h k key.secret (at8 b 2) (at8 b 3) (at8 b 4) (a.sealIv b).1 aad (fld b 40 8)),
            none⟩)).schedule ∧
        (u.ctx i).handle = h + 1) ∧
    (let rq := t.request? rt p arr .sealAbort x
     let i := ctxOf rq.owner
     Arrives s v .sealAbort rt p arr t → p.length = 24 → zeroAt b 2 6 = true → t.laneInService = true →
      t.streamBusy rq (fld b 0 2) = false →
      Completes (.sealAbort v x) s t rq []
        (t.setCtx i { t.ctx i with streams := (t.ctx i).streams.filter (fun u => u.handle != fld b 0 2) }))) ∧
  (∀ (s t : State) (v : Via) (x : Ext) (rt : Route) (arr : Nat × Nat) (p data : List Byte) (w : Stream) (key : Key),
    let b := p.drop 16
    let h := fld b 0 2
    let a := fun rq => ((t.touchKey w.key).tookIn rq 8).drewDelay
    let r := w.step key.secret data
    t.pow.drbgStop = false → t.laneInService = true → zeroAt b 2 6 = true → w.key ≠ noKeySlot → w.key ∉ x.keyErrs →
    x.split = false → x.intact = true →
    (let rq := t.request? rt p arr .sealUpdate x
     Arrives s v .sealUpdate rt p arr t → p.length = 56 → t.streamBusy rq h = false →
      t.stream (ctxOf rq.owner) h = some w → (w.alg = algCmac → descAbsent b 24 = true) →
      firstFail (t.dataDesc rq 8) = none → firstFail (t.mayDesc rq 24 2) = none →
      firstFail (w.partChecks false (descLen b 8) (descLen b 24)) = none → firstFail (t.partKey rq w) = none →
      t.cachedKey rq.owner w.key = some key → InputIs (t.touchKey w.key) rq 0 8 data →
      exec (.sealUpdate v x) s = .next ((a rq).hold t.evr.next rq (.bulk ⟨rq.owner, w.key, segments data.length, 0, .ok, 0,
        be 4 r.1.length, outAt b 24, r.1, some r.2, none⟩)).schedule) ∧
    (let rq := t.request? rt p arr .sealFinal x
     let ok := !(w.op == 2 && tagged w.alg && r.2.tag key.secret != slice b 40 w.tagLen)
     Arrives s v .sealFinal rt p arr t → p.length = 72 → t.streamBusy rq h = false →
      t.stream (ctxOf rq.owner) h = some w → (w.alg = algCmac → descAbsent b 24 = true) →
      ((w.op = 2 ∧ tagged w.alg = true) ∨ zeroAt b 40 16 = true) →
      firstFail (t.dataDesc rq 8) = none → firstFail (t.mayDesc rq 24 2) = none →
      firstFail (w.partChecks true (descLen b 8) (descLen b 24)) = none → firstFail (t.partKey rq w) = none →
      t.cachedKey rq.owner w.key = some key → InputIs (t.touchKey w.key) rq 0 8 data →
      exec (.sealFinal v x) s = .next ((a rq).hold t.evr.next rq (.bulk ⟨rq.owner, w.key, segments data.length, 0,
        if ok then .ok else .authFail, if ok then 0 else 0x00B7,
        if ok then sealReply r.1.length w.iv (if w.op = 1 then r.2.tag key.secret else []) else [],
        outAt b 24, r.1, none, some w.handle⟩)).schedule))

/-- HASH.DIGEST without a key replies the digest of its input, and with a key the HMAC under it, cut to the asked length.
Where the spec is silent it follows the model's readings in log entry 67. -/
def Obligations.HashDigestGivesTheDigest : Prop :=
  ∀ (s t : State) (v : Via) (x : Ext) (rt : Route) (arr : Nat × Nat) (p data : List Byte) (h : Hash),
    let b := p.drop 16
    let rq := t.request? rt p arr .hashDigest x
    let n := at8 b 4
    Arrives s v .hashDigest rt p arr t → p.length = 104 → Hash.ofAlg (at8 b 0) = some h → at8 b 1 = 1 → zeroAt b 5 3 = true →
    zeroAt b 24 64 = true → hashTagOk h.len (fld b 2 2) n = true → firstFail (t.dataDesc rq 8) = none →
    (fld b 2 2 = 0 → InputIs t rq 0 8 data →
      Completes (.hashDigest v x false) s t rq ([byte n] ++ zeros 3 ++ padTo 64 ((h.digest data).take n)) (t.tookIn rq 8)) ∧
    (∀ key, fld b 2 2 ≠ 0 → t.pow.drbgStop = false →
      firstFail (t.keyChecks rq (fld b 2 2) (fun key => key.may uMac)) = none →
      firstFail (t.typeCheck rq.owner (fld b 2 2) 2) = none → t.cachedKey rq.owner (fld b 2 2) = some key →
      fld b 2 2 ∉ x.keyErrs → InputIs (t.touchKey (fld b 2 2)) rq 0 8 data → x.split = false →
      Completes (.hashDigest v x false) s t rq ([byte n] ++ zeros 3 ++ padTo 64 ((hmac h key.secret data).take n))
        ((t.touchKey (fld b 2 2)).tookIn rq 8).drewDelay)

/-- For every AES key and data, applying the key stream of CTR, of GCM with a 12-byte IV, or of CCM twice gives the data back.
-/
def Obligations.CounterModesUndoThemselves : Prop :=
  ∀ (key iv d : List Byte) (c : Nat), (key.length = 16 ∨ key.length = 24 ∨ key.length = 32) → iv.length ≤ 14 →
    ctrCrypt key c (ctrCrypt key c d) = d ∧ (iv.length = 12 → gcmCrypt key iv (gcmCrypt key iv d) = d) ∧
    ccmCrypt key iv c (ccmCrypt key iv c d) = d

/-- Read as a number in columns of 40 bits: MAC adds the product of a word and up to 16 words, and SHIFT emits the low word
and divides by 2^40, as long as no column passes 96 bits. -/
def Obligations.AccumulatorStepsComputeWithNumbers : Prop :=
  ∀ (m : Mult) (a : Word) (b : List Word),
    let value := fun (acc : List (BitVec 96)) => (acc.zipIdx.map (fun e => e.1.toNat * 2 ^ (40 * e.2))).sum
    let words := (b.zipIdx.map (fun e => e.1.toNat * 2 ^ (40 * e.2))).sum
    m.acc.length = 16 →
    ((b.length ≤ 16 → (∀ j, j < b.length → (m.acc.getD j 0).toNat + a.toNat * (b.getD j 0).toNat < 2 ^ 96) →
      value (m.mac a b).acc = value m.acc + a.toNat * words ∧ (m.mac a b).acc.length = 16) ∧
     ((m.acc.getD 1 0).toNat + (m.acc.getD 0 0).toNat / 2 ^ 40 < 2 ^ 96 →
      value m.acc = 2 ^ 40 * value (m.shift).2.acc + (m.shift).1.toNat ∧ (m.shift).2.acc.length = 16))

/-- A BN command whose references its owner may use is queued with its count of modular multiplications. An access that the rules
refuse when it runs ends it with zeros in its output and nothing else (R189). Otherwise its last boundary
writes the product, the sum, or the result modulo an odd modulus of at least 3 to the output reference, and every word outside
it reads as before. That BN works on numbers is the model's reading (log entry 74). -/
def Obligations.BnCommandsCompute : Prop :=
  (∀ (s t : State) (v : Via) (x : Ext) (rt : Route) (arr : Nat × Nat) (p : List Byte) (o : Op) (c : Instr),
    ((o = .bnMac ∧ c = .bnMac v x) ∨ (o = .bnMul ∧ c = .bnMul v x) ∨ (o = .bnModmul ∧ c = .bnModmul v x) ∨
      (o = .bnModinv ∧ c = .bnModinv v x) ∨ (o = .bnModexp ∧ c = .bnModexp v x)) →
    let b := p.drop 16
    let rq := t.request? rt p arr o x
    Arrives s v o rt p arr t → b.length = 6 * (bnRefs o b).length → (∀ i, i < (bnRefs o b).length →
      refReserved b (6 * i) = false) →
    (∀ r ∈ bnRefs o b, 1 ≤ r.words ∧ r.words ≤ 256) → (∀ r ∈ bnReads o b, t.holdsAll rq.owner .r r = true) →
    t.holdsAll rq.owner .w (bnOut o b) = true → bnLengthOk o b = true → bnOverlap o b = false →
    t.mustWait rq = false →
    StaysInFlight c s t rq (.mult rq.owner (bnCount o b) 0 [] []) { t with mult := { t.mult with gated := false } }) ∧
  (∀ (s : State) (i own : Nat) (l : Live),
    let o := l.rq.op
    let b := l.rq.body
    let v := fun j => s.wmNum (refAt b (6 * j)).addr (refAt b (6 * j)).words
    let out := bnOut o b
    s.multCtx = some i → s.live.find? (Live.onMult i) = some l → l.job = .mult own 1 0 [] [] →
    bnLengthOk o b = true → 1 ≤ out.words → (∀ r ∈ bnRefs o b, r.words ≤ 256) → s.mult.acc.length = 16 →
    (∀ a, out.addr ≤ a → a < out.addr + out.words → s.isGuard a = false ∧ a < 0x40000) →
    (∀ d, s.refused (bnAccesses .sequencer l.rq.owner o b) = some d →
      ∃ u : State, exec (.modularMultiplicationBoundary false none) s = .next u.pump ∧
        (∀ a, out.addr ≤ a → a < out.addr + out.words → u.wmRead a = 0) ∧
        ∀ a, (a < out.addr ∨ out.addr + out.words ≤ a) → u.wmRead a = s.wmRead a) ∧
    (s.refused (bnAccesses .sequencer l.rq.owner o b) = none → (∀ r ∈ bnReads o b,
      (s.meet l.rq.x.bad (bnReads o b)).badWord r = none) →
    (o = .bnMul → ∃ u : State, exec (.modularMultiplicationBoundary false none) s = .next u.pump ∧
      u.wmNum out.addr out.words = v 0 * v 1 ∧ ∀ a, (a < out.addr ∨ out.addr + out.words ≤ a) → u.wmRead a = s.wmRead a) ∧
    (o = .bnMac → ∃ u : State, exec (.modularMultiplicationBoundary false none) s = .next u.pump ∧
      u.wmNum out.addr out.words = (v 2 + v 0 * v 1) % 2 ^ (40 * out.words) ∧
      ∀ a, (a < out.addr ∨ out.addr + out.words ≤ a) → u.wmRead a = s.wmRead a) ∧
    (o = .bnModmul → v 2 % 2 = 1 → 3 ≤ v 2 → v 0 < v 2 → v 1 < v 2 →
      ∃ u : State, exec (.modularMultiplicationBoundary false none) s = .next u.pump ∧
      u.wmNum out.addr out.words = v 0 * v 1 % v 2 ∧ ∀ a, (a < out.addr ∨ out.addr + out.words ≤ a) → u.wmRead a = s.wmRead a) ∧
    (o = .bnModinv → v 1 % 2 = 1 → 3 ≤ v 1 → v 0 < v 1 → v 0 ≠ 0 → Nat.gcd (v 0) (v 1) = 1 →
      ∃ u : State, exec (.modularMultiplicationBoundary false none) s = .next u.pump ∧
      u.wmNum out.addr out.words = invMod (v 0) (v 1) % 2 ^ (40 * out.words) ∧
      ∀ a, (a < out.addr ∨ out.addr + out.words ≤ a) → u.wmRead a = s.wmRead a) ∧
    (o = .bnModexp → v 2 % 2 = 1 → 3 ≤ v 2 → v 0 < v 2 →
      ∃ u : State, exec (.modularMultiplicationBoundary false none) s = .next u.pump ∧
      u.wmNum out.addr out.words = powMod (v 0) (v 1) (v 2) % 2 ^ (40 * out.words) ∧
      ∀ a, (a < out.addr ∨ out.addr + out.words ≤ a) → u.wmRead a = s.wmRead a)))

/-- PK.SIGN, PK.VERIFY, PK.AGREE, PK.ENCRYPT, PK.DECRYPT and PK.LOAD_CURVE that pass their checks stay in flight on the
multiplier with the message and signature they read; under HSS PK.SIGN takes its leaf at once, so leaves go in the order of
acceptance (R382). RNG.DRAW replies as many bytes as asked and takes as many from the DRBG.
Where the spec is silent it follows the model's readings in log entries 8 and 72. -/
def Obligations.PkCommandsAreQueued : Prop :=
  (∀ (s t : State) (v : Via) (x : Ext) (rt : Route) (arr : Nat × Nat) (p : List Byte) (key : Key),
    let b := p.drop 16
    let rq := fun o => t.request? rt p arr o x
    let k := fld b 0 2
    let a := t.touchKey k
    let read := fun o => if pkForm b = 0 then a else a.didInput (rq o) (descAt b 72)
    let woken := fun (u : State) => { u.drewDelay with mult := { u.mult with gated := false } }
    t.cachedKey (rt.tenant.getD 0xFF) k = some key → k ∉ x.keyErrs → x.split = false →
    (∀ msg, Arrives s v .pkSign rt p arr t → firstFail (t.signChecks (rq .pkSign)) = none →
      ((pkForm b = 0 ∧ msg = []) ∨ (pkForm b = 1 ∧ a.input (rq .pkSign) 0 (descAt b 72) = .data msg)) →
      (pkScheme b ≠ 4 →
        StaysInFlight (.pkSign v x) s t (rq .pkSign) (.mult (rq .pkSign).owner 0 0 msg []) (woken (read .pkSign))) ∧
      (pkScheme b = 4 → firstFail key.hss.checks = none → t.signsBefore (rq .pkSign) = false →
        StaysInFlight (.pkSign v x) s t (rq .pkSign)
          (.mult (rq .pkSign).owner 0 0 msg (be 5 key.hss.leaf ++ (read .pkSign).drawBytes 32))
          (woken ((read .pkSign).spendLeaf k key)))) ∧
    (∀ msg, Arrives s v .pkVerify rt p arr t → b.length = 104 + fld b 6 2 → descAbsent b 88 = true →
      firstFail (t.pkChecks (rq .pkVerify) true) = none → fld b 6 2 = t.sigLen key →
      ((pkForm b = 0 ∧ msg = []) ∨ (pkForm b = 1 ∧ a.input (rq .pkVerify) 0 (descAt b 72) = .data msg)) →
      StaysInFlight (.pkVerify v x) s t (rq .pkVerify) (.mult (rq .pkVerify).owner 0 0 msg (b.drop 104)) (woken
        (read .pkVerify))) ∧
    (∀ msg sig, Arrives s v .pkVerify rt p arr t → b.length = 104 → descAbsent b 88 = false → (descAt b 88).len = fld b 6 2 →
      firstFail (t.pkChecks (rq .pkVerify) true) = none → fld b 6 2 = t.sigLen key →
      ((pkForm b = 0 ∧ msg = []) ∨ (pkForm b = 1 ∧ a.input (rq .pkVerify) 0 (descAt b 72) = .data msg)) →
      (read .pkVerify).input (rq .pkVerify) 1 (descAt b 88) = .data sig →
      StaysInFlight (.pkVerify v x) s t (rq .pkVerify) (.mult (rq .pkVerify).owner 0 0 msg sig)
        (woken ((read .pkVerify).didInput (rq .pkVerify) (descAt b 88)))) ∧
    (Arrives s v .pkAgree rt p arr t → 8 ≤ b.length → t.ph.issuing = true → t.pow.drbgStop = false →
      firstFail (t.keyChecks (rq .pkAgree) (fld b 0 2) (fun k => k.may uAgree)) = none →
      b.length = 8 + t.publicLen (rq .pkAgree).owner key.attr.type key.attr.size → fld b 6 2 ≠ 0 →
      (∀ i, i < 16 → bit (fld b 6 2) i = true → i = uDerive ∨ i = uMac) →
      firstFail (t.parentChecks (rq .pkAgree) (fld b 2 2)) = none → fld b 4 2 ≠ 0 →
      firstFail (t.targetChecks (rq .pkAgree).owner (fld b 4 2)) = none →
      StaysInFlight (.pkAgree v x) s t (rq .pkAgree) (.mult (rq .pkAgree).owner 0 (fld b 4 2) [] []) (woken a)) ∧
    (Arrives s v .pkEncrypt rt p arr t → firstFail (t.oaepChecks (rq .pkEncrypt) uEncrypt 0x21) = none →
      fld b 4 2 ≤ key.attr.size / 8 - 2 * (oaepHash b).len - 2 →
      StaysInFlight (.pkEncrypt v x) s t (rq .pkEncrypt) (.mult (rq .pkEncrypt).owner 0 0 [] []) (woken a)) ∧
    (Arrives s v .pkDecrypt rt p arr t → firstFail (t.oaepChecks (rq .pkDecrypt) uDecrypt 0x20) = none →
      fld b 4 2 = key.attr.size / 8 →
      StaysInFlight (.pkDecrypt v x) s t (rq .pkDecrypt) (.mult (rq .pkDecrypt).owner 0 0 [] []) (woken a))) ∧
  (∀ (s t : State) (v : Via) (x : Ext) (rt : Route) (arr : Nat × Nat) (p : List Byte),
    let b := p.drop 16
    (Arrives s v .pkLoadCurve rt p arr t → 20 ≤ at8 b 0 → at8 b 0 ≤ 80 → b.length = 4 + 6 * at8 b 0 → zeroAt b 2 2 = true →
      StaysInFlight (.pkLoadCurve v x) s t (t.request? rt p arr .pkLoadCurve x)
        (.mult (t.request? rt p arr .pkLoadCurve x).owner 0 0 [] []) { t with mult := { t.mult with gated := false } }) ∧
    (Arrives s v .rngDraw rt p arr t → p.length = 18 → 1 ≤ fld b 0 2 → fld b 0 2 ≤ 1024 → t.pow.drbgStop = false →
      ∃ bytes u, bytes.length = fld b 0 2 ∧ u.drawn = t.drawn + fld b 0 2 ∧
        Completes (.rngDraw v x) s t (t.request? rt p arr .rngDraw x) bytes u))

/-- The last boundary clears accumulator and scratch memory, passes the turn and ends the command; an earlier one only counts
down. An HSS signature uses the leaf that its command took, HSS verification replies its verdict, PK.AGREE puts the shared
secret in its slot, and PK.LOAD_CURVE its curve in its place. A fault ends the command with ST_FAULT, DETAIL 0x00C6 and no
result. Where the spec is silent it follows the model's readings in log entry 74. -/
def Obligations.MultiplierCommandsEnd : Prop :=
  (∀ (s : State) (i own left slot : Nat) (msg sig : List Byte) (l : Live) (last : Bool),
    s.multCtx = some i → s.live.find? (Live.onMult i) = some l → l.job = .mult own left slot msg sig →
    let m : Mult := { s.mult with turn := (i + 1) % 65 }
    let w : State := { s with mult := { m with acc := List.replicate 16 0, scratch := [] }, live := s.live.erase l }
    ((left = 1 ∨ (left = 0 ∧ last = true)) → exec (.modularMultiplicationBoundary last none) s =
      .next ((endMult l.rq slot msg sig w).settle s.evr.next l.rq).pump) ∧
    (1 < left → ∃ u : State, exec (.modularMultiplicationBoundary last none) s = .next u.pump ∧ u.mult = m ∧ u.ks = s.ks ∧
      u.wm = s.wm ∧ u.ctxs = s.ctxs ∧ (∃ l' ∈ u.live, l'.rq = l.rq ∧ l'.job = .mult own (left - 1) slot msg sig))) ∧
  (∀ (rq : Rq) (c : Curve) (msg sig : List Byte) (slot : Nat) (s : State),
    let k := fld rq.body 0 2
    (∀ key, (s.slot k).key = some key →
      (rq.op = .pkSign → pkScheme rq.body = 4 → rq.x.misses = 0 → s.dmaStop rq.owner = none →
        let signed := hssSign (key.secret.take 32) (slice key.secret 32 16) (fld sig 0 5) (sig.drop 5) msg
        endMult rq slot msg sig s = .done .ok 0 (be 2 signed.length ++ zeros 2) (s.output rq.owner (descAt rq.body 88) signed)) ∧
      (rq.op = .pkVerify → pkScheme rq.body = 4 → rq.x.misses = 0 → ∃ u, endMult rq slot msg sig s =
        .done .ok 0 ([if hssVerify key.pub msg sig then 1#8 else 2#8] ++ zeros 3) u ∧ u.ks = s.ks) ∧
      (rq.op = .pkAgree → s.curve rq.owner key.attr.size = some c → firstFail (c.pointChecks (rq.body.drop 8)) = none →
        ∀ q, c.mul (c.h * fromBe key.secret) (c.decode (rq.body.drop 8)) = some q →
        ∃ new u, endMult rq slot msg sig s = .done .ok 0 (keyReply slot new) u ∧ (u.slot slot).key = some new ∧
          new.secret = be c.len q.1 ∧ new.attr.usage = fld rq.body 6 2)) ∧
    (rq.op = .pkLoadCurve → ∀ j, s.tryCurve rq.owner rq.body = .new j c →
      ∃ u, endMult rq slot msg sig s = .done .ok 0 (be 2 j) u ∧ u.ks.curves.get none j = some c ∧
        ∀ i, i ≠ j → u.ks.curves.get none i = s.ks.curves.get none i)) ∧
  (∀ (s : State) (i own left slot : Nat) (msg sig : List Byte) (l : Live) (last : Bool) (f : PkFault),
    s.multCtx = some i → s.live.find? (Live.onMult i) = some l → l.job = .mult own left slot msg sig →
    ∃ u : State, exec (.modularMultiplicationBoundary last (some f)) s =
      .next (u.complete l.rq (u.evr.next != s.evr.next) .fault 0x00C6 []).pump)

/-- BOTTOM_TREE_BUILT ends the build of the next bottom tree of an HSS key or of the identity key. DRBG_RESEED at 2^20
requests starts the count again. An entropy test failure whose repetition fails stops the DRBG, halts the module and sets the
indicator to ERROR; one whose repetition passes reseeds. Where the spec is silent it follows the model's readings in log
entries 68 and 124. -/
def Obligations.BackgroundWorkEnds : Prop :=
  ∀ (s : State) (k : Nat) (key : Key),
    (k ≠ 2 → (s.slot k).key = some key → key.attr.type = 0x30 → key.hss.building = true →
      exec (.bottomTreeBuilt k) s = .next (s.setSlot k { s.slot k with
        key := some { key with hss := { key.hss with built := key.hss.built + 1, building := false } } })) ∧
    (s.ks.identity = true → s.ks.hss.building = true → exec (.bottomTreeBuilt 2) s =
      .next { s with ks := { s.ks with hss := { s.ks.hss with built := s.ks.hss.built + 1, building := false } } }) ∧
    (2 ^ 20 ≤ s.pow.drbgReqs → exec .drbgReseed s = .next { s with pow := { s.pow with drbgReqs := 0 } }) ∧
    (s.pow.main = true → s.pow.ready = true → s.pow.drbgStop = false → ∀ test, 1 ≤ test → test ≤ 2 →
      (∃ u, exec (.entropyTestFailure test false) s = .next u ∧ u.pow.drbgStop = true ∧ u.pow.halted = true ∧
        u.pow.approved = 2 ∧ u.ks = s.ks) ∧
      (∃ u, exec (.entropyTestFailure test true) s = .next u ∧ u.pow.drbgStop = false ∧ u.pow.drbgReqs = 0 ∧
        u.pow.halted = s.pow.halted ∧ u.ks = s.ks))

/-- With the loop domain on and the front end sound: LOOP.READ replies the kept result, LOOP.REPORT replies the result that
was kept at its acceptance under the dual signature, LOOP.HART waits and sends its command once the transaction in progress
has ended, LOOP.ASSIGN assigns the loop, and LOOP.POWER completes at once when the domain is as asked and otherwise waits for
the switch. Where the spec is silent it follows the model's readings in log entry 75. -/
def Obligations.LoopCommandsTakeEffect : Prop :=
  ∀ (s t : State) (v : Via) (x : Ext) (rt : Route) (arr : Nat × Nat) (p : List Byte),
    let b := p.drop 16
    let i := at8 b 0
    i < 8 → t.pow.loopFail = false → (∀ l ∈ t.live, l.job ≠ .domainOff 7) →
    (t.pow.loopOn = true → (∀ n, rt.tenant = some n → (t.loop i).slice = n) →
      (∀ r, Arrives s v .loopRead rt p arr t → p.length = 20 → zeroAt b 1 3 = true → t.ph.issuing = true → (t.loop i).wiring ≠ 0 →
        (t.loop i).result = some r →
        Completes (.loopRead v x) s t (t.request? rt p arr .loopRead x) (t.loopBody (t.loop i) i r []) t) ∧
      (∀ r, Arrives s v .loopReport rt p arr t → p.length = 36 → t.ph.issuing = true → t.pow.drbgStop = false → at8 b 1 = 0 →
        fld b 2 2 = 0 → (t.loop i).wiring ≠ 0 → (t.loop i).result = some r →
        firstFail (t.dualChecks (rt.ctx?.getD 66)) = none → x.verify = none → x.misses = 0 →
        let body := t.loopBody (t.loop i) i r (b.drop 4)
        Completes (.loopReport v x) s t (t.request? rt p arr .loopReport x) (body ++ t.dualSign body)
          (t.dualSigned (rt.ctx?.getD 66))) ∧
      (Arrives s v .loopHart rt p arr t → b.length = 4 + at8 b 3 → (t.loop i).wiring ≠ 0 → (t.loop i).hart = true →
        at8 b 1 ≤ 15 → at8 b 2 ∈ passThrough → (∀ l ∈ t.live, l.job ≠ .hart i) →
        StaysInFlight (.loopHart v x) s t (t.request? rt p arr .loopHart x) (.hart i)
          (if (t.loop i).tx.isSome then t else t.sendHart i ⟨at8 b 1, at8 b 2, true⟩ (b.drop 4))) ∧
      (Arrives s v .loopAssign rt p arr t → p.length = 40 → zeroAt b 5 1 = true → zeroAt b 20 4 = true → assignBad b = false →
        Completes (.loopAssign v x) s t (t.request? rt p arr .loopAssign x) []
          ((t.setLoop i ((t.loop i).assign b)).nextHart i))) ∧
    (Arrives s v .loopPower rt p arr t → p.length = 20 → zeroAt b 1 3 = true → at8 b 0 ≤ 1 → t.switching 7 = false →
      (t.pow.loopOn = (at8 b 0 == 1) → Completes (.loopPower v x) s t (t.request? rt p arr .loopPower x) [] t) ∧
      (t.pow.loopOn ≠ (at8 b 0 == 1) → StaysInFlight (.loopPower v x) s t (t.request? rt p arr .loopPower x)
        (if at8 b 0 = 1 then .domainOn 7 else .domainOff 7) (if at8 b 0 = 1 then t else t.dropHart)))

/-- A window that ends keeps the mean of its conversions as its result, opens the next one and leaves other loops alone; a
conversion at the end of the readable range marks it. A threshold becomes active beyond its value and clears at its
hysteresis; value 0 disables it. A HART transaction that ends is followed by the next: the reply of its LOOP.HART, or an
answer that enters its instrument; a burst frame is recorded; a supply at its limit marks the window; a failing front end
stops the measurement and every HART transfer. The layout of HART Command 3 is presumed (log entry 24), the rounding of the
mean is free (log entry 155). -/
def Obligations.LoopEventsTakeEffect : Prop :=
  (∀ (s : State) (i st : Nat) (c : Int) (cs : List Int), (s.loop i).start = some st → s.measured i = true →
    st + (s.loop i).window ≤ s.ph.c → (c :: cs).length = 64 * (s.loop i).window →
    let mean := meanOf (c :: cs)
    ∃ u r, exec (.loopWindowEnd i c cs) s = .next u ∧ (u.loop i).result = some r ∧ r.current = mean ∧ r.start = st ∧
      (bit r.flags 6 = true ↔ (s.loop i).satur = true ∨ ∃ d ∈ c :: cs, (s.loop i).top ≤ d) ∧
      r.window = (s.loop i).window ∧ (u.loop i).start = some (st + (s.loop i).window) ∧
      (u.loop i).lowOn = (s.loop i).lowNext mean ∧ (u.loop i).highOn = (s.loop i).highNext mean ∧
      (∀ j, j ≠ i → u.loop j = s.loop j)) ∧
  (∀ convs : List Int, convs ≠ [] → (∃ m, convs.sum = m * convs.length) → meanOf convs * convs.length = convs.sum) ∧
  (∀ (l : Loop) (mean : Int),
    (0 < l.low → l.lowOn = false → (l.lowNext mean = true ↔ mean < l.low)) ∧
    (0 < l.low → l.lowOn = true → (l.lowNext mean = false ↔ (l.low : Int) + l.hyst ≤ mean)) ∧
    (0 < l.high → l.highOn = false → (l.highNext mean = true ↔ (l.high : Int) < mean)) ∧
    (0 < l.high → l.highOn = true → (l.highNext mean = false ↔ mean ≤ (l.high : Int) - l.hyst)) ∧
    (l.low = 0 → l.lowNext mean = false) ∧ (l.high = 0 → l.highNext mean = false)) ∧
  (∀ (s : State) (i : Nat), i < 8 →
    (∀ l w a c e, (s.loop i).tx = some ⟨a, c, true⟩ → (s.loop i).scans a = false →
      (s.setLoop i { s.loop i with tx := none }).takeLive (fun l => l.job == .hart i) = some (l, w) →
      exec (.hartTransaction i a c e) s = .next ((w.complete l.rq false .ok 0 (hartReply e)).nextHart i)) ∧
    (∀ a st data, (s.loop i).tx = some ⟨a, 3, false⟩ → (s.loop i).scans a = true →
      ∃ u : State, exec (.hartTransaction i a 3 (.answer 3 st data)) s = .next (u.nextHart i) ∧ (u.loop i).tx = none ∧
        ∃ uid, ((u.loop i).insts.find? (fun e => e.addr == a)) =
          some ⟨a, st.toNat, at8 data 4, fld data 5 4, fld data 0 4, true, s.ph.c, 0, uid⟩) ∧
    (∀ a c e, (∀ t, (s.loop i).tx = some t → t.addr ≠ a ∨ t.command ≠ c) →
      exec (.hartTransaction i a c e) s = .next s) ∧
    (∀ a, s.measured i = true → (s.loop i).hart = true →
      exec (.hartBurstFrame i a) s = .next (s.event 0x0A06 0xFE [byte i, byte a, 2#8])) ∧
    (s.measured i = true → (s.loop i).wiring = 1 → ∃ u, exec (.loopSupplyLimit i) s = .next u ∧ (u.loop i).satur = true ∧
      (u.loop i).events = setBit (s.loop i).events 3 true) ∧
    (s.pow.loopOn = true → s.pow.loopFail = false → ∃ u, exec .loopFrontEndFault s = .next u ∧ u.pow.loopFail = true ∧
      (∀ j, j < 8 → (u.loop j).start = none ∧ (u.loop j).tx = none) ∧ ∀ l ∈ u.live, ∀ j, l.job ≠ .hart j))

/-- STAMP.REPORT, ATTEST.DEVICE and ATTEST.KEY reply the body that the spec lays out followed by the dual signature over it,
and use one leaf of the identity key. A signature that fails its verification inside the module (R373, R383) is not released:
the leaf stays used, EV_PK_FAULT is recorded and the reply is ST_FAULT. Where the spec is silent it follows the model's
readings in log entry 11. -/
def Obligations.StatementsCarryTheDualSignature : Prop :=
  ∀ (s t : State) (v : Via) (x : Ext) (rt : Route) (arr : Nat × Nat) (p : List Byte),
    let b := p.drop 16
    let signed := fun body => body ++ t.dualSign body
    let own := rt.tenant.getD 0xFF
    let after := t.dualSigned (rt.ctx?.getD 66)
    t.ph.issuing = true → t.pow.drbgStop = false → firstFail (t.dualChecks (rt.ctx?.getD 66)) = none → x.misses = 0 →
    (x.verify = none → (Arrives s v .stampReport rt p arr t → p.length = 36 → at8 b 0 = 0 → at8 b 1 = 0 → fld b 2 2 = 0 →
      Completes (.stampReport v x) s t (t.request? rt p arr .stampReport x) (signed (t.stampBody own (b.drop 4))) after) ∧
    (Arrives s v .attestDevice rt p arr t → p.length = 52 → t.tam.life ≠ .decommissioned → zeroAt b 17 3 = true → at8 b 16 = 0 →
      descAbsent b 20 = true →
      Completes (.attestDevice v x) s t (t.request? rt p arr .attestDevice x) (signed (t.deviceBody t.vpCfgs (b.take 16))) after) ∧
    (∀ key, Arrives s v .attestKey rt p arr t → p.length = 36 → zeroAt b 2 2 = true → t.keyFor own (fld b 0 2) = some key →
      firstFail (t.keyChecks (t.request? rt p arr .attestKey x) (fld b 0 2) (fun _ => true)) = none →
      Completes (.attestKey v x) s t (t.request? rt p arr .attestKey x) (signed (t.provenance (fld b 0 2) key
        (b.drop 4))) after)) ∧
    (∀ kat, x.verify = some kat → x.intact = true → Arrives s v .stampReport rt p arr t → p.length = 36 → at8 b 0 = 0 →
      at8 b 1 = 0 →
      fld b 2 2 = 0 → ∃ u, exec (.stampReport v x) s = .next (u.complete (t.request? rt p arr .stampReport x)
        (u.evr.next != t.evr.next) .fault 0x00C6 []) ∧ u = after.pkFault (t.request? rt p arr .stampReport x) 1 kat)

/-- From a state with the leaf at or below NEXT whose checks pass, a signature moves the leaf up by one, keeps it at or below
NEXT, never lowers NEXT, and leaves NEXT alone inside the reserved block. -/
def Obligations.NoLeafIsUsedTwice : Prop :=
  ∀ h : Hss, h.leaf ≤ h.next → firstFail h.checks = none → h.use.leaf = h.leaf + 1 ∧ h.use.leaf ≤ h.use.next ∧
    h.next ≤ h.use.next ∧
    h.use.lost = false ∧ (h.leaf < h.next → h.use.next = h.next)

/-- A lane domain switches off drained, and on into RETIRED or, on a failing test, stays as it was; its request ends.
SHUTDOWN_WARNING persists the stamp and keeps keys and requests. MAIN_POWER_LOST forgets records, requests, memory and key
cache and keeps keys and life cycle. MAIN_POWER_UP starts the active bank and counts the ticks. MODULE_READY ends a start, and
a pending image then raises the floor. Where the spec is silent it follows the model's readings in log entries 46, 55 and 56.
-/
def Obligations.PowerAndDomainsSwitch : Prop :=
  (∀ (s : State) (d : Nat) (l : Live), 2 ≤ d → d ≤ 5 → s.switchOf d = some l →
    (l.job = .domainOff d → (s.lane (d - 2)).on = true → (s.lane (d - 2)).st = .retired →
      ∃ u, exec (.domainSwitchOffComplete d) s = .next u ∧ (u.lane (d - 2)).on = false ∧ u.live.length < s.live.length) ∧
    (l.job = .domainOn d → (s.lane (d - 2)).on = false →
      ∃ u, exec (.domainSwitchOnComplete d true) s = .next u ∧ (u.lane (d - 2)).on = true ∧ (u.lane (d - 2)).st = .retired ∧
        u.live.length < s.live.length) ∧
    (l.job = .domainOn d → (s.lane (d - 2)).on = false →
      ∃ u, exec (.domainSwitchOnComplete d false) s = .next u ∧ u.lane (d - 2) = s.lane (d - 2) ∧ u.live.length < s.live.length)) ∧
  (∀ (s : State) (n : Nat),
    (s.pow.main = true → s.pow.warned = false → s.ph.issuing = true → ∃ u, exec (.shutdownWarning n) s = .next u ∧
      u.pow.warned = true ∧ u.ph.cp = s.ph.c ∧ u.ph.tp = s.ph.ticks + n ∧ u.ks = s.ks ∧ u.live = s.live) ∧
    (s.pow.main = true → ∃ u, exec .mainPowerLost s = .next u ∧ u.pow.main = false ∧ u.pow.ready = false ∧ u.live = [] ∧
      u.recs = [] ∧ u.wm.cells = [] ∧ u.ks.cache = [] ∧ u.ks.slots = s.ks.slots ∧ u.tam.life = s.tam.life) ∧
    (s.pow.main = false → s.pow.pendBank = none → s.pow.bankOk s.pow.active = true →
      (s.pow.bankAt s.pow.active).version = 0x0302 → s.tam.decom = none → ∃ u,
      exec (.mainPowerUp ⟨n, true, [], [], [], [], []⟩) s = .next u ∧ u.pow.main = true ∧ u.pow.ready = false ∧
        u.pow.starting = some 0 ∧
      u.pow.running = s.pow.active ∧ u.pow.selftest = 0 ∧ u.tam.life = s.tam.life ∧ u.ph.ticks = s.ph.ticks + n)) ∧
  (∀ (s : State) (k : Nat), s.pow.main = true → s.pow.starting = some k → k ≠ 0 → s.pow.halted = false →
    (s.pow.pendBank = none → ∃ u, exec .moduleReady s = .next u ∧ u.pow.ready = true ∧ u.pow.starting = none ∧
      u.pow.floor = s.pow.floor ∧ u.pow.active = s.pow.active) ∧
    (∀ b, s.pow.pendBank = some b → s.pow.floor < (s.pow.bankAt b).floor → s.pow.rises < 255 →
      ∃ u, exec .moduleReady s = .next u ∧ u.pow.ready = true ∧ u.pow.floor = (s.pow.bankAt b).floor ∧ u.pow.active = b ∧
        u.pow.pendBank = none ∧ u.pow.rises = s.pow.rises + 1))

/-- A device reset ends every request, keeps CONFIRMED and OFFERED records, advances every epoch, keeps keys and life cycle,
and leaves the module starting. It stops the model only where a bank holds firmware that R17 leaves ungoverned. A function
level reset ends the host port's requests, resets rings and credits, advances the epochs of slices and manager but not of
CONSOLE, and keeps keys and life cycle. Where the spec is silent it follows the model's readings in log entries 36, 52 and 57.
-/
def Obligations.ResetsClearTheModule : Prop :=
  (∀ s : State, s.pow.main = true → s.pow.warned = false → s.pow.ready = true → s.pow.halted = false → s.pow.pendBank = none →
    s.pow.bankOk s.pow.active = true → (s.pow.bankAt s.pow.active).version = 0x0302 →
    (s.pow.armed = some 4 → ∃ u, exec (.deviceReset 4 []) s = .next u ∧ u.live = [] ∧
      u.recs = s.recs.filter (fun r => r.st == .confirmed || r.st == .offered) ∧
      (∀ i, i < 66 → (u.ctx i).epoch = nextEpoch (s.ctx i).epoch ∧ (u.ctx i).cache = [] ∧ (u.ctx i).credits = 32) ∧
      u.pow.ready = false ∧ u.pow.starting = some 4 ∧ u.pow.armed = none ∧ u.tam.life = s.tam.life ∧
      (∀ k, (u.slot k).key = (s.slot k).key)) ∧
    (∃ u, exec (.deviceReset 6 []) s = .next u ∧ u.live = [] ∧ u.pow.starting = some 6 ∧ u.pow.ready = false)) ∧
  (∀ (s : State) (f : Fault), exec (.deviceReset 6 []) s = .fault f →
    f = .ungovernedFirmware ∧ ((s.pow.bankAt 0).version ≠ 0x0302 ∨ (s.pow.bankAt 1).version ≠ 0x0302)) ∧
  (∀ (s : State) (cause : Nat), s.pow.main = true → s.pow.warned = false → 1 ≤ cause → cause ≤ 3 →
    (∀ l ∈ s.live, ∀ n, l.job ≠ .sliceReset n) →
    ∃ u, exec (.functionLevelReset cause) s = .next u ∧ (∀ l ∈ u.live, l.rq.fromHost = false) ∧
      (∀ i, i < 65 → (u.ctx i).epoch = nextEpoch (s.ctx i).epoch ∧ (u.ctx i).sq = .init ∧ (u.ctx i).credits = 32) ∧
      u.ctx 65 = s.ctx 65 ∧ u.hp.valid = false ∧ u.ks.slots = s.ks.slots ∧ u.ks.cache = [] ∧ u.tam.life = s.tam.life)

/-- A doorbell within an enabled ring moves its index, one beyond it or on a disabled ring only sets DB_ERR. A submission ring
that is off takes its size and starts empty; an enabled reply ring takes ENABLE only. -/
def Obligations.DoorbellsMoveTheIndices : Prop :=
  ∀ (s : State) (o : Owner) (n : Nat), s.hostOn = true → ownerOk o = true →
    let i := ownerIdx o
    let c := s.ctx i
    (c.sq.enable = true → diff16 (n % 65536) c.sq.tail ≤ c.sq.size - diff16 c.sq.tail c.sq.head →
      exec (.sqTail o n) s = .next (s.setCtx i { c with sq := { c.sq with tail := n % 65536 } })) ∧
    ((c.sq.enable = false ∨ c.sq.size - diff16 c.sq.tail c.sq.head < diff16 (n % 65536) c.sq.tail) →
      exec (.sqTail o n) s = .next (s.setCtx i { c with dbErr := true })) ∧
    (c.cq.enable = true → diff16 (n % 65536) c.cq.head ≤ diff16 c.cq.tail c.cq.head →
      exec (.cqHead o n) s = .next (s.setCtx i { c with cq := { c.cq with head := n % 65536 } })) ∧
    ((c.cq.enable = false ∨ diff16 c.cq.tail c.cq.head < diff16 (n % 65536) c.cq.head) →
      exec (.cqHead o n) s = .next (s.setCtx i { c with dbErr := true })) ∧
    (∀ v : BitVec 64, c.sq.enable = false → v.getLsbD 4 = true → s.ringPasid i = true → 4 ≤ regFld v 0 4 → regFld v 0 4 ≤ 10 →
      exec (.sqCfg o false v) s =
        .next (s.setCtx i { c with sq := { c.sq with sizeLog2 := regFld v 0 4, enable := true, head := 0, tail := 0 } })) ∧
    (∀ v : BitVec 64, c.cq.enable = true → exec (.sqCfg o true v) s =
      .next (s.setCtx i { c with cq := { c.cq with enable := v.getLsbD 4 } }))

/-- A submission entry is read at BASE + 32 * (HEAD mod size) under PASID index 0. A well-formed one advances HEAD, takes a
credit and brings the packet read at REQ_ADDR under its index, stamped with its arrival; one that breaks R154 is answered. A
written reply advances TAIL and returns its credit; other contexts, keys and tamper state are unchanged. An entry that cannot
be read halts its ring, a packet that cannot be read is answered. Where the spec is silent it follows the model's readings in
log entries 89 and 90. -/
def Obligations.RingsAreServed : Prop :=
  (∀ (s : State) (o : Owner) (e p : List Byte), s.fetches o = true → s.dmaStop (ownerIdx o) = none → e.length = 32 →
    let i := ownerIdx o
    let c := s.ctx i
    (firstFail (entryChecks e (s.indices i)) = none → p.length = fldLe e 8 2 →
      let r := s.dmaRead (s.pasidOf i 0) (c.sq.base + 32 * (c.sq.head % c.sq.size)) 32
      let u := (r.setCtx i c.takeEntry).dmaRead (s.pasidOf i (at8 e 12)) (fldLe e 0 8) p.length
      exec (.ringEntryFetch o e p) s = .next (u.setCtx i { c.takeEntry with
        inbox := c.inbox ++ [⟨c.sq.head, fldLe e 16 8, fldLe e 10 2, at8 e 12, p, s.ph.c, s.ph.phi⟩] })) ∧
    (∀ st d, firstFail (entryChecks e (s.indices i)) = some (st, d) →
      ∃ u, exec (.ringEntryFetch o e p) s = .next u ∧ (u.ctx i).inbox = c.inbox ∧ (u.ctx i).sq.head = (c.sq.head + 1) % 65536 ∧
        (u.ctx i).outbox.length = c.outbox.length + 1)) ∧
  (∀ (s : State) (o : Owner) (d : Done) (r : List Done), s.nextReply o = some d → s.dmaStop (ownerIdx o) = none →
    (s.ctx (ownerIdx o)).outbox = d :: r →
    let i := ownerIdx o
    let c := s.ctx i
    ∃ u, exec (.replyEntryWrite o ⟨none, [], none⟩) s = .next u ∧ (u.ctx i).outbox = r ∧
      (u.ctx i).cq.tail = (c.cq.tail + 1) % 65536 ∧ (u.ctx i).credits = (if d.credit then min 32 (c.credits + 1) else c.credits) ∧
      (∀ j, j ≠ i → j ≠ 64 → u.ctx j = s.ctx j) ∧ u.ks = s.ks ∧ u.tam = s.tam) ∧
  (∀ (s : State) (o : Owner) (e : DmaErr), s.fetches o = true → s.dmaStop (ownerIdx o) = none →
    let i := ownerIdx o
    (∃ u, exec (.dmaReadFailure (.ringFetch o) e) s = .next u ∧ (u.ctx i).halt = true ∧ (u.ctx i).dmaErr = true ∧
      (u.ctx i).inbox = (s.ctx i).inbox ∧ (u.ctx i).credits = (s.ctx i).credits) ∧
    (∀ entry : List Byte, entry.length = 32 → firstFail (entryChecks entry (s.indices i)) = none →
      ∃ u, exec (.dmaReadFailure (.packet o entry) e) s = .next u ∧ (u.ctx i).inbox = (s.ctx i).inbox ∧
        (u.ctx i).outbox.length = (s.ctx i).outbox.length + 1))

/-- MGR_EVENT bits clear by writing one, a message behind a mask is sent when it opens. Dirty-page maps take control writes; a
swap reads each marked word of the buffer and writes it back with its bits set, and an ENABLE cleared meanwhile clears after it.
A write marks every page of the window that it touches, and one outside the window or under another index marks all. DMA writes
are split at 4 KiB boundaries and at 256 bytes. The oldest pending write ends; a power state is taken; a lost link takes the
writes with it, and a new link takes its rate and width. Where the spec is silent it follows log entries 128, 135 and 136. -/
def Obligations.HostPortEventsTakeEffect : Prop :=
  (∀ s : State, s.hostOn = true →
    (∀ v : BitVec 64, s.hp.further = 0 → ∃ u, exec (.mgrEvent v) s = .next u ∧
      (∀ i, i < 7 → bit u.hp.causes i = (bit s.hp.causes i && !v.getLsbD i)) ∧ u.ctxs = s.ctxs ∧ u.out = s.out) ∧
    (∀ n, n < 72 → ∃ u, exec (.msixUnmask n) s = .next u ∧ n ∉ u.hp.masked ∧ n ∉ u.hp.msixPend ∧
      (n ∈ s.hp.msixPend → u.out = s.out ++ [.msix n]) ∧ (n ∉ s.hp.msixPend → u.out = s.out))) ∧
  (∀ (s : State) (n : Nat), s.hostOn = true → n < 64 →
    (∀ v : BitVec 64, v.getLsbD 2 = false → exec (.dpmEnable n v) s = .next (s.setDpm n ((s.dpm n).control v))) ∧
    ((s.dpm n).swapDone = false → (s.dpm n).swapping = false →
      exec (.dpmSwap n) s = .next (s.setDpm n { s.dpm n with swapping := true })) ∧
    (∀ maps : List Dma, (s.dpm n).swapping = true → s.hp.d3hot = false → s.dmaStop 64 = none → (s.dpm n).buffer % 4096 = 0 →
      (∀ m ∈ maps, ∃ bs, m = .data bs) → ∃ u, exec (.dpmSwapDone ⟨n, maps⟩) s = .next u ∧
      (u.dpm n).active = !(s.dpm n).active ∧ (u.dpm n).swapDone = true ∧ (u.dpm n).swapping = false ∧ (u.dpm n).marks = [] ∧
      (u.dpm n).enable = ((s.dpm n).enable && !(s.dpm n).closing) ∧
      ∀ p ∈ (s.dpm n).marks, ∃ bs, Out.dma s.hp.pasid ((s.dpm n).buffer + 8 * (p / 64)) bs ∈ u.out ∧ bs.length = 8 ∧
        bit (fromLe bs) (p % 64) = true)) ∧
  (∀ (d : Dpm) (v : BitVec 64), d.enable = true → d.swapping = true → v.getLsbD 0 = false →
    (d.control v).enable = true ∧ (d.control v).swapped.enable = false) ∧
  (∀ (pasid addr : Nat) (bs : List Byte) (s : State), ∃ l, (s.dmaWrite pasid addr bs).out = s.out ++ l ∧ ∀ o ∈ l, ∃ a b,
    o = .dma pasid a b ∧ 0 < b.length ∧ b.length ≤ 256 ∧ a / 4096 = (a + b.length - 1) / 4096 ∧ addr ≤ a ∧
      b = slice bs (a - addr) b.length) ∧
  (∀ (d : Dpm) (addr len : Nat), d.enable = true → 0 < len → d.win % 4096 = 0 →
    (∀ a, addr ≤ a → a < addr + len → d.win ≤ a → a < d.win + 4096 * d.pages → (a - d.win) / 4096 ∈ (d.write 0 addr len).marks) ∧
    (addr < d.win → (d.write 0 addr len).allDirty = true) ∧
    (d.win + 4096 * d.pages < addr + len → (d.write 0 addr len).allDirty = true) ∧
    (∀ i, i ≠ 0 → (d.write i addr len).allDirty = true)) ∧
  (∀ s : State, s.pow.main = true →
    (∀ n w r, n < 64 → (s.ctx n).pw = w :: r →
      exec (.pendingWriteComplete n none) s = .next ((s.setCtx n { s.ctx n with pw := r }).drain n).pump) ∧
    (s.hp.linkUp = true → exec (.powerStateChange true) s = .next { s with hp := { s.hp with d3hot := true } }) ∧
    (s.hp.linkUp = true →
      exec (.powerStateChange false) s = .next ({ s with hp := { s.hp with d3hot := false } } : State).drainAll.sendPending.pump) ∧
    (s.hp.linkUp = true → ∃ u : State, exec .linkLoss s = .next u.pump ∧ u.hp.linkUp = false ∧
      (∀ n, n < 65 → (u.ctx n).pw = [] ∧ (u.ctx n).stalled = []) ∧ u.ks = s.ks) ∧
    (∀ r w, s.hp.linkUp = false → 1 ≤ r → r ≤ 4 → (w = 1 ∨ w = 2 ∨ w = 4) →
      ∃ u, exec (.hostLinkUp r w) s = .next u ∧ u.hp.linkUp = true ∧ u.hp.rate = r ∧ u.hp.width = w ∧ u.ctxs = s.ctxs))

/-- A register with a row of its own is written with that row's effect. MGR_PASID, EVR_NOTICE and IRQ_EN take their fields,
and MGR_PASID and EVR_NOTICE read back. A misaccess of an assigned register sets ACCESS_ERR, a write to a push window that is
no 64-byte packet sets PW_ERR. Where the spec is silent it follows the model's readings in log entry 91. -/
def Obligations.RegisterWritesTakeTheirFields : Prop :=
  (∀ (s : State) (v : BitVec 64), s.hostOn = true →
    exec (.registerWrite 0 0x110 8 v) s = exec (.sqTail .mgr (regFld v 0 16)) s ∧
    exec (.registerWrite 0 0x38 8 v) s = exec (.mgrEvent v) s ∧
    exec (.registerWrite 0 0x30 8 v) s = .next { s with hp := { s.hp with pasid := regFld v 0 20, valid := v.getLsbD 20 } } ∧
    exec (.registerWrite 0 0x5010 8 v) s = .next { s with evr := { s.evr with notice := regFld v 1 13 } } ∧
    exec (.registerWrite 0 0x08 8 v) s = .next (s.setCtx 64 { s.ctx 64 with irqEn := v.getLsbD 0 }) ∧
    exec (.registerWrite 0 0x30 4 v) s = .next (s.setCtx 64 { s.ctx 64 with accessErr := true }) ∧
    (∀ n, n < 64 → exec (.registerWrite 2 (n * 0x1000 + 0x170) 8 v) s = .next (s.setCtx n { s.ctx n with irqEn := v.getLsbD 0 }) ∧
      exec (.registerWrite 2 (n * 0x1000 + 0x10) 8 v) s = .next (s.setCtx n { s.ctx n with pwErr := true }))) ∧
  (∀ (s u : State) (v : BitVec 64), s.hostOn = true →
    (exec (.registerWrite 0 0x30 8 v) s = .next u → regFld (u.readReg 0 0x30 8) 0 21 = regFld v 0 21) ∧
    (exec (.registerWrite 0 0x5010 8 v) s = .next u → regFld (u.readReg 0 0x5010 8) 1 13 = regFld v 1 13))

/-- A character that completes while its queue has room joins it, and no other port changes. While the queue is full: under
KEEP_OLD the new character is discarded and OVERRUN is set in the last queued entry, under OVERWRITE_LAST the new character
replaces the last queued entry with OVERRUN set, and OVERRUNS counts up to its 16 bits. The defaults are KEEP_OLD on CARD A
and CARD B and OVERWRITE_LAST on CONSOLE. On a T=0 card port a character of wrong parity is not queued but asked for again, up
to four times, and a start bit without the start level is no character. -/
def Obligations.ReceivedCharactersAreQueued : Prop :=
  (∀ (s : State) (q : Serial) (start : Samples) (rest : List Samples), s.pow.main = true →
    (q = .console ∨ (s.serial q).powered = true) →
    let bits := start :: rest
    let e := queueEntry q (s.serial q).inverse bits
    (levelOf bits 0 = true → exec (.receivedCharacter q start rest) s = .next s) ∧
    (levelOf bits 0 = false → q ≠ .console → (s.serial q).repeats e = true → exec (.receivedCharacter q start rest) s =
      .next ((s.setSerial q { s.serial q with reps := (s.serial q).reps + 1 }).emit (.cardError q))) ∧
    (levelOf bits 0 = false → (q = .console ∨ (s.serial q).repeats e = false) →
      ((s.serial q).queue.length < queueSize q →
        ∃ u, exec (.receivedCharacter q start rest) s = .next u ∧ (u.serial q).queue = (s.serial q).queue ++ [e] ∧
          (u.serial q).overruns = (s.serial q).overruns ∧ ∀ r, r ≠ q → u.serial r = s.serial r) ∧
      ((s.serial q).queue.length = queueSize q →
        ∃ u last, exec (.receivedCharacter q start rest) s = .next u ∧
          (u.serial q).queue = (s.serial q).queue.take (queueSize q - 1) ++ [last ||| 0x0800#16] ∧
          (bit s.cus.policy (policyBit q) = false → (s.serial q).queue[queueSize q - 1]? = some last) ∧
          (bit s.cus.policy (policyBit q) = true → last = e) ∧
          (u.serial q).overruns = min ((s.serial q).overruns + 1) 65535))) ∧
  bit State.reset.cus.policy (policyBit .cardA) = false ∧ bit State.reset.cus.policy (policyBit .cardB) = false ∧
    bit State.reset.cus.policy (policyBit .console) = true

/-- SYS.INFO, STAMP.READ and LOG.READ answer on a port what they answer elsewhere. VP.OPEN opens a session with a drawn number
and drops what was held, VP.RESYNC takes up the named session, and the other port is unchanged. VP.POLL answers its slot and
index, and holds the answer of a slot about to open, which HELD_POLL_RESPONSE then gives. Where the spec is silent it follows
the model's readings in log entries 93, 95 and 96. -/
def Obligations.VitalPortsCarryCommands : Prop :=
  (∀ (s t : State) (p : Port) (f : Frame) (x : Ext), x.late = false → x.intact = true →
    (FrameRuns s p f .sysInfo t → CompletesOnPort (.sysInfo (.vital p f) x) s p f .sysInfo t.infoPayload t) ∧
    (FrameRuns s p f .stampRead t → CompletesOnPort (.stampRead (.vital p f) x) s p f .stampRead
      ([byte t.ph.st.code, byte t.ph.band] ++ be 2 t.ph.freq ++ be 5 (if t.ph.resumed then t.ph.resume else 0) ++ zeros 3
        ++ t.ph.stamp) t) ∧
    (FrameRuns s p f .logRead t → f.bytes.length = 64 → zeroAt f.bytes 16 2 = true → 1 ≤ at8 f.bytes 15 → at8 f.bytes 15 ≤ 125 →
      CompletesOnPort (.logRead (.vital p f) x) s p f .logRead (t.logPayload (fld f.bytes 10 5) (at8 f.bytes 15)) t)) ∧
  (∀ (s t : State) (p : Port) (f : Frame) (x : Ext), x.late = false → x.intact = true → f.bytes.length = 64 →
    (FrameRuns s p f .vpOpen t → t.ph.issuing = true → t.pow.drbgStop = false →
      ∃ u, exec (.vpOpen (.vital p f) x) s = .next u ∧ (u.vp p).session = .open' ∧ (u.vp p).number = fromBe (t.drawBytes 4) ∧
        (u.vp p).last = fld f.bytes 2 2 ∧ (u.vp p).misses = 0 ∧ (u.vp p).held = none ∧ (u.vp p).ready = none ∧
        (∀ l ∈ u.live, ∀ a, l.rq.route ≠ .vital p a) ∧ (∀ q, q ≠ p → u.vp q = s.vp q)) ∧
    (FrameRuns s p f .vpResync t → t.ph.issuing = true → fld f.bytes 10 4 = (t.vp p).number →
      ∃ u, exec (.vpResync (.vital p f) x) s = .next u ∧ (u.vp p).session = .open' ∧ (u.vp p).number = (s.vp p).number ∧
        (u.vp p).last = fld f.bytes 2 2 ∧ (u.vp p).misses = 0 ∧ ∀ q, q ≠ p → u.vp q = s.vp q)) ∧
  ((∀ (s t : State) (p : Port) (f : Frame) (x : Ext),
    let slot := fld f.bytes 10 6
    let index := fld f.bytes 16 2
    let w := t.setVp p { t.vp p with pollSlot := slot, pollValid := true, reply := none }
    FrameRuns s p f .vpPoll t → x.intact = true → f.bytes.length = 64 → t.ph.issuing = true → slot < 2 ^ 46 → index ≤ 1023 →
    (t.ph.opensSoon slot = false →
      exec (.vpPoll (.vital p f) ⟨x, none⟩) s = .next (w.answerFrame p true (w.pollResponse p slot index (fld f.bytes 2 2)))) ∧
    (t.ph.opensSoon slot = true →
      exec (.vpPoll (.vital p f) ⟨x, none⟩) s = .next (t.setVp p { t.vp p with
        pollSlot := slot, pollValid := true, reply := none, held := some (slot, index, fld f.bytes 2 2) }))) ∧
  (∀ (s : State) (p : Port) (slot index alive : Nat), (s.vp p).held = some (slot, index, alive) →
    (slot ≤ s.ph.slot → exec (.heldPollResponse ⟨p, none⟩) s =
      .next ((s.setVp p { s.vp p with held := none }).answerFrame p true (s.pollResponse p slot index alive))) ∧
    (s.ph.slot < slot → exec (.heldPollResponse ⟨p, none⟩) s = .next s)))

/-- IDLE takes a ready reply or answers NONE, FETCH gives a part of the last reply. A frame that starts while RDY is low, or
in the ordinary stretch after a frame, shifts out zeros and counts, an unfinished one is ignored, and the third ignored in a
row loses an OPEN session and fires vector 71. A retransmission sends the stored response again with RETX. A late reply
becomes ready. VIO is followed. Where the spec is silent it follows the model's readings in log entries 92, 94, 152 and 153.
-/
def Obligations.FramesThatRunNoCommand : Prop :=
  (∀ (s t : State) (p : Port) (f : Frame), s.rdyHigh p = true → (s.vp p).vio = true →
    (((s.vp p).mode ≠ .guarded ∧ t = s.begun p f) ∨ ((s.vp p).mode = .guarded ∧ (s.vp p).session = .open' ∧ 1 ≤ (s.vp p).ahead f ∧
      (s.vp p).ahead f ≤ 3 ∧ t = (s.begun p f).setVp p (((s.begun p f).vp p).advance (fld f.bytes 2 2) ((s.vp p).ahead f))) ∨
      ((s.vp p).mode = .guarded ∧ (s.vp p).session ≠ .open' ∧ (s.vp p).kind f = .idle ∧ t = s.begun p f)) →
    firstFail ((t.vp p).frameChecks f) = none →
    ((s.vp p).kind f = .idle → zeroAt f.bytes 6 4 = true → (t.vp p).ready = none →
      exec (.idleFrame p f) s = .next (t.answerFrame p true (t.noneResponse p))) ∧
    (∀ r, (s.vp p).kind f = .idle → zeroAt f.bytes 6 4 = true → (t.vp p).ready = some r → exec (.idleFrame p f) s =
      .next ((t.setVp p { t.vp p with ready := none }).answerFrame p true (r.part 0 r.alive))) ∧
    (∀ r o, (s.vp p).kind f = .fetch → t.portPending p = false → Op.ofCode (fld f.bytes 6 2) = some o →
      firstFail (t.portChecks (.vital p (fld f.bytes 2 2)) p o) = none → (t.vp p).reply = some r → fld f.bytes 8 2 < r.parts →
      exec (.fetch p f) s = .next (t.answerFrame p true (r.part (fld f.bytes 8 2) (fld f.bytes 2 2))))) ∧
  (∀ (s : State) (p : Port), (s.vp p).vio = true →
    (s.pow.main = true → (s.rdyHigh p = false ∨ (s.vp p).stretch = true) → ∃ u, exec (.vpFrameUnstarted p) s = .next u ∧
      (u.vp p).ignored = min ((s.vp p).ignored + 1) 65535 ∧ (u.vp p).badPrev = true ∧ u.out = s.out ++ [.vital p (zeros 64)] ∧
      (u.vp p).session = (s.vp p).session) ∧
    (s.rdyHigh p = true → (s.vp p).mode = .guarded → (s.vp p).session = .open' → (s.vp p).misses < 2 →
      ∀ clk, ∃ u, exec (.selNLowTimeout ⟨p, clk⟩) s = .next u ∧ (u.vp p).misses = (s.vp p).misses + 1 ∧ (u.vp p).session = .open' ∧
        (u.vp p).clkMode = clk) ∧
    (s.rdyHigh p = true → (s.vp p).mode = .guarded → (s.vp p).session = .open' → 2 ≤ (s.vp p).misses →
      ∀ clk, ∃ u, exec (.selNLowTimeout ⟨p, clk⟩) s = .next u ∧ (u.vp p).session = .lost ∧ bit u.hp.causes 6 = true)) ∧
  (∀ (s : State) (p : Port) (f : Frame) (x : Ext) (o : Op), s.rdyHigh p = true → (s.vp p).vio = true → (s.vp p).mode = .guarded →
    (s.vp p).session = .open' → (s.vp p).ahead f = 0 → (s.vp p).kind f = .request o.code → o = .logRead →
    exec (.logRead (.vital p f) x) s = .next ((s.begun p f).setVp p ((s.begun p f).vp p).again)) ∧
  (∀ (s : State) (p : Port),
    (∀ l w st d b, s.takeLive (Live.isLate p) = some (l, w) → l.job = .late st d b → l.rq.op ≠ .vpOpen →
      ∃ u alive, exec (.pendingReplyReady p) s = .next u ∧ l.rq.route = .vital p alive ∧ (u.vp p).ready.isSome = true ∧
        u.live.length < s.live.length ∧ u.ks = s.ks) ∧
    exec (.vioLow p) s = .next (s.setVp p { s.vp p with vio := false }) ∧
    exec (.vioRestored p) s = .next (s.setVp p { s.vp p with vio := true }))

/-- CEREMONY.START opens the ceremony with a drawn number and nonce, CEREMONY.STEP sends SELECT to a card that answers its
reset and waits, CEREMONY.CANCEL without an internal fault ends the ceremony, CEREMONY.STATUS reports it. SELECT is followed
by GET IDENTITY and that by SIGN CHALLENGE. A signature that passes its checks counts one approval, starts the window with the
first step, and deactivates the card. An invalid T=1 block is asked for again three times and once after a resynchronisation
(log entry 154). How an ATR is taken apart is presumed (log entry 28). -/
def Obligations.CeremonyRequestsTakeEffect : Prop :=
  (∀ (s t : State) (v : Via) (x : Ext) (rt : Route) (arr : Nat × Nat) (p : List Byte),
    let b := p.drop 16
    (Arrives s v .ceremonyStart rt p arr t → 4 ≤ b.length → b.length = 4 + fld b 2 2 → fld b 2 2 ≤ 64 →
      firstFail (t.startStamp (at8 b 0)) = none → t.pow.drbgStop = false → zeroAt b 1 1 = true → 1 ≤ at8 b 0 → at8 b 0 ≤ 9 →
      t.cus.cer = none → t.tam.life.code ∈ ceremonyStates (at8 b 0) → paramsOk (at8 b 0) (b.drop 4) = true →
      (at8 b 0 = 2 → t.registerOk (b.drop 4) = true) →
      let c := t.newCeremony (at8 b 0) (b.drop 4) rt.origin
      let u := (((t.drewBytes 4).drewBytes 16).mapCus (fun w => { w with cer := some c, exch := none })).event 0x0901 rt.origin
        (be 4 c.number ++ [byte (at8 b 0)])
      Completes (.ceremonyStart v x) s t (t.request? rt p arr .ceremonyStart x) (be 4 c.number ++ c.nonce ++ c.digest)
        (if at8 b 0 = 1 then u.takeBand (at8 b 4) else u)) ∧
    (∀ (a : List Byte) (info : Atr) (r : List Byte) (q : SerialPort), Arrives s v .ceremonyStep rt p arr t →
      firstFail (t.stepCardChecks (t.request? rt p arr .ceremonyStep x)) = none → t.cus.exch = none →
      (t.serial (stepCard b)).failed = false → parseAtr a = some (info, r) →
      let e : Exch := ⟨stepCard b, at8 b 5 == 2, .atr, 0, [], 0, 0⟩
      let w := ((t.setSerial (stepCard b) { t.serial (stepCard b) with powered := true }).emit
        (.cardPower (stepCard b) true)).mapCus (fun k => { k with exch := some e })
      (w.serial (stepCard b)).adopt a info r = some q →
      StaysInFlight (.ceremonyStep v x true (some a)) s t (t.request? rt p arr .ceremonyStep x) .card
        ((w.setSerial (stepCard b) q).apdu (stepCard b) .select
          ([0x00#8, 0xA4#8, 0x04#8, 0x00#8, 0x0A#8] ++ aid ++ [0x00#8]))) ∧
    (∀ c, Arrives s v .ceremonyCancel rt p arr t → x.intact = true → p.length = 20 → t.cus.cer = some c → c.number = fld p 16 4 →
      let u := (t.failStep .policy 0x00E2).endCeremony 2 rt.origin
      exec (.ceremonyCancel v x) s =
        .next (u.complete (t.request? rt p arr .ceremonyCancel x) (u.evr.next != t.evr.next) .ok 0 []).pump) ∧
    (Arrives s v .ceremonyStatus rt p arr t → p.length = 16 →
      Completes (.ceremonyStatus v x) s t (t.request? rt p arr .ceremonyStatus x) t.ceremonyPayload t)) ∧
  (∀ (s : State) (card : Serial) (data : List Byte) (split : Bool) (fails : List Nat) (e : Exch) (c : Cer),
    s.cus.exch = some e → s.cus.cer = some c → e.card = card → (s.serial card).blockBad = false → (s.serial card).charBad = false →
    (e.stage = .select → exec (.cardApduResponse card data 0x9000 split fails) s =
      .next ((s.emptyQueue card).goodBlock.apdu card .identity [0x80#8, 0xA0#8, 0x00#8, 0x00#8, 0x41#8]).pump) ∧
    (e.stage = .identity → exec (.cardApduResponse card data 0x9000 split fails) s =
      .next (((s.emptyQueue card).mapCus (fun v => { v with exch := some { e with pub := data, bad := 0 } })).apdu card .sign
        ([0x80#8, 0xA2#8, 0x00#8, 0x00#8, 0x20#8] ++ s.challenge c ++ [0x40#8])).pump)) ∧
  (∀ (s : State) (card : Serial) (data : List Byte) (split : Bool) (fails : List Nat) (e : Exch) (c : Cer) (l : Live) (i : Nat)
    (r : Reg),
    s.cus.exch = some e → s.cus.cer = some c → e.card = card → (s.serial card).blockBad = false → (s.serial card).charBad = false →
    e.stage = .sign → e.enrol = false → firstFail (s.cardChecks c e data) = none → c.wantsComponent = false →
    s.overdue c = false → s.live.find? (fun l => l.job == .card) = some l →
    s.regs.find? (fun r => r.2.pub == e.pub) = some (i, r) →
    let d : Cer := { c with
      approvals := c.approvals ++ [⟨e.pub, i, r.role⟩], comp := xorBytes c.comp (zeros 32), steps := c.steps + 1
      stop := some (c.stop.getD (s.ph.c + 3000, s.ph.phi)), st := .running, origin := l.rq.route.origin }
    s.approved d = false →
    ∃ u : State, exec (.cardApduResponse card data 0x9000 split fails) s = .next u.pump ∧ u.cus.cer = some d ∧
      u.cus.exch = none ∧ (u.serial card).powered = false) ∧
  (∀ (s : State) (card : Serial) (data : List Byte) (sw : Nat) (split : Bool) (fails : List Nat) (e : Exch),
    s.cus.exch = some e → e.card = card → (s.serial card).blockBad = true →
    let q := s.serial card
    let w := s.setSerial card { q with queue := [], errors := min (q.errors + 1) 65535 }
    (e.bad < 4 → exec (.cardApduResponse card data sw split fails) s = .next ((w.mapCus (fun v => { v with
      exch := some { e with bad := e.bad + 1 } })).emit (.cardAgain card (e.bad == 3))).pump) ∧
    (4 ≤ e.bad → exec (.cardApduResponse card data sw split fails) s = .next (w.failStep .policy 0x00E5).pump))

/-- A failed step deactivates its card and leaves ceremony, keys and tamper state alone. A missing ATR is tried once more and
then fails the step; a removed card and a tripped supply fail it, the trip with its event. A ceremony whose window has ended,
or that took no step in time, ends EXPIRED; before that nothing happens. Where the spec is silent it follows the model's
readings in log entry 105. -/
def Obligations.CardStepsFailAndCeremoniesExpire : Prop :=
  ((∀ (s : State) (st : Status) (d : Nat) (e : Exch), s.cus.exch = some e →
    (s.failStep st d).cus.exch = none ∧ (s.failStep st d).cus.cer = s.cus.cer ∧ ((s.failStep st d).serial e.card).powered = false ∧
      (s.failStep st d).ks = s.ks ∧ (s.failStep st d).tam = s.tam) ∧
  ∀ (s : State) (card : Serial) (e : Exch), s.cus.exch = some e → e.card = card →
    (e.stage = .atr → e.resets = 0 →
      exec (.atrTimeout card none) s = .next (s.mapCus (fun v => { v with exch := some { e with resets := 1 } })).pump) ∧
    (e.stage = .atr → e.resets ≠ 0 → exec (.atrTimeout card none) s = .next (s.failStep .policy 0x00E5).pump) ∧
    exec (.cardRemoved card) s = .next (s.failStep .policy 0x00E5).pump ∧
    exec (.cardOvercurrent card) s =
      .next ((s.event 0x0905 noOrigin [if card == .cardA then 1#8 else 2#8]).failStep .policy 0x00E5).pump) ∧
  (∀ (s : State) (c : Cer), s.cus.cer = some c →
    (∀ d, c.stop = some d → s.ph.issuing = true → s.ph.reached d = true →
      ∃ u : State, exec .ceremonyWindowExpiry s = .next u.pump ∧ u.cus.cer = none ∧ u.cus.outcome = 3 ∧ u.cus.exch = none) ∧
    (∀ d, c.stop = some d → s.ph.reached d = false → exec .ceremonyWindowExpiry s = .next s) ∧
    (∀ k phi, c.stop = none → c.since = some (k, phi) → s.ph.issuing = true → s.ph.reached (k + 3000, phi) = true →
      ∃ u : State, exec .ceremonyOpenTimeout s = .next u.pump ∧ u.cus.cer = none ∧ u.cus.outcome = 3 ∧ u.cus.exch = none) ∧
    (c.stop = none → c.since = none →
      ∃ u : State, exec .ceremonyOpenTimeout s = .next u.pump ∧ u.cus.cer = none ∧ u.cus.outcome = 3 ∧ u.cus.exch = none) ∧
    (∀ d, c.stop = some d → exec .ceremonyOpenTimeout s = .next s))

/-- STEP 1 replies a signed offer with a fresh ephemeral key. STEP 2 replies a signed acceptance and holds the pairing key.
STEP 3 checks the acceptance and holds the same key; steps 2 and 3 end the ceremony. PEER.STATUS replies the peer and the
highest transfer number received from it, or zeros. PEER.UNPAIR drops the pairing key, and its slot takes the next generation.
Where the spec is silent it follows the model's readings in log entry 115. -/
def Obligations.PairingTakesThreeSteps : Prop :=
  (∀ (s t : State) (v : Via) (x : Ext) (rt : Route) (arr : Nat × Nat) (p : List Byte),
    let b := p.drop 16
    let ctx := rt.ctx?.getD 66
    let own := rt.tenant.getD 0xFF
    let rq := t.request? rt p arr .peerPair x
    let r := t.didInput rq (descAt b 20)
    Arrives s v .peerPair rt p arr t → firstFail (t.pairChecks rq) = none → x.verify = none →
    (at8 b 0 = 1 → t.chainBundle.length ≤ (descAt b 4).len → firstFail (t.dualChecks ctx) = none → t.dmaStop own = none →
      let t1 := t.output own (descAt b 4) t.chainBundle
      let eph := t1.drawScalar p384.n
      let t2 := t1.drewBytes 80
      let t3 := t2.drewBytes 16
      let body := t3.pairBody 0x0605 (t2.drawBytes 16) (p384.encode (p384.mul eph p384.gen)) (zeros 4)
      Completes (.peerPairOffer v x) s t rq (body ++ t3.dualSign body)
        ((t3.dualSigned ctx).mapKs (fun k => { k with eph := some eph, offer := body ++ t3.dualSign body }))) ∧
    (∀ bundle k, at8 b 0 = 2 → t.chainBundle.length ≤ (descAt b 4).len → firstFail (t.dualChecks ctx) = none →
      t.dmaStop own = none → t.input rq 0 (descAt b 20) = .data bundle →
      Config.chainKeys bundle t.ks.rootKeys = some k → t.pairOk 0x0605 k (b.drop 36) = true →
      let t1 := r.output own (descAt b 4) t.chainBundle
      let t2 := t1.drewBytes 80
      let eph := t1.drawScalar p384.n
      let key := t2.pairKeyOf eph (b.drop 36) (deviceIdOf k)
      let body := t2.pairBody 0x0606 ((sha256 (b.drop 36)).take 16) (p384.encode (p384.mul eph p384.gen)) (kcv key)
      let u := (t2.dualSigned ctx).paired key k rt.origin
      Completes (.peerPairAcceptance v x) s t rq (body ++ t2.dualSign body) u ∧
        u.ks.pairKey = some key ∧ u.ks.peerId = deviceIdOf k ∧ u.cus.cer = none ∧ u.cus.outcome = 1) ∧
    (∀ bundle k eph, at8 b 0 = 3 → t.input rq 0 (descAt b 20) = .data bundle →
      Config.chainKeys bundle t.ks.rootKeys = some k → t.ks.eph = some eph → t.pairOk 0x0606 k (b.drop 36) = true →
      let key := t.pairKeyOf eph (b.drop 36) (deviceIdOf k)
      slice (b.drop 36) 164 16 = (sha256 t.ks.offer).take 16 → slice (b.drop 36) 277 4 = kcv key →
      let u := r.paired key k rt.origin
      Completes (.peerPairStep3 v x) s t rq (deviceIdOf k ++ kcv key) u ∧
        u.ks.pairKey = some key ∧ u.ks.peerId = deviceIdOf k ∧ u.ks.eph = none ∧ u.cus.cer = none ∧ u.cus.outcome = 1)) ∧
  (∀ (s t : State) (v : Via) (x : Ext) (rt : Route) (arr : Nat × Nat) (p : List Byte), p.length = 16 →
    (Arrives s v .peerStatus rt p arr t → ∀ k, t.ks.pairKey = some k →
      Completes (.peerStatus v x) s t (t.request? rt p arr .peerStatus x) (padTo 8 t.ks.peerId ++
        be 5 (t.ks.received t.ks.peerId)) t) ∧
    (Arrives s v .peerStatus rt p arr t → t.ks.pairKey = none →
      Completes (.peerStatus v x) s t (t.request? rt p arr .peerStatus x) (zeros 13) t) ∧
    (Arrives s v .peerUnpair rt p arr t → ∀ k, t.ks.pairKey = some k → t.ks.transfer = none →
      let u := (t.dropPair rt.origin).event 0x0407 rt.origin t.ks.peerId
      Completes (.peerUnpair v x) s t (t.request? rt p arr .peerUnpair x) [] u ∧ u.ks.pairKey = none ∧ u.ks.peerId = zeros 8 ∧
        u.ks.peerKeys = none ∧ ((t.slot 6).gen < 0xFFFFFF → (u.slot 6).gen = (t.slot 6).gen + 1)) ∧
    (Arrives s v .peerUnpair rt p arr t → t.ks.pairKey = none → t.ks.transfer = none →
      Completes (.peerUnpair v x) s t (t.request? rt p arr .peerUnpair x) [] t))

/-- SLICE.EMIGRATE takes the next transfer number, makes the slice EMIGRATING and replies number and package length.
SLICE.IMMIGRATE makes the slice IMMIGRATING; as it goes on it installs a package that the peer signed and replies a receipt,
and the slice is CREATED again; an unsigned one is refused with a signed refusal, and no key or transfer number changes. A
receipt frees the slice, a refusal makes it QUIESCED again, and either ends the transfer. A package refused on the peer uses
its number. Where the spec is silent it follows the model's readings in log entries 27, 111 and 113. -/
def Obligations.SlicesMoveToAPeer : Prop :=
  (∀ (s t : State) (v : Via) (x : Ext) (rt : Route) (arr : Nat × Nat) (p : List Byte),
    let b := p.drop 16
    let n := at8 b 0
    let k := at8 b 1
    let ctx := rt.ctx?.getD 66
    let number := t.ks.counter + 1
    let rq := t.request? rt p arr .sliceEmigrate x
    Arrives s v .sliceEmigrate rt p arr t → 1 ≤ k → k ≤ 4 → b.length = 2 + 16 * k → t.ph.issuing = true → t.pow.drbgStop = false →
    firstFail (t.needDescs rq 2 k 2) = none → n < 64 → (t.slc n).st = .quiesced →
    t.ks.pairKey.isSome = true → t.ks.transfer = none → t.packageLen n ≤ ((descsAt b 2 k).map (·.len)).sum →
    firstFail (t.dualChecks ctx) = none → x.split = false → x.misses = 0 → x.verify = none → t.dmaStop 0xFF = none →
    let pkg := (t.drewDelay.package n number ctx).1
    ∃ u : State, Completes (.sliceEmigrate v x none) s t rq (be 5 number ++ be 4 pkg.length) u ∧ u.ks.counter = number ∧
      u.ks.transfer = some ⟨number, n, sha256 pkg, (t.transferKeys n).length⟩ ∧ (u.slc n).st = .emigrating) ∧
  (∀ (s t : State) (v : Via) (x : Ext) (rt : Route) (arr : Nat × Nat) (p : List Byte),
    let rq := t.request? rt p arr .sliceImmigrate x
    Arrives s v .sliceImmigrate rt p arr t → firstFail (t.immigrateChecks rq) = none →
      StaysInFlight (.sliceImmigrate v x false) s t rq (.held .install) (t.setSlcSt (at8 (p.drop 16) 0) .immigrating)) ∧
  (∀ (s : State) (rq : Rq) (k : Nat) (parts : List (List Byte)),
    let b := rq.body
    let n := at8 b 0
    let t := ({ s with live := [] } : State).setSlcSt n .created
    let read := fun i => ((descsAt b 1 k).take i).foldl (fun s d => s.didInput rq d) t
    let w := read k
    let pkg := cutPackage (parts.flatMap (fun q => q))
    s.pending = [] → s.live = [⟨rq, .held .install⟩] → s.ruled ⟨rq, .held .install⟩ = false → rq.op = .sliceImmigrate →
    rq.past = true → (s.slc n).st = .immigrating → b.length = 1 + 16 * k → firstFail (t.immigrateChecks rq) = none →
    firstFail (t.dualChecks rq.ctx) = none → rq.x.misses = 0 → rq.x.verify = none → parts.length = k →
    (∀ i, i < k → (read i).input rq i (descAt b (1 + 16 * i)) = .data (parts.getD i [])) →
    (∀ v, w.packageSigned pkg = true → w.installPackage n pkg rq.route.origin = .ok v →
      let u := ((v.dualSigned rq.ctx).mapKs (fun q => q.receive (slice pkg 4 8) (fld pkg 20 5))).event 0x0404 rq.route.origin
        (be 5 (fld pkg 20 5) ++ [byte n] ++ be 2 (fld pkg 26 2))
      step s = .next (u.complete rq (u.evr.next != s.evr.next) .ok 0
        (w.settleStatement 0x0602 0 (fld pkg 26 2) pkg)).schedule.nextPhi.rdyRises) ∧
    (w.packageSigned pkg = false →
      ∃ u : State, step s = .next (u.complete rq (u.evr.next != s.evr.next) .policy 0x0056
          (w.settleStatement 0x0603 0x56 0 pkg)).schedule.nextPhi.rdyRises ∧
        u.slices = t.slices ∧ (u.slc n).st = .created ∧ u.ks.slots = s.ks.slots ∧ u.ks.highest = s.ks.highest)) ∧
  (∀ (s t : State) (v : Via) (x : Ext) (rt : Route) (arr : Nat × Nat) (p : List Byte),
    let b := p.drop 16
    (∀ tr, Arrives s v .sliceReceipt rt p arr t → b.length = 3064 → t.ks.transfer = some tr → tr.number = fld b 20 5 →
      t.settleOk 0x0602 b = true → t.namesTransfer b = true → x.split = false →
      let u := t.drewDelay.settle rt.origin
      Completes (.sliceReceipt v x) s t (t.request? rt p arr .sliceReceipt x) [] u ∧ u.ks.transfer = none ∧
        (u.slc tr.slice).st = .free) ∧
    (∀ tr, Arrives s v .sliceRefuse rt p arr t → b.length = 3064 → fld b 0 2 = 0x0603 → t.ks.transfer = some tr →
      tr.number = fld b 20 5 → t.settleOk 0x0603 b = true → t.namesTransfer b = true →
      let u := t.undoTransfer (at8 b 25) rt.origin
      Completes (.sliceRefuse v x) s t (t.request? rt p arr .sliceRefuse x) [] u ∧ u.ks.transfer = none ∧
        (u.slc tr.slice).st = .quiesced) ∧
    (Arrives s v .sliceRefuse rt p arr t → 3040 ≤ b.length → fld b 0 2 ≠ 0x0603 →
      (t.packageSigned b = true ∨
        (t.settleOk 0x0604 b = true ∧ slice b 4 8 = t.ks.peerId ∧ slice b 12 8 = t.ks.deviceId)) →
      t.ks.received (slice b 4 8) < fld b 20 5 →
      let u := (t.mapKs (fun w => w.receive (slice b 4 8) (fld b 20 5))).event 0x0405 rt.origin
        (be 5 (fld b 20 5) ++ [0#8, 1#8])
      Completes (.sliceRefuse v x) s t (t.request? rt p arr .sliceRefuse x) [] u ∧ u.ks.received (slice b 4 8) = fld b 20 5))

/-- On every request row of the host port and CONSOLE, a request that passes the earlier entry checks and whose EPOCH differs
from the current epoch of its context is answered with ST_STALE_EPOCH; the reply carries the current epoch, and nothing else
happens. -/
def Obligations.AStaleEpochIsRefused : Prop :=
  ∀ (s s' : State) (v : Via) (x : Ext) (rt : Route) (arr : Nat × Nat) (p : List Byte) (mine : Op → List Byte →
    Bool) (run : Rq → State → Act),
    let i := rt.ctx?.getD 66
    s.find v = .packet rt p arr s' → (∀ o, Op.ofCode (hdrOpcode p) = some o → mine o (p.drop 16) = true) →
    hdrVersion p = 1 → hdrKind p = 1 → p.length = 16 + hdrLength p → p.length ≤ 4096 → hdrFlags p / 2 = 0 →
    hdrSource p = ctxSource i → hdrEpoch p ≠ (s'.ctx i).epoch →
    let reply := replyBytes p (s'.ctx i).epoch (hdrSource p) 0 .staleEpoch 0 s'.ph.stamp []
    ∃ credit, s.request v x mine run = s'.deliver rt reply (bit (hdrFlags p) 0) credit ∧
      fld reply 9 3 = (s'.ctx i).epoch % 2 ^ 24 ∧ fld reply 16 2 = Status.staleEpoch.code

/-- A ring request whose ID the reply cache of its context holds does not run: with the same digest it is answered with the
cached reply, REPLAYED set, and with another one it is refused with ST_ID_CONFLICT, DETAIL 0x0001. -/
def Obligations.ADuplicateRequestDoesNotRunAgain : Prop :=
  ∀ (s s' : State) (o : Owner) (a b c d : Nat) (x : Ext) (arr : Nat × Nat) (p : List Byte) (mine : Op → List Byte →
    Bool) (run : Rq → State → Act)
    (k : Op) (e : Cached),
    let rt := Route.ring o a b c d
    s.find (.ring o) = .packet rt p arr s' → GoodHeader s' rt k p → mine k (p.drop 16) = true →
    (s'.ctx (ownerIdx o)).cache.find? (fun q => q.id == hdrId p) = some e →
    (e.digest = digestOf p →
      s.request (.ring o) x mine run = s'.deliver rt (replayOf e.reply) (bit (hdrFlags p) 0) true) ∧
    (e.digest ≠ digestOf p →
      s.request (.ring o) x mine run = s'.answer rt (ownerIdx o) p .idConflict 0x0001 true)

/-- Completing a request changes contexts, requests in flight, a ready reply of a vital port and what the ports drive. Stamp,
host registers, memory, slices, channels, records, keys, lanes, multiplier, event record, custody, loops, tamper, power and
the DRBG position are unchanged, and every word of memory reads as before. A request that meets an internal fault is answered
with ST_FAULT, no payload and no effect of its command; a double-bit error in the firmware area is such a fault, with DETAIL
0x0042, and is recorded; a stream that UPDATE or FINAL named is closed. Where the spec is silent it follows the model's
readings in log entries 38 and 70. -/
def Obligations.RepliesAndInternalFaults : Prop :=
  (∀ (s : State) (rq : Rq) (ev : Bool) (st : Status) (d : Nat) (b : List Byte),
    let u := s.complete rq ev st d b
    u.ph = s.ph ∧ u.hp = s.hp ∧ u.wm = s.wm ∧ u.slices = s.slices ∧ u.chans = s.chans ∧ u.cached = s.cached ∧ u.table = s.table ∧
      u.recs = s.recs ∧ u.ks = s.ks ∧ u.lanes = s.lanes ∧ u.mult = s.mult ∧ u.evr = s.evr ∧ u.cus = s.cus ∧ u.loops = s.loops ∧
      u.tam = s.tam ∧ u.pow = s.pow ∧ u.drawn = s.drawn ∧ u.pending = s.pending ∧ ∀ a, u.wmRead a = s.wmRead a) ∧
  (∀ (s t : State) (v : Via) (x : Ext) (o : Op) (rt : Route) (arr : Nat × Nat) (p : List Byte),
    let rq := t.request? rt p arr o x
    Arrives s v o rt p arr t →
    (x.fwError = none → x.fault = true →
      let u := (t.closePart rq .fault).complete rq false .fault 0 []
      (∀ (mine : Op → List Byte → Bool) (run : Rq → State → Act), mine o (p.drop 16) = true → s.request v x mine run = u) ∧
      (o = .keyGen → exec (.keyGen v x) s = .next u) ∧ (o = .pkSign → exec (.pkSign v x) s = .next u) ∧
      (o = .sealOnce → exec (.sealOnce v x) s = .next u.schedule)) ∧
    (∀ a, x.fwError = some a →
      let m := (t.meet [a] [⟨a, 1⟩]).wmEcc rt.origin .command a
      let u := (m.closePart rq .fault).complete rq (m.evr.next != t.evr.next) .fault 0x0042 []
      (∀ (mine : Op → List Byte → Bool) (run : Rq → State → Act), mine o (p.drop 16) = true → s.request v x mine run = u) ∧
      (o = .bnMul → exec (.bnMul v x) s = .next u)))
end

