-- ==== Sys2Proof/Laws/Table.lean ====
section
/-! SUPPORT. Tables: a read after a write gives the value written, a write leaves every other index alone, and every operation
keeps the canonical form. -/

namespace Sys2Proof.Machine

variable {α : Type}

@[simp] theorem Tbl.get_nil (d : α) (k : Nat) : Tbl.get d [] k = d := rfl

theorem Tbl.get_del_same (d : α) (m : Tbl α) (k : Nat) : (m.del k).get d k = d := by
  induction m with
  | nil => rfl
  | cons e r ih =>
    obtain ⟨i, v⟩ := e
    by_cases h : i = k
    · simpa [Tbl.del, h] using ih
    · simpa [Tbl.del, h, Tbl.get] using ih

theorem Tbl.get_del_ne (d : α) (m : Tbl α) {k j : Nat} (h : j ≠ k) : (m.del k).get d j = m.get d j := by
  induction m with
  | nil => rfl
  | cons e r ih =>
    obtain ⟨i, v⟩ := e
    by_cases hi : i = k
    · subst hi
      simpa [Tbl.del, Tbl.get, Ne.symm h] using ih
    · by_cases hj : i = j
      · simp [Tbl.del, Tbl.get, hj, h]
      · simpa [Tbl.del, Tbl.get, hi, hj] using ih

theorem Tbl.get_ins_same (d : α) (m : Tbl α) (k : Nat) (v : α) (h : ∀ e ∈ m, e.1 ≠ k) : (Tbl.ins k v m).get d k = v := by
  induction m with
  | nil => simp [Tbl.ins, Tbl.get]
  | cons e r ih =>
    obtain ⟨i, w⟩ := e
    have hi : i ≠ k := h (i, w) (by simp)
    unfold Tbl.ins
    split
    · simp [Tbl.get]
    · simpa [Tbl.get, hi] using ih (fun e he => h e (by simp [he]))

theorem Tbl.get_ins_ne (d : α) (m : Tbl α) {k j : Nat} (v : α) (h : j ≠ k) : (Tbl.ins k v m).get d j = m.get d j := by
  induction m with
  | nil => simp [Tbl.ins, Tbl.get, Ne.symm h]
  | cons e r ih =>
    obtain ⟨i, w⟩ := e
    unfold Tbl.ins
    split
    · simp [Tbl.get, Ne.symm h]
    · by_cases hj : i = j
      · simp [Tbl.get, hj]
      · simpa [Tbl.get, hj] using ih

theorem Tbl.mem_del {m : Tbl α} {k : Nat} {e : Nat × α} : e ∈ m.del k ↔ e ∈ m ∧ e.1 ≠ k := by simp [Tbl.del]

@[simp] theorem Tbl.get_put_same [DecidableEq α] (d : α) (m : Tbl α) (k : Nat) (v : α) : (m.put d k v).get d k = v := by
  unfold Tbl.put
  split
  · next h => rw [Tbl.get_del_same, h]
  · exact Tbl.get_ins_same _ _ _ _ (fun e he => (Tbl.mem_del.mp he).2)

theorem Tbl.get_put_ne [DecidableEq α] (d : α) (m : Tbl α) {k j : Nat} (v : α) (h : j ≠ k) :
    (m.put d k v).get d j = m.get d j := by
  unfold Tbl.put
  split
  · exact Tbl.get_del_ne d m h
  · rw [Tbl.get_ins_ne d _ v h, Tbl.get_del_ne d m h]

theorem Tbl.get_put [DecidableEq α] (d : α) (m : Tbl α) (k j : Nat) (v : α) :
    (m.put d k v).get d j = if j = k then v else m.get d j := by
  by_cases h : j = k
  · subst h; simp
  · simp [h, Tbl.get_put_ne]

/-! ### Canonical form -/

theorem Tbl.rising_cons {i : Nat} {v : α} {m : Tbl α} :
    Tbl.rising ((i, v) :: m) = true ↔ (∀ e ∈ m, i < e.1) ∧ Tbl.rising m = true := by
  induction m generalizing i v with
  | nil => simp [Tbl.rising]
  | cons e r ih =>
    obtain ⟨j, w⟩ := e
    have hj := ih (i := j) (v := w)
    simp only [Tbl.rising, Bool.and_eq_true, decide_eq_true_eq, List.mem_cons, forall_eq_or_imp]
    constructor
    · rintro ⟨h1, h2⟩
      exact ⟨⟨h1, fun e he => lt_trans h1 ((hj.mp h2).1 e he)⟩, h2⟩
    · rintro ⟨⟨h1, -⟩, h2⟩
      exact ⟨h1, h2⟩

theorem Tbl.rising_filter {m : Tbl α} (p : Nat × α → Bool) (h : m.rising = true) : Tbl.rising (m.filter p) = true := by
  induction m with
  | nil => rfl
  | cons e r ih =>
    obtain ⟨i, v⟩ := e
    obtain ⟨h1, h2⟩ := Tbl.rising_cons.mp h
    by_cases hp : p (i, v) = true
    · rw [List.filter_cons_of_pos hp]
      exact Tbl.rising_cons.mpr ⟨fun e he => h1 e (List.mem_filter.mp he).1, ih h2⟩
    · rw [List.filter_cons_of_neg hp]
      exact ih h2

theorem Tbl.mem_ins {m : Tbl α} {k : Nat} {v : α} {e : Nat × α} : e ∈ Tbl.ins k v m ↔ e = (k, v) ∨ e ∈ m := by
  induction m with
  | nil => simp [Tbl.ins]
  | cons a r ih =>
    obtain ⟨i, w⟩ := a
    unfold Tbl.ins
    split
    · simp
    · simp only [List.mem_cons, ih]; tauto

theorem Tbl.rising_ins {m : Tbl α} {k : Nat} {v : α} (h : m.rising = true) (hk : ∀ e ∈ m, e.1 ≠ k) :
    Tbl.rising (Tbl.ins k v m) = true := by
  induction m with
  | nil => rfl
  | cons a r ih =>
    obtain ⟨i, w⟩ := a
    obtain ⟨h1, h2⟩ := Tbl.rising_cons.mp h
    have hi : i ≠ k := hk (i, w) (by simp)
    unfold Tbl.ins
    split
    · next hlt =>
      exact Tbl.rising_cons.mpr ⟨by
        intro e he
        rcases List.mem_cons.mp he with rfl | he
        · exact hlt
        · exact lt_trans hlt (h1 e he), h⟩
    · next hlt =>
      refine Tbl.rising_cons.mpr ⟨?_, ih h2 (fun e he => hk e (by simp [he]))⟩
      intro e he
      rcases Tbl.mem_ins.mp he with rfl | he
      · exact lt_of_le_of_ne (not_lt.mp hlt) hi
      · exact h1 e he

@[simp] theorem Tbl.wf_nil [DecidableEq α] (d : α) : Tbl.wf d ([] : Tbl α) = true := rfl

theorem Tbl.wf_filter [DecidableEq α] {d : α} {m : Tbl α} (p : Nat × α → Bool) (h : m.wf d = true) :
    Tbl.wf d (m.filter p) = true := by
  simp only [Tbl.wf, Bool.and_eq_true, List.all_eq_true] at *
  exact ⟨Tbl.rising_filter p h.1, fun e he => h.2 e (List.mem_filter.mp he).1⟩

/-- A write keeps the canonical form. -/
theorem Tbl.wf_put [DecidableEq α] {d : α} {m : Tbl α} (k : Nat) (v : α) (h : m.wf d = true) : (m.put d k v).wf d = true := by
  unfold Tbl.put
  split
  · exact Tbl.wf_filter _ h
  · next hv =>
    have hd := Tbl.wf_filter (fun e => e.1 != k) h
    simp only [Tbl.wf, Bool.and_eq_true, List.all_eq_true] at hd ⊢
    refine ⟨Tbl.rising_ins hd.1 (fun e he => (Tbl.mem_del.mp he).2), ?_⟩
    intro e he
    rcases Tbl.mem_ins.mp he with rfl | he
    · simpa using hv
    · exact hd.2 e he

end Sys2Proof.Machine
end

