-- ==== Sys2Proof/Laws/State.lean ====
section
/-! SUPPORT. State updates: what a named update writes is what is read back, and it leaves every other index and every other
field alone. -/

namespace Sys2Proof.Machine

/-! ### Tables: the value written, and every other index -/

@[simp] theorem State.setCtx_ctx_same (s : State) (i : Nat) (v : Ctx) : (s.setCtx i v).ctx i = v := Tbl.get_put_same _ _ _ _

theorem State.setCtx_ctx (s : State) (i j : Nat) (v : Ctx) : (s.setCtx i v).ctx j = if j = i then v else s.ctx j :=
  Tbl.get_put _ _ _ _ _

@[simp] theorem State.setCtx_ctx_ne (s : State) {i j : Nat} (v : Ctx) (h : j ≠ i) : (s.setCtx i v).ctx j = s.ctx j :=
  Tbl.get_put_ne _ _ _ h

@[simp] theorem State.setSlc_slc_same (s : State) (i : Nat) (v : Slc) : (s.setSlc i v).slc i = v := Tbl.get_put_same _ _ _ _

theorem State.setSlc_slc (s : State) (i j : Nat) (v : Slc) : (s.setSlc i v).slc j = if j = i then v else s.slc j :=
  Tbl.get_put _ _ _ _ _

@[simp] theorem State.setSlc_slc_ne (s : State) {i j : Nat} (v : Slc) (h : j ≠ i) : (s.setSlc i v).slc j = s.slc j :=
  Tbl.get_put_ne _ _ _ h

@[simp] theorem State.setChan_chan_same (s : State) (i : Nat) (v : Chan) : (s.setChan i v).chan i = v := Tbl.get_put_same _ _ _ _

theorem State.setChan_chan (s : State) (i j : Nat) (v : Chan) : (s.setChan i v).chan j = if j = i then v else s.chan j :=
  Tbl.get_put _ _ _ _ _

@[simp] theorem State.setChan_chan_ne (s : State) {i j : Nat} (v : Chan) (h : j ≠ i) : (s.setChan i v).chan j = s.chan j :=
  Tbl.get_put_ne _ _ _ h

@[simp] theorem State.setLane_lane_same (s : State) (i : Nat) (v : Lane) : (s.setLane i v).lane i = v := Tbl.get_put_same _ _ _ _

theorem State.setLane_lane (s : State) (i j : Nat) (v : Lane) : (s.setLane i v).lane j = if j = i then v else s.lane j :=
  Tbl.get_put _ _ _ _ _

@[simp] theorem State.setLane_lane_ne (s : State) {i j : Nat} (v : Lane) (h : j ≠ i) : (s.setLane i v).lane j = s.lane j :=
  Tbl.get_put_ne _ _ _ h

@[simp] theorem State.setLoop_loop_same (s : State) (i : Nat) (v : Loop) : (s.setLoop i v).loop i = v := Tbl.get_put_same _ _ _ _

theorem State.setLoop_loop (s : State) (i j : Nat) (v : Loop) : (s.setLoop i v).loop j = if j = i then v else s.loop j :=
  Tbl.get_put _ _ _ _ _

@[simp] theorem State.setLoop_loop_ne (s : State) {i j : Nat} (v : Loop) (h : j ≠ i) : (s.setLoop i v).loop j = s.loop j :=
  Tbl.get_put_ne _ _ _ h

@[simp] theorem State.setSlot_slot_same (s : State) (i : Nat) (v : Slot) : (s.setSlot i v).slot i = v := Tbl.get_put_same _ _ _ _

theorem State.setSlot_slot (s : State) (i j : Nat) (v : Slot) : (s.setSlot i v).slot j = if j = i then v else s.slot j :=
  Tbl.get_put _ _ _ _ _

@[simp] theorem State.setSlot_slot_ne (s : State) {i j : Nat} (v : Slot) (h : j ≠ i) : (s.setSlot i v).slot j = s.slot j :=
  Tbl.get_put_ne _ _ _ h

@[simp] theorem State.setDpm_dpm_same (s : State) (i : Nat) (v : Dpm) : (s.setDpm i v).dpm i = v := Tbl.get_put_same _ _ _ _

theorem State.setDpm_dpm (s : State) (i j : Nat) (v : Dpm) : (s.setDpm i v).dpm j = if j = i then v else s.dpm j :=
  Tbl.get_put _ _ _ _ _

@[simp] theorem State.setDpm_dpm_ne (s : State) {i j : Nat} (v : Dpm) (h : j ≠ i) : (s.setDpm i v).dpm j = s.dpm j :=
  Tbl.get_put_ne _ _ _ h

/-! ### A table read through an update of another table -/

@[simp] theorem State.setCtx_slc_frame (s : State) (i : Nat) (v : Ctx) (j : Nat) : (s.setCtx i v).slc j = s.slc j := rfl

@[simp] theorem State.setCtx_chan_frame (s : State) (i : Nat) (v : Ctx) (j : Nat) : (s.setCtx i v).chan j = s.chan j := rfl

@[simp] theorem State.setCtx_lane_frame (s : State) (i : Nat) (v : Ctx) (j : Nat) : (s.setCtx i v).lane j = s.lane j := rfl

@[simp] theorem State.setCtx_loop_frame (s : State) (i : Nat) (v : Ctx) (j : Nat) : (s.setCtx i v).loop j = s.loop j := rfl

@[simp] theorem State.setCtx_slot_frame (s : State) (i : Nat) (v : Ctx) (j : Nat) : (s.setCtx i v).slot j = s.slot j := rfl

@[simp] theorem State.setCtx_dpm_frame (s : State) (i : Nat) (v : Ctx) (j : Nat) : (s.setCtx i v).dpm j = s.dpm j := rfl

@[simp] theorem State.setSlc_ctx_frame (s : State) (i : Nat) (v : Slc) (j : Nat) : (s.setSlc i v).ctx j = s.ctx j := rfl

@[simp] theorem State.setSlc_chan_frame (s : State) (i : Nat) (v : Slc) (j : Nat) : (s.setSlc i v).chan j = s.chan j := rfl

@[simp] theorem State.setSlc_lane_frame (s : State) (i : Nat) (v : Slc) (j : Nat) : (s.setSlc i v).lane j = s.lane j := rfl

@[simp] theorem State.setSlc_loop_frame (s : State) (i : Nat) (v : Slc) (j : Nat) : (s.setSlc i v).loop j = s.loop j := rfl

@[simp] theorem State.setSlc_slot_frame (s : State) (i : Nat) (v : Slc) (j : Nat) : (s.setSlc i v).slot j = s.slot j := rfl

@[simp] theorem State.setSlc_dpm_frame (s : State) (i : Nat) (v : Slc) (j : Nat) : (s.setSlc i v).dpm j = s.dpm j := rfl

@[simp] theorem State.setChan_ctx_frame (s : State) (i : Nat) (v : Chan) (j : Nat) : (s.setChan i v).ctx j = s.ctx j := rfl

@[simp] theorem State.setChan_slc_frame (s : State) (i : Nat) (v : Chan) (j : Nat) : (s.setChan i v).slc j = s.slc j := rfl

@[simp] theorem State.setChan_lane_frame (s : State) (i : Nat) (v : Chan) (j : Nat) : (s.setChan i v).lane j = s.lane j := rfl

@[simp] theorem State.setChan_loop_frame (s : State) (i : Nat) (v : Chan) (j : Nat) : (s.setChan i v).loop j = s.loop j := rfl

@[simp] theorem State.setChan_slot_frame (s : State) (i : Nat) (v : Chan) (j : Nat) : (s.setChan i v).slot j = s.slot j := rfl

@[simp] theorem State.setChan_dpm_frame (s : State) (i : Nat) (v : Chan) (j : Nat) : (s.setChan i v).dpm j = s.dpm j := rfl

@[simp] theorem State.setLane_ctx_frame (s : State) (i : Nat) (v : Lane) (j : Nat) : (s.setLane i v).ctx j = s.ctx j := rfl

@[simp] theorem State.setLane_slc_frame (s : State) (i : Nat) (v : Lane) (j : Nat) : (s.setLane i v).slc j = s.slc j := rfl

@[simp] theorem State.setLane_chan_frame (s : State) (i : Nat) (v : Lane) (j : Nat) : (s.setLane i v).chan j = s.chan j := rfl

@[simp] theorem State.setLane_loop_frame (s : State) (i : Nat) (v : Lane) (j : Nat) : (s.setLane i v).loop j = s.loop j := rfl

@[simp] theorem State.setLane_slot_frame (s : State) (i : Nat) (v : Lane) (j : Nat) : (s.setLane i v).slot j = s.slot j := rfl

@[simp] theorem State.setLane_dpm_frame (s : State) (i : Nat) (v : Lane) (j : Nat) : (s.setLane i v).dpm j = s.dpm j := rfl

@[simp] theorem State.setLoop_ctx_frame (s : State) (i : Nat) (v : Loop) (j : Nat) : (s.setLoop i v).ctx j = s.ctx j := rfl

@[simp] theorem State.setLoop_slc_frame (s : State) (i : Nat) (v : Loop) (j : Nat) : (s.setLoop i v).slc j = s.slc j := rfl

@[simp] theorem State.setLoop_chan_frame (s : State) (i : Nat) (v : Loop) (j : Nat) : (s.setLoop i v).chan j = s.chan j := rfl

@[simp] theorem State.setLoop_lane_frame (s : State) (i : Nat) (v : Loop) (j : Nat) : (s.setLoop i v).lane j = s.lane j := rfl

@[simp] theorem State.setLoop_slot_frame (s : State) (i : Nat) (v : Loop) (j : Nat) : (s.setLoop i v).slot j = s.slot j := rfl

@[simp] theorem State.setLoop_dpm_frame (s : State) (i : Nat) (v : Loop) (j : Nat) : (s.setLoop i v).dpm j = s.dpm j := rfl

@[simp] theorem State.setSlot_ctx_frame (s : State) (i : Nat) (v : Slot) (j : Nat) : (s.setSlot i v).ctx j = s.ctx j := rfl

@[simp] theorem State.setSlot_slc_frame (s : State) (i : Nat) (v : Slot) (j : Nat) : (s.setSlot i v).slc j = s.slc j := rfl

@[simp] theorem State.setSlot_chan_frame (s : State) (i : Nat) (v : Slot) (j : Nat) : (s.setSlot i v).chan j = s.chan j := rfl

@[simp] theorem State.setSlot_lane_frame (s : State) (i : Nat) (v : Slot) (j : Nat) : (s.setSlot i v).lane j = s.lane j := rfl

@[simp] theorem State.setSlot_loop_frame (s : State) (i : Nat) (v : Slot) (j : Nat) : (s.setSlot i v).loop j = s.loop j := rfl

@[simp] theorem State.setSlot_dpm_frame (s : State) (i : Nat) (v : Slot) (j : Nat) : (s.setSlot i v).dpm j = s.dpm j := rfl

@[simp] theorem State.setDpm_ctx_frame (s : State) (i : Nat) (v : Dpm) (j : Nat) : (s.setDpm i v).ctx j = s.ctx j := rfl

@[simp] theorem State.setDpm_slc_frame (s : State) (i : Nat) (v : Dpm) (j : Nat) : (s.setDpm i v).slc j = s.slc j := rfl

@[simp] theorem State.setDpm_chan_frame (s : State) (i : Nat) (v : Dpm) (j : Nat) : (s.setDpm i v).chan j = s.chan j := rfl

@[simp] theorem State.setDpm_lane_frame (s : State) (i : Nat) (v : Dpm) (j : Nat) : (s.setDpm i v).lane j = s.lane j := rfl

@[simp] theorem State.setDpm_loop_frame (s : State) (i : Nat) (v : Dpm) (j : Nat) : (s.setDpm i v).loop j = s.loop j := rfl

@[simp] theorem State.setDpm_slot_frame (s : State) (i : Nat) (v : Dpm) (j : Nat) : (s.setDpm i v).slot j = s.slot j := rfl

@[simp] theorem State.emit_ctx_frame (s : State) (o : Out) (j : Nat) : (s.emit o).ctx j = s.ctx j := rfl

@[simp] theorem State.emit_slc_frame (s : State) (o : Out) (j : Nat) : (s.emit o).slc j = s.slc j := rfl

@[simp] theorem State.emit_chan_frame (s : State) (o : Out) (j : Nat) : (s.emit o).chan j = s.chan j := rfl

@[simp] theorem State.emit_lane_frame (s : State) (o : Out) (j : Nat) : (s.emit o).lane j = s.lane j := rfl

@[simp] theorem State.emit_loop_frame (s : State) (o : Out) (j : Nat) : (s.emit o).loop j = s.loop j := rfl

@[simp] theorem State.emit_slot_frame (s : State) (o : Out) (j : Nat) : (s.emit o).slot j = s.slot j := rfl

@[simp] theorem State.emit_dpm_frame (s : State) (o : Out) (j : Nat) : (s.emit o).dpm j = s.dpm j := rfl

/-! ### Records: the component that an update rewrites -/

@[simp] theorem State.mapKs_ks (s : State) (f : KeyStore → KeyStore) : (s.mapKs f).ks = f s.ks := rfl

@[simp] theorem State.mapKs_ctx_frame (s : State) (f : KeyStore → KeyStore) (j : Nat) : (s.mapKs f).ctx j = s.ctx j := rfl

@[simp] theorem State.mapKs_slc_frame (s : State) (f : KeyStore → KeyStore) (j : Nat) : (s.mapKs f).slc j = s.slc j := rfl

@[simp] theorem State.mapKs_chan_frame (s : State) (f : KeyStore → KeyStore) (j : Nat) : (s.mapKs f).chan j = s.chan j := rfl

@[simp] theorem State.mapKs_lane_frame (s : State) (f : KeyStore → KeyStore) (j : Nat) : (s.mapKs f).lane j = s.lane j := rfl

@[simp] theorem State.mapKs_loop_frame (s : State) (f : KeyStore → KeyStore) (j : Nat) : (s.mapKs f).loop j = s.loop j := rfl

@[simp] theorem State.mapPh_ph (s : State) (f : Phase → Phase) : (s.mapPh f).ph = f s.ph := rfl

@[simp] theorem State.mapPh_ctx_frame (s : State) (f : Phase → Phase) (j : Nat) : (s.mapPh f).ctx j = s.ctx j := rfl

@[simp] theorem State.mapPh_slc_frame (s : State) (f : Phase → Phase) (j : Nat) : (s.mapPh f).slc j = s.slc j := rfl

@[simp] theorem State.mapPh_chan_frame (s : State) (f : Phase → Phase) (j : Nat) : (s.mapPh f).chan j = s.chan j := rfl

@[simp] theorem State.mapPh_lane_frame (s : State) (f : Phase → Phase) (j : Nat) : (s.mapPh f).lane j = s.lane j := rfl

@[simp] theorem State.mapPh_loop_frame (s : State) (f : Phase → Phase) (j : Nat) : (s.mapPh f).loop j = s.loop j := rfl

@[simp] theorem State.mapPh_slot_frame (s : State) (f : Phase → Phase) (j : Nat) : (s.mapPh f).slot j = s.slot j := rfl

@[simp] theorem State.mapHp_hp (s : State) (f : HostPort → HostPort) : (s.mapHp f).hp = f s.hp := rfl

@[simp] theorem State.mapHp_ctx_frame (s : State) (f : HostPort → HostPort) (j : Nat) : (s.mapHp f).ctx j = s.ctx j := rfl

@[simp] theorem State.mapHp_slc_frame (s : State) (f : HostPort → HostPort) (j : Nat) : (s.mapHp f).slc j = s.slc j := rfl

@[simp] theorem State.mapHp_chan_frame (s : State) (f : HostPort → HostPort) (j : Nat) : (s.mapHp f).chan j = s.chan j := rfl

@[simp] theorem State.mapHp_lane_frame (s : State) (f : HostPort → HostPort) (j : Nat) : (s.mapHp f).lane j = s.lane j := rfl

@[simp] theorem State.mapHp_loop_frame (s : State) (f : HostPort → HostPort) (j : Nat) : (s.mapHp f).loop j = s.loop j := rfl

@[simp] theorem State.mapHp_slot_frame (s : State) (f : HostPort → HostPort) (j : Nat) : (s.mapHp f).slot j = s.slot j := rfl

@[simp] theorem State.mapEvr_evr (s : State) (f : Evr → Evr) : (s.mapEvr f).evr = f s.evr := rfl

@[simp] theorem State.mapEvr_ctx_frame (s : State) (f : Evr → Evr) (j : Nat) : (s.mapEvr f).ctx j = s.ctx j := rfl

@[simp] theorem State.mapEvr_slc_frame (s : State) (f : Evr → Evr) (j : Nat) : (s.mapEvr f).slc j = s.slc j := rfl

@[simp] theorem State.mapEvr_chan_frame (s : State) (f : Evr → Evr) (j : Nat) : (s.mapEvr f).chan j = s.chan j := rfl

@[simp] theorem State.mapEvr_lane_frame (s : State) (f : Evr → Evr) (j : Nat) : (s.mapEvr f).lane j = s.lane j := rfl

@[simp] theorem State.mapEvr_loop_frame (s : State) (f : Evr → Evr) (j : Nat) : (s.mapEvr f).loop j = s.loop j := rfl

@[simp] theorem State.mapEvr_slot_frame (s : State) (f : Evr → Evr) (j : Nat) : (s.mapEvr f).slot j = s.slot j := rfl

@[simp] theorem State.mapTam_tam (s : State) (f : Tamper → Tamper) : (s.mapTam f).tam = f s.tam := rfl

@[simp] theorem State.mapTam_ctx_frame (s : State) (f : Tamper → Tamper) (j : Nat) : (s.mapTam f).ctx j = s.ctx j := rfl

@[simp] theorem State.mapTam_slc_frame (s : State) (f : Tamper → Tamper) (j : Nat) : (s.mapTam f).slc j = s.slc j := rfl

@[simp] theorem State.mapTam_chan_frame (s : State) (f : Tamper → Tamper) (j : Nat) : (s.mapTam f).chan j = s.chan j := rfl

@[simp] theorem State.mapTam_lane_frame (s : State) (f : Tamper → Tamper) (j : Nat) : (s.mapTam f).lane j = s.lane j := rfl

@[simp] theorem State.mapTam_loop_frame (s : State) (f : Tamper → Tamper) (j : Nat) : (s.mapTam f).loop j = s.loop j := rfl

@[simp] theorem State.mapTam_slot_frame (s : State) (f : Tamper → Tamper) (j : Nat) : (s.mapTam f).slot j = s.slot j := rfl

@[simp] theorem State.mapPow_pow (s : State) (f : Power → Power) : (s.mapPow f).pow = f s.pow := rfl

@[simp] theorem State.mapPow_ctx_frame (s : State) (f : Power → Power) (j : Nat) : (s.mapPow f).ctx j = s.ctx j := rfl

@[simp] theorem State.mapPow_slc_frame (s : State) (f : Power → Power) (j : Nat) : (s.mapPow f).slc j = s.slc j := rfl

@[simp] theorem State.mapPow_chan_frame (s : State) (f : Power → Power) (j : Nat) : (s.mapPow f).chan j = s.chan j := rfl

@[simp] theorem State.mapPow_lane_frame (s : State) (f : Power → Power) (j : Nat) : (s.mapPow f).lane j = s.lane j := rfl

@[simp] theorem State.mapPow_loop_frame (s : State) (f : Power → Power) (j : Nat) : (s.mapPow f).loop j = s.loop j := rfl

@[simp] theorem State.mapPow_slot_frame (s : State) (f : Power → Power) (j : Nat) : (s.mapPow f).slot j = s.slot j := rfl

@[simp] theorem State.mapCus_cus (s : State) (f : Custody → Custody) : (s.mapCus f).cus = f s.cus := rfl

@[simp] theorem State.mapCus_ctx_frame (s : State) (f : Custody → Custody) (j : Nat) : (s.mapCus f).ctx j = s.ctx j := rfl

@[simp] theorem State.mapCus_slc_frame (s : State) (f : Custody → Custody) (j : Nat) : (s.mapCus f).slc j = s.slc j := rfl

@[simp] theorem State.mapCus_chan_frame (s : State) (f : Custody → Custody) (j : Nat) : (s.mapCus f).chan j = s.chan j := rfl

@[simp] theorem State.mapCus_lane_frame (s : State) (f : Custody → Custody) (j : Nat) : (s.mapCus f).lane j = s.lane j := rfl

@[simp] theorem State.mapCus_loop_frame (s : State) (f : Custody → Custody) (j : Nat) : (s.mapCus f).loop j = s.loop j := rfl

@[simp] theorem State.mapCus_slot_frame (s : State) (f : Custody → Custody) (j : Nat) : (s.mapCus f).slot j = s.slot j := rfl

@[simp] theorem State.mapMult_mult (s : State) (f : Mult → Mult) : (s.mapMult f).mult = f s.mult := rfl

@[simp] theorem State.mapMult_ctx_frame (s : State) (f : Mult → Mult) (j : Nat) : (s.mapMult f).ctx j = s.ctx j := rfl

@[simp] theorem State.mapMult_slc_frame (s : State) (f : Mult → Mult) (j : Nat) : (s.mapMult f).slc j = s.slc j := rfl

@[simp] theorem State.mapMult_chan_frame (s : State) (f : Mult → Mult) (j : Nat) : (s.mapMult f).chan j = s.chan j := rfl

@[simp] theorem State.mapMult_lane_frame (s : State) (f : Mult → Mult) (j : Nat) : (s.mapMult f).lane j = s.lane j := rfl

@[simp] theorem State.mapMult_loop_frame (s : State) (f : Mult → Mult) (j : Nat) : (s.mapMult f).loop j = s.loop j := rfl

@[simp] theorem State.mapMult_slot_frame (s : State) (f : Mult → Mult) (j : Nat) : (s.mapMult f).slot j = s.slot j := rfl

@[simp] theorem State.emit_out (s : State) (o : Out) : (s.emit o).out = s.out ++ [o] := rfl

/-! ### Ports -/

@[simp] theorem State.setVp_vp_same (s : State) (p : Port) (v : Vp) : (s.setVp p v).vp p = v := by cases p <;> rfl

theorem State.setVp_vp (s : State) (p q : Port) (v : Vp) : (s.setVp p v).vp q = if q = p then v else s.vp q := by
  cases p <;> cases q <;> rfl

@[simp] theorem State.setSerial_serial_same (s : State) (q : Serial) (v : SerialPort) : (s.setSerial q v).serial q = v := by
  cases q <;> rfl

theorem State.setSerial_serial (s : State) (q r : Serial) (v : SerialPort) :
    (s.setSerial q v).serial r = if r = q then v else s.serial r := by
  cases q <;> cases r <;> rfl

@[simp] theorem State.setVp_ctx_frame (s : State) (p : Port) (v : Vp) (j : Nat) :
    (s.setVp p v).ctx j = s.ctx j := by cases p <;> rfl

@[simp] theorem State.setSerial_ctx_frame (s : State) (q : Serial) (v : SerialPort) (j : Nat) :
    (s.setSerial q v).ctx j = s.ctx j := by
  cases q <;> rfl

@[simp] theorem State.setVp_slc_frame (s : State) (p : Port) (v : Vp) (j : Nat) :
    (s.setVp p v).slc j = s.slc j := by cases p <;> rfl

@[simp] theorem State.setSerial_slc_frame (s : State) (q : Serial) (v : SerialPort) (j : Nat) :
    (s.setSerial q v).slc j = s.slc j := by
  cases q <;> rfl

@[simp] theorem State.setVp_chan_frame (s : State) (p : Port) (v : Vp) (j : Nat) :
    (s.setVp p v).chan j = s.chan j := by cases p <;> rfl

@[simp] theorem State.setSerial_chan_frame (s : State) (q : Serial) (v : SerialPort) (j : Nat) :
    (s.setSerial q v).chan j = s.chan j := by
  cases q <;> rfl

@[simp] theorem State.setVp_lane_frame (s : State) (p : Port) (v : Vp) (j : Nat) :
    (s.setVp p v).lane j = s.lane j := by cases p <;> rfl

@[simp] theorem State.setSerial_lane_frame (s : State) (q : Serial) (v : SerialPort) (j : Nat) :
    (s.setSerial q v).lane j = s.lane j := by
  cases q <;> rfl

@[simp] theorem State.setVp_loop_frame (s : State) (p : Port) (v : Vp) (j : Nat) :
    (s.setVp p v).loop j = s.loop j := by cases p <;> rfl

@[simp] theorem State.setSerial_loop_frame (s : State) (q : Serial) (v : SerialPort) (j : Nat) :
    (s.setSerial q v).loop j = s.loop j := by
  cases q <;> rfl

@[simp] theorem State.setVp_slot_frame (s : State) (p : Port) (v : Vp) (j : Nat) :
    (s.setVp p v).slot j = s.slot j := by cases p <;> rfl

@[simp] theorem State.setSerial_slot_frame (s : State) (q : Serial) (v : SerialPort) (j : Nat) :
    (s.setSerial q v).slot j = s.slot j := by
  cases q <;> rfl

@[simp] theorem State.setVp_dpm_frame (s : State) (p : Port) (v : Vp) (j : Nat) :
    (s.setVp p v).dpm j = s.dpm j := by cases p <;> rfl

@[simp] theorem State.setSerial_dpm_frame (s : State) (q : Serial) (v : SerialPort) (j : Nat) :
    (s.setSerial q v).dpm j = s.dpm j := by
  cases q <;> rfl

/-! ### Canonical form -/

theorem State.setCtx_canonical {s : State} (i : Nat) (v : Ctx) (h : s.ctxs.wf .init = true) :
    (s.setCtx i v).ctxs.wf .init = true := Tbl.wf_put _ _ h

theorem State.setSlc_canonical {s : State} (i : Nat) (v : Slc) (h : s.slices.wf .init = true) :
    (s.setSlc i v).slices.wf .init = true := Tbl.wf_put _ _ h

theorem State.setChan_canonical {s : State} (i : Nat) (v : Chan) (h : s.chans.wf .init = true) :
    (s.setChan i v).chans.wf .init = true := Tbl.wf_put _ _ h

theorem State.setLane_canonical {s : State} (i : Nat) (v : Lane) (h : s.lanes.wf .init = true) :
    (s.setLane i v).lanes.wf .init = true := Tbl.wf_put _ _ h

theorem State.setLoop_canonical {s : State} (i : Nat) (v : Loop) (h : s.loops.wf .init = true) :
    (s.setLoop i v).loops.wf .init = true := Tbl.wf_put _ _ h

theorem State.setSlot_canonical {s : State} (i : Nat) (v : Slot) (h : s.ks.slots.wf .init = true) :
    (s.setSlot i v).ks.slots.wf .init = true := Tbl.wf_put _ _ h

theorem State.setDpm_canonical {s : State} (i : Nat) (v : Dpm) (h : s.hp.dpm.wf .init = true) :
    (s.setDpm i v).hp.dpm.wf .init = true := Tbl.wf_put _ _ h

end Sys2Proof.Machine
end

