-- ==== Sys2Proof/Laws/Request.lean ====
section
/-! SUPPORT. What a request row does with a packet that passes the entry checks. -/

namespace Sys2Proof.Machine

@[simp] theorem firstFail_nil : firstFail [] = none := rfl

@[simp] theorem firstFail_cons_none {b : Bool} {st : Status} {d : Nat} {r : List (Bool × Status × Nat)} :
    firstFail ((b, st, d) :: r) = none ↔ b = false ∧ firstFail r = none := by cases b <;> simp [firstFail]

@[simp] theorem firstFail_append_none {a b : List (Bool × Status × Nat)} :
    firstFail (a ++ b) = none ↔ firstFail a = none ∧ firstFail b = none := by
  induction a with
  | nil => simp [firstFail]
  | cons c r ih => obtain ⟨x, st, d⟩ := c; cases x <;> simp [firstFail, ih]

/-- Every opcode of Table 03-4 is read back as its command. -/
theorem ofCode_code (o : Op) : Op.ofCode o.code = some o := by cases o <;> decide

theorem find_noVital {s s' : State} {v : Via} {rt : Route} {p : List Byte} {arr : Nat × Nat} (h : s.find v = .packet rt p arr s') :
    ∀ q f, v ≠ .vital q f := by
  rintro q f rfl; simp [State.find] at h

theorem headChecks_good {s : State} {rt : Route} {o : Op} {p : List Byte} (h : GoodHeader s rt o p) :
    firstFail (s.headChecks (rt.ctx?.getD 66) p) = none := by
  simp [State.headChecks, formChecks, firstFail_cons_none, firstFail_nil, h.version, h.kind, h.flags,
    h.source, h.epoch, ← h.length, h.size]

@[simp] theorem State.accepted_live (s : State) (i : Nat) : (s.accepted i).live = s.live := rfl
@[simp] theorem State.accepted_cache (s : State) (i : Nat) : ((s.accepted i).ctx i).cache =
    (s.ctx i).cache := by simp [State.accepted]
@[simp] theorem State.accepted_floor (s : State) (i : Nat) : ((s.accepted i).ctx i).floor =
    (s.ctx i).floor := by simp [State.accepted]

theorem cacheCheck_fresh {s : State} {rt : Route} {i : Nat} {p d : List Byte} (hi : rt.ctx?.getD 66 = i)
    (h : FreshId (s.accepted i) rt p) : s.cacheCheck i p d = .accept := by
  subst hi
  replace h : FreshId s rt p := ⟨by simpa using h.cache, by simpa using h.live, by simpa using h.floor⟩
  have h1 : (s.ctx (rt.ctx?.getD 66)).cache.find? (fun e => e.id == hdrId p) = none := by
    simpa [List.find?_eq_none] using h.cache
  have h2 : s.live.find? (fun l => l.rq.route.ctx? == some (rt.ctx?.getD 66) && hdrId l.rq.hdr == hdrId p) = none := by
    simp only [List.find?_eq_none, Bool.and_eq_true, beq_iff_eq, not_and]
    exact fun l hl hc => h.live l hl hc
  unfold State.cacheCheck
  simp only [h1, h2]
  split
  · next f hf => rw [if_neg (Nat.not_le.mpr (h.floor f hf))]
  · rfl

theorem stepChecks_open {s : State} {rt : Route} {o : Op} {p : List Byte} (h : Open s rt o p) :
    firstFail (s.stepChecks rt o (p.drop 16)) = none := by
  have hl : (o == Op.ceremonyStart && s.tam.life == .locked && decide (3 ∉ ceremonyStates (at8 (p.drop 16) 0))) = false := by
    have e : at8 (p.drop 16) 0 = at8 p 16 := by simp [at8]
    rw [e]
    have := h.locked
    grind
  have hh : (s.pow.halted && !o.runsHalted) = false := by
    cases hp : s.pow.halted
    · rfl
    · simp [h.runs hp]
  have hr : (decide (256 < s.evr.staged.length + s.roomHeld + o.room) && decide (0 < o.room)) = false := by
    rw [decide_eq_false (Nat.not_lt.mpr h.room)]; rfl
  simp only [State.stepChecks, State.lifeChecks, State.roomChecks, List.cons_append, firstFail_cons_none, firstFail_append_none,
    h.awake, h.level, h.life, h.slice, hl, hh, hr, firstFail_nil, Bool.not_true, Bool.or_false, and_self]

/-- An execution that meets no internal fault is the command's own part. -/
theorem sound_intact {s : State} {rq : Rq} {k : Act} (h : rq.x.intact = true) : Act.sound s rq k = k := by
  simp only [Ext.intact, Bool.and_eq_true, Option.isNone_iff_eq_none, Bool.not_eq_true'] at h
  simp [Act.sound, h.1, h.2]

/-- A double-bit error in the firmware area ends an execution (R193). -/
theorem sound_firmware {s : State} {rq : Rq} {k : Act} {a : Nat} (h : rq.x.fwError = some a) :
    Act.sound s rq k = .refuse ((s.meet [a] [⟨a, 1⟩]).wmEcc rq.route.origin .command a) .fault 0x0042 := by
  simp [Act.sound, h]

/-- An internal fault ends an execution without effect (R122). -/
theorem sound_fault {s : State} {rq : Rq} {k : Act} (h : rq.x.fwError = none) (hf : rq.x.fault = true) :
    Act.sound s rq k = .refuse s .fault 0 := by simp [Act.sound, h, hf]

/-- An execution that meets no double-bit error flags no word. -/
@[simp] theorem meet_nil (s : State) (rs : List Ref) : s.meet [] rs = s := rfl

/-- A request that passes the entry checks of Table 03-6 is executed. -/
theorem request_sound {s t : State} {v : Via} {o : Op} {rt : Route} {p : List Byte} {arr : Nat × Nat}
    (h : Arrives s v o rt p arr t) (x : Ext)
    (mine : Op → List Byte → Bool) (run : Rq → State → Act) (hm : mine o (p.drop 16) = true) :
    s.request v x mine run
      = (Act.sound t (t.request? rt p arr o x) (run (t.request? rt p arr o x) t)).settle t.evr.next (t.request? rt p arr o x) := by
  obtain ⟨⟨s', hf, rfl, hc, hg⟩, hfresh, hop⟩ := h
  have hv := find_noVital hf
  have hcode : Op.ofCode (hdrOpcode p) = some o := by rw [hg.opcode, ofCode_code]
  have hex : ∀ u, u = s'.charged rt → u.execute rt p (digestOf p) arr x run
      = (Act.sound u (u.request? rt p arr o x) (run (u.request? rt p arr o x) u)).settle u.evr.next (u.request? rt p arr o x) := by
    rintro u rfl
    simp only [State.execute, hcode, stepChecks_open hop, State.request?]
    split
    · rfl
    · next n hn => simp [hop.rules n hn]
  have ht : s'.takeIn rt p arr x run = (Act.sound (s'.charged rt) ((s'.charged rt).request? rt p arr o x)
      (run ((s'.charged rt).request? rt p arr o x) (s'.charged rt))).settle (s'.charged rt).evr.next
      ((s'.charged rt).request? rt p arr o x) := by
    have hh := headChecks_good hg
    cases rt with
    | ring ow idx ad cap px =>
      simp only [State.takeIn, hh, State.fromCache]
      simp only [State.charged, State.paid] at hfresh hex ⊢
      rw [cacheCheck_fresh rfl hfresh]; exact hex _ rfl
    | push n w =>
      simp only [State.takeIn, hh]
      have : (s'.ctx n).credits ≠ 0 := Nat.pos_iff_ne_zero.mp hc
      simp only [Route.ctx?, Option.getD_some, this, if_false, State.fromCache]
      have e := cacheCheck_fresh (d := digestOf p) rfl hfresh
      simp only [Route.ctx?, Option.getD_some, State.paid] at e
      rw [e]; exact hex _ rfl
    | console =>
      simp only [State.takeIn, hh]
      have e := cacheCheck_fresh (d := digestOf p) rfl hfresh
      simp only [State.charged, State.paid] at e hex ⊢
      have hi : Route.console.ctx?.getD 66 = 65 := rfl
      simp only [hi] at e ⊢
      rw [if_neg (by rw [show (s'.live.any fun l => l.rq.route.ctx? == some 65) = false from hc]; exact Bool.false_ne_true)]
      simp only [State.fromCache, e]; exact hex _ rfl
    | vital q al => exact hc.elim
  rw [← ht]
  cases v with
  | ring o' => simp only [State.request, hf, hcode, hm, if_true]
  | push n w tlp => simp only [State.request, hf, hcode, hm, if_true]
  | console => simp only [State.request, hf, hcode, hm, if_true]
  | vital q f => exact absurd rfl (hv q f)

/-- A request that passes the entry checks of Table 03-6 and meets no internal fault runs its command's part. -/
theorem request_arrives {s t : State} {v : Via} {o : Op} {rt : Route} {p : List Byte} {arr : Nat × Nat}
    (h : Arrives s v o rt p arr t) {x : Ext}
    (hx : x.intact = true) (mine : Op → List Byte → Bool) (run : Rq → State → Act) (hm : mine o (p.drop 16) = true) :
    s.request v x mine run = (run (t.request? rt p arr o x) t).settle t.evr.next (t.request? rt p arr o x) := by
  rw [request_sound h x mine run hm, sound_intact (rq := t.request? rt p arr o x) hx]

/-! ### The request that an arrival gives, and the steps of a command's own part -/

@[simp] theorem request?_body (t : State) (rt p arr o x) : (t.request? rt p arr o x).body = p.drop 16 := rfl
@[simp] theorem request?_route (t : State) (rt p arr o x) : (t.request? rt p arr o x).route = rt := rfl
@[simp] theorem request?_op (t : State) (rt p arr o x) : (t.request? rt p arr o x).op = o := rfl
@[simp] theorem request?_x (t : State) (rt p arr o x) : (t.request? rt p arr o x).x = x := rfl
@[simp] theorem request?_past (t : State) (rt p arr o x) : (t.request? rt p arr o x).past = false := rfl
@[simp] theorem request?_ev (t : State) (rt p arr o x) : (t.request? rt p arr o x).ev = false := rfl
@[simp] theorem request?_owner (t : State) (rt p arr o x) : (t.request? rt p arr o x).owner = rt.tenant.getD 0xFF := rfl
@[simp] theorem request?_ctx (t : State) (rt p arr o x) : (t.request? rt p arr o x).ctx = rt.ctx?.getD 66 := rfl
theorem guard_none {s : State} {cs k} (h : firstFail cs = none) : Act.guard s cs k = k := by simp [Act.guard, h]
@[simp] theorem slice_drop (p : List Byte) (k i n : Nat) : slice (p.drop k) i n = slice p (k + i) n := by
  simp [slice, List.drop_drop]
@[simp] theorem at8_drop (p : List Byte) (k i : Nat) : at8 (p.drop k) i = at8 p (k + i) := by simp [at8]
@[simp] theorem zeroAt_drop (p : List Byte) (k i n : Nat) : zeroAt (p.drop k) i n = zeroAt p (k + i) n := by simp [zeroAt]
@[simp] theorem fld_drop (p : List Byte) (k i n : Nat) : fld (p.drop k) i n = fld p (k + i) n := by simp [fld]
@[simp] theorem fldLe_drop (p : List Byte) (k i n : Nat) : fldLe (p.drop k) i n = fldLe p (k + i) n := by simp [fldLe]
@[simp] theorem descAt_drop (p : List Byte) (k i : Nat) : descAt (p.drop k) i = descAt p (k + i) := by
  simp [descAt, Nat.add_assoc]
@[simp] theorem descAbsent_drop (p : List Byte) (k i : Nat) : descAbsent (p.drop k) i = descAbsent p
    (k + i) := by simp [descAbsent]
@[simp] theorem settle_of_done (n rq st d p) (s : State) : (Act.done st d p s).settle n rq =
    (s.closePart rq st).complete rq (s.evr.next != n) st d p := rfl
@[simp] theorem settle_of_park (n rq j) (s : State) : (Act.park j s).settle n rq = s.hold n rq j := rfl
@[simp] theorem settle_of_refuse (n rq st d) (s : State) : (Act.refuse s st d).settle n rq =
    (s.closePart rq st).complete rq (s.evr.next != n) st d [] := rfl
@[simp] theorem State.closePart_ok (s : State) (rq : Rq) : s.closePart rq .ok = s := by simp [State.closePart]
@[simp] theorem State.closePart_busy (s : State) (rq : Rq) : s.closePart rq .busy = s := by simp [State.closePart]
/-- Only SEAL.UPDATE and SEAL.FINAL end a stream by failing (R403). -/
theorem State.closePart_other {s : State} {rq : Rq} {st : Status} (h : rq.op ≠ .sealUpdate) (h' : rq.op ≠ .sealFinal) :
    s.closePart rq st = s := by simp [State.closePart, h, h']
theorem needStamp_issuing {s : State} (h : s.ph.issuing = true) : s.needStamp = [] := by
  unfold State.needStamp; unfold Phase.issuing at h; cases hs : s.ph.st <;> simp_all

theorem completes {c : Instr} {s t : State} {v : Via} {o : Op} {rt : Route} {p : List Byte} {arr : Nat × Nat} {x : Ext}
    {mine : Op → List Byte → Bool} {run : Rq → State → Act} {payload : List Byte} {u : State}
    (hc : exec c s = .next (s.request v x mine run)) (h : Arrives s v o rt p arr t) (hm : mine o (p.drop 16) = true)
    (hr : run (t.request? rt p arr o x) t = .done .ok 0 payload u) : Completes c s t (t.request? rt p arr o x) payload u := by
  intro hx; rw [hc, request_arrives h (x := x) hx _ _ hm, hr]; simp

theorem staysInFlight {c : Instr} {s t : State} {v : Via} {o : Op} {rt : Route} {p : List Byte} {arr : Nat × Nat} {x : Ext}
    {mine : Op → List Byte → Bool} {run : Rq → State → Act} {j : Job} {u : State}
    (hc : exec c s = .next (s.request v x mine run)) (h : Arrives s v o rt p arr t) (hm : mine o (p.drop 16) = true)
    (hr : run (t.request? rt p arr o x) t = .park j u) : StaysInFlight c s t (t.request? rt p arr o x) j u := by
  intro hx; rw [hc, request_arrives h (x := x) hx _ _ hm, hr]; rfl

theorem refuses {c : Instr} {s t : State} {v : Via} {o : Op} {rt : Route} {p : List Byte} {arr : Nat × Nat} {x : Ext}
    {mine : Op → List Byte → Bool} {run : Rq → State → Act} {st : Status} {d : Nat}
    (hc : exec c s = .next (s.request v x mine run)) (h : Arrives s v o rt p arr t) (hm : mine o (p.drop 16) = true)
    (hr : run (t.request? rt p arr o x) t = .refuse t st d) : Refuses c s t (t.request? rt p arr o x) st d := by
  intro hx; rw [hc, request_arrives h (x := x) hx _ _ hm, hr]; simp [Act.refuse, Act.settle]

/-! ### The shared steps of commands -/

/-- A decision taken twice whose results agree goes on after its drawn delay (R523). -/
theorem twice_agrees {s : State} {rq : Rq} {kind subject : Nat} {k : State → Act} (h : rq.x.split = false) :
    Act.twice s rq kind subject k = k s.drewDelay := by simp [Act.twice, h]

/-- A decision taken twice whose results disagree waits for the restart (R525). -/
theorem twice_splits {s : State} {rq : Rq} {kind subject : Nat} {k : State → Act} (h : rq.x.split = true) :
    Act.twice s rq kind subject k = .park .restart (s.drewDelay.splitDecision kind subject rq.route.origin) := by
  simp [Act.twice, h]

/-- A command goes on with a key that the cache holds, when its entry shows no double-bit error (R339). -/
theorem withKey_cached {s : State} {rq : Rq} {k : Nat} {key : Key} {f : Key → State → Act}
    (h : s.cachedKey rq.owner k = some key) (he : k ∉ rq.x.keyErrs) : Act.withKey s rq k f = f key (s.touchKey k) := by
  simp [Act.withKey, h, he]

/-- A double-bit error in the cache entry of a key clears the entry, and the command waits for the reload (R358). -/
theorem withKey_reloads {s : State} {rq : Rq} {k : Nat} {key : Key} {f : Key → State → Act}
    (h : s.cachedKey rq.owner k = some key) (he : k ∈ rq.x.keyErrs) :
    Act.withKey s rq k f = .park (.held (.key k)) (s.dropCache k) := by simp [Act.withKey, h, he]

/-- A command waits for a key that the cache lacks (R339). -/
theorem withKey_waits {s : State} {rq : Rq} {k : Nat} {f : Key → State → Act} (h : s.cachedKey rq.owner k = none) :
    Act.withKey s rq k f = .park (.held (.key k)) s := by simp [Act.withKey, h]

/-- A command goes on with the input it reads (R157). -/
theorem withInput_data {s : State} {rq : Rq} {i : Nat} {d : Desc} {f : List Byte → State → Act} {bs : List Byte}
    (h : s.input rq i d = .data bs) : Act.withInput s rq i d f = f bs (s.didInput rq d) := by simp [Act.withInput, h]

end Sys2Proof.Machine
end

