-- ==== Sys2Proof/Laws/Arrive.lean ====
section
/-! SUPPORT. Requests and frames that arrive, by evaluation: Bool forms of the entry checks, and a request fetched from a ring. -/

namespace Sys2Proof.Machine

/-- `GoodHeader` by evaluation. -/
def goodHeaderB (s : State) (rt : Route) (o : Op) (p : List Byte) : Bool :=
  hdrVersion p == 1 && hdrKind p == 1 && hdrOpcode p == o.code && p.length == 16 + hdrLength p && decide (p.length ≤ 4096)
    && hdrFlags p / 2 == 0 && hdrSource p == ctxSource (rt.ctx?.getD 66) && hdrEpoch p == (s.ctx (rt.ctx?.getD 66)).epoch

/-- `FreshId` by evaluation. -/
def freshIdB (s : State) (rt : Route) (p : List Byte) : Bool :=
  let c := s.ctx (rt.ctx?.getD 66)
  c.cache.all (fun e => e.id != hdrId p)
    && s.live.all (fun l => l.rq.route.ctx? != some (rt.ctx?.getD 66) || hdrId l.rq.hdr != hdrId p)
    && (match c.floor with
      | none => true
      | some f => decide (f < hdrId p))

/-- `Open` by evaluation. -/
def openB (s : State) (rt : Route) (o : Op) (p : List Byte) : Bool :=
  !s.pow.warned && (firstFail (accessChecks rt o)).isNone && o.runsIn s.tam.life
    && (s.tam.life != .locked || o != .ceremonyStart || decide (3 ∈ ceremonyStates (at8 p 16)))
    && (!s.pow.halted || o.runsHalted) && (firstFail (s.sliceChecks rt o)).isNone
    && (match rt.tenant with
      | none => true
      | some n => !s.ruleChange n)
    && decide (s.evr.staged.length + s.roomHeld + o.room ≤ 256)

theorem goodHeader_of {s : State} {rt : Route} {o : Op} {p : List Byte} (h : goodHeaderB s rt o p = true) :
    GoodHeader s rt o p := by
  simp only [goodHeaderB, Bool.and_eq_true, beq_iff_eq, decide_eq_true_eq] at h
  obtain ⟨⟨⟨⟨⟨⟨⟨h1, h2⟩, h3⟩, h4⟩, h5⟩, h6⟩, h7⟩, h8⟩ := h
  exact ⟨h1, h2, h3, h4, h5, h6, h7, h8⟩

theorem freshId_of {s : State} {rt : Route} {p : List Byte} (h : freshIdB s rt p = true) : FreshId s rt p := by
  simp only [freshIdB, Bool.and_eq_true, List.all_eq_true, bne_iff_ne, Bool.or_eq_true] at h
  obtain ⟨⟨h1, h2⟩, h3⟩ := h
  refine ⟨h1, fun l hl hc => ?_, fun f hf => ?_⟩
  · rcases h2 l hl with h | h
    · exact absurd hc h
    · exact h
  · rw [hf] at h3; simpa using h3

theorem open_of {s : State} {rt : Route} {o : Op} {p : List Byte} (h : openB s rt o p = true) : Open s rt o p := by
  simp only [openB, Bool.and_eq_true, Bool.or_eq_true, Bool.not_eq_true', Option.isNone_iff_eq_none, bne_iff_ne,
    decide_eq_true_eq] at h
  obtain ⟨⟨⟨⟨⟨⟨⟨h1, h2⟩, h3⟩, h4⟩, h5⟩, h6⟩, h7⟩, h8⟩ := h
  refine ⟨h1, h2, h3, fun hl ho => ?_, fun hh => ?_, h6, fun n hn => ?_, h8⟩
  · rcases h4 with (h | h) | h
    · exact absurd hl h
    · exact absurd ho h
    · exact h
  · rcases h5 with h | h
    · rw [hh] at h; exact absurd h Bool.true_eq_false_eq_False
    · exact h
  · rw [hn] at h7; simpa using h7

/-- A packet of a context: header of Table 03-1 with ID 1, and a payload. -/
def packetFrom (s : State) (i : Nat) (o : Op) (b : List Byte) : List Byte :=
  [1#8, 1#8] ++ be 2 o.code ++ be 5 1 ++ be 3 (s.ctx i).epoch ++ [byte (ctxSource i), 0#8] ++ be 2 b.length ++ b

/-- The route of a request at entry 0 of a submission ring, with room for the largest reply. -/
def ringRoute (w : Owner) : Route := .ring w 0 0x1000 4096 0

/-- The state with one request of an owner fetched from its ring. -/
def State.asks (s : State) (w : Owner) (o : Op) (b : List Byte) : State :=
  s.setCtx (ownerIdx w) { s.ctx (ownerIdx w) with inbox := [⟨0, 0x1000, 4096, 0, packetFrom s (ownerIdx w) o b, s.ph.c,
    s.ph.phi⟩] }

/-- The state once that request has been taken from those fetched. -/
def State.taking (s : State) (w : Owner) (o : Op) (b : List Byte) : State :=
  (s.asks w o b).setCtx (ownerIdx w) { (s.asks w o b).ctx (ownerIdx w) with inbox := [] }

/-- The state in which that request runs. -/
def State.served (s : State) (w : Owner) (o : Op) (b : List Byte) : State := (s.taking w o b).accepted (ownerIdx w)

/-- A request fetched from a ring arrives when its entry checks evaluate to true. -/
theorem arrives_of (s : State) (w : Owner) (o : Op) (b : List Byte)
    (h : (ownerOk w && goodHeaderB (s.served w o b) (ringRoute w) o (packetFrom s (ownerIdx w) o b)
      && freshIdB (s.served w o b) (ringRoute w) (packetFrom s (ownerIdx w) o b)
      && openB (s.served w o b) (ringRoute w) o (packetFrom s (ownerIdx w) o b)) = true) :
    Arrives (s.asks w o b) (.ring w) o (ringRoute w) (packetFrom s (ownerIdx w) o b) s.ph.at (s.served w o b) := by
  simp only [Bool.and_eq_true] at h
  obtain ⟨⟨⟨h1, h2⟩, h3⟩, h4⟩ := h
  have hg := goodHeader_of h2
  have hc : (ringRoute w).ctx?.getD 66 = ownerIdx w := by cases w <;> rfl
  have ht : (s.taking w o b).charged (ringRoute w) = s.served w o b := by unfold State.charged State.served; rw [hc]; rfl
  have he : hdrEpoch (packetFrom s (ownerIdx w) o b) = ((s.taking w o b).ctx ((ringRoute w).ctx?.getD 66)).epoch := by
    rw [hg.epoch, hc]; simp [State.served, State.accepted]
  refine ⟨⟨s.taking w o b, ?_, ht.symm, trivial,
    ⟨hg.version, hg.kind, hg.opcode, hg.length, hg.size, hg.flags, hg.source, he⟩⟩, freshId_of h3, open_of h4⟩
  have hi : ((s.asks w o b).ctx (ownerIdx w)).inbox = [⟨0, 0x1000, 4096, 0, packetFrom s (ownerIdx w) o b, s.ph.c, s.ph.phi⟩] := by
    unfold State.asks State.ctx State.setCtx; rw [Tbl.get_put_same]
  simp only [State.find, hi, h1]
  rfl

/-! ### Payloads that are not known byte by byte -/

theorem at8_append {h b : List Byte} {i : Nat} (hi : i < h.length) : at8 (h ++ b) i = at8 h i := by
  simp [at8, List.getElem?_append_left hi]

theorem fld_append {h b : List Byte} {i k : Nat} (hi : i + k ≤ h.length) : fld (h ++ b) i k = fld h i k := by
  simp only [fld, slice]
  rw [List.drop_append_of_le_length (by omega), List.take_append_of_le_length (by simp; omega)]

/-- The header that `packetFrom` puts before a payload of `n` bytes. -/
def headerFrom (s : State) (i : Nat) (o : Op) (n : Nat) : List Byte :=
  [1#8, 1#8] ++ be 2 o.code ++ be 5 1 ++ be 3 (s.ctx i).epoch ++ [byte (ctxSource i), 0#8] ++ be 2 n

theorem packetFrom_eq (s : State) (i : Nat) (o : Op) (b : List Byte) :
    packetFrom s i o b = headerFrom s i o b.length ++ b := rfl

theorem headerFrom_length (s : State) (i : Nat) (o : Op) (n : Nat) : (headerFrom s i o n).length = 16 := rfl

/-- The payload of such a packet. -/
@[simp] theorem packetFrom_drop (s : State) (i : Nat) (o : Op) (b : List Byte) : (packetFrom s i o b).drop 16 = b := by
  rw [packetFrom_eq]; exact List.drop_left' (headerFrom_length ..)

@[simp] theorem packetFrom_length (s : State) (i : Nat) (o : Op) (b : List Byte) :
    (packetFrom s i o b).length = 16 + b.length := by
  rw [packetFrom_eq, List.length_append, headerFrom_length]

/-- The entry checks of a packet, as far as they read its header and its length. -/
def headerOkB (s : State) (rt : Route) (o : Op) (h : List Byte) (n : Nat) : Bool :=
  hdrVersion h == 1 && hdrKind h == 1 && hdrOpcode h == o.code && hdrLength h == n && decide (16 + n ≤ 4096)
    && hdrFlags h / 2 == 0 && hdrSource h == ctxSource (rt.ctx?.getD 66) && hdrEpoch h == (s.ctx (rt.ctx?.getD 66)).epoch
    && o != .ceremonyStart

/-- The state with the submission ring of an owner read to its end. -/
def State.quietly (s : State) (w : Owner) : State :=
  (s.setCtx (ownerIdx w) { s.ctx (ownerIdx w) with inbox := [] }).accepted (ownerIdx w)

theorem Tbl.del_ins (m : Tbl α) (k : Nat) (v : α) : (Tbl.ins k v m).del k = m.del k := by
  induction m with
  | nil => simp [Tbl.ins, Tbl.del]
  | cons e m ih =>
    simp only [Tbl.ins]
    split
    · simp [Tbl.del]
    · simp only [Tbl.del] at ih ⊢
      simp [List.filter_cons, ih]

theorem Tbl.del_del (m : Tbl α) (k : Nat) : (m.del k).del k = m.del k := by simp [Tbl.del]

theorem Tbl.put_put [DecidableEq α] (d : α) (m : Tbl α) (k : Nat) (v w : α) : (m.put d k v).put d k w = m.put d k w := by
  have h : (m.put d k v).del k = m.del k := by
    unfold Tbl.put; split
    · exact Tbl.del_del m k
    · rw [Tbl.del_ins, Tbl.del_del]
  show (if w = d then (m.put d k v).del k else Tbl.ins k w ((m.put d k v).del k)) = _
  rw [h]; rfl

/-- The state in which a ring request runs does not depend on its packet. -/
theorem served_quietly (s : State) (w : Owner) (o : Op) (b : List Byte) : s.served w o b = s.quietly w := by
  have hc : { (s.asks w o b).ctx (ownerIdx w) with inbox := [] } = { s.ctx (ownerIdx w) with inbox := [] } := by
    unfold State.asks State.ctx State.setCtx; rw [Tbl.get_put_same]
  have ht : s.taking w o b = s.setCtx (ownerIdx w) { s.ctx (ownerIdx w) with inbox := [] } := by
    unfold State.taking
    rw [hc]
    unfold State.asks State.setCtx
    simp only [Tbl.put_put]
  unfold State.served State.quietly
  rw [ht]

/-- A request of an owner arrives whose payload has a known length, when the checks of its header evaluate to true and the
module takes requests of its kind. -/
theorem arrives_data (s : State) (w : Owner) (o : Op) (b : List Byte) (n : Nat) (hn : b.length = n)
    (h : (ownerOk w && headerOkB (s.quietly w) (ringRoute w) o (headerFrom s (ownerIdx w) o n) n
      && freshIdB (s.quietly w) (ringRoute w) (headerFrom s (ownerIdx w) o n)
      && openB (s.quietly w) (ringRoute w) o (headerFrom s (ownerIdx w) o n)) = true) :
    Arrives (s.asks w o b) (.ring w) o (ringRoute w) (packetFrom s (ownerIdx w) o b) s.ph.at (s.served w o b) := by
  subst hn
  apply arrives_of
  rw [served_quietly, packetFrom_eq]
  simp only [Bool.and_eq_true] at h ⊢
  obtain ⟨⟨⟨h1, h2⟩, h3⟩, h4⟩ := h
  have hl := headerFrom_length s (ownerIdx w) o b.length
  generalize headerFrom s (ownerIdx w) o b.length = hd at *
  simp only [headerOkB, Bool.and_eq_true, bne_iff_ne] at h2
  obtain ⟨⟨⟨⟨⟨⟨⟨⟨a1, a2⟩, a3⟩, a4⟩, a5⟩, a6⟩, a7⟩, a8⟩, a9⟩ := h2
  have e4 : hdrId (hd ++ b) = hdrId hd := fld_append (by omega)
  refine ⟨⟨⟨h1, ?_⟩, ?_⟩, ?_⟩
  · simp only [goodHeaderB, Bool.and_eq_true]
    have e1 : hdrVersion (hd ++ b) = hdrVersion hd := at8_append (by omega)
    have e2 : hdrKind (hd ++ b) = hdrKind hd := at8_append (by omega)
    have e3 : hdrOpcode (hd ++ b) = hdrOpcode hd := fld_append (by omega)
    have e5 : hdrEpoch (hd ++ b) = hdrEpoch hd := fld_append (by omega)
    have e6 : hdrSource (hd ++ b) = hdrSource hd := at8_append (by omega)
    have e7 : hdrFlags (hd ++ b) = hdrFlags hd := at8_append (by omega)
    have e8 : hdrLength (hd ++ b) = hdrLength hd := fld_append (by omega)
    rw [e1, e2, e3, e5, e6, e7, e8]
    have hlen : (hd ++ b).length = 16 + b.length := by rw [List.length_append, hl]
    rw [hlen]
    exact ⟨⟨⟨⟨⟨⟨⟨a1, a2⟩, a3⟩, by rw [beq_iff_eq] at a4 ⊢; omega⟩, a5⟩, a6⟩, a7⟩, a8⟩
  · simp only [freshIdB, e4] at h3 ⊢; exact h3
  · have hne : (o != .ceremonyStart) = true := by simpa using a9
    simp only [openB, hne, Bool.true_or, Bool.or_true] at h4 ⊢
    exact h4

end Sys2Proof.Machine
end

