-- ==== Sys2Proof/Laws/Frame.lean ====
section
/-! SUPPORT. What each shared operation leaves unchanged. -/

namespace Sys2Proof.Machine

theorem foldl_keep {α σ γ : Type} {g : σ → γ} {f : σ → α → σ} (h : ∀ s a, g (f s a) = g s) (l : List α) (s : σ) :
    g (l.foldl f s) = g s := by
  induction l generalizing s with
  | nil => rfl
  | cons a r ih => rw [List.foldl_cons, ih, h]

theorem times_keep {σ γ : Type} {g : σ → γ} {f : σ → σ} (h : ∀ s, g (f s) = g s) (n : Nat) (s : σ) :
    g (times f n s) = g s := by
  induction n generalizing s with
  | zero => rfl
  | succ n ih => rw [times, ih, h]

/-! ### Projections of a choice and of a fold -/

@[simp] theorem State.ite_pending (c : Prop) [Decidable c] (s t : State) :
    (if c then s else t).pending = if c then s.pending else t.pending := apply_ite State.pending c s t

@[simp] theorem State.foldl_pending {α : Type} {f : State → α → State} (h : ∀ s a, (f s a).pending = s.pending) (l : List α)
    (s : State) : (l.foldl f s).pending = s.pending := foldl_keep h l s

@[simp] theorem State.ite_ph (c : Prop) [Decidable c] (s t : State) :
    (if c then s else t).ph = if c then s.ph else t.ph := apply_ite State.ph c s t

@[simp] theorem State.foldl_ph {α : Type} {f : State → α → State} (h : ∀ s a, (f s a).ph = s.ph) (l : List α)
    (s : State) : (l.foldl f s).ph = s.ph := foldl_keep h l s

@[simp] theorem State.ite_ctxs (c : Prop) [Decidable c] (s t : State) :
    (if c then s else t).ctxs = if c then s.ctxs else t.ctxs := apply_ite State.ctxs c s t

@[simp] theorem State.foldl_ctxs {α : Type} {f : State → α → State} (h : ∀ s a, (f s a).ctxs = s.ctxs) (l : List α)
    (s : State) : (l.foldl f s).ctxs = s.ctxs := foldl_keep h l s

@[simp] theorem State.ite_live (c : Prop) [Decidable c] (s t : State) :
    (if c then s else t).live = if c then s.live else t.live := apply_ite State.live c s t

@[simp] theorem State.foldl_live {α : Type} {f : State → α → State} (h : ∀ s a, (f s a).live = s.live) (l : List α)
    (s : State) : (l.foldl f s).live = s.live := foldl_keep h l s

@[simp] theorem State.ite_hp (c : Prop) [Decidable c] (s t : State) :
    (if c then s else t).hp = if c then s.hp else t.hp := apply_ite State.hp c s t

@[simp] theorem State.foldl_hp {α : Type} {f : State → α → State} (h : ∀ s a, (f s a).hp = s.hp) (l : List α)
    (s : State) : (l.foldl f s).hp = s.hp := foldl_keep h l s

@[simp] theorem State.ite_wm (c : Prop) [Decidable c] (s t : State) :
    (if c then s else t).wm = if c then s.wm else t.wm := apply_ite State.wm c s t

@[simp] theorem State.foldl_wm {α : Type} {f : State → α → State} (h : ∀ s a, (f s a).wm = s.wm) (l : List α)
    (s : State) : (l.foldl f s).wm = s.wm := foldl_keep h l s

@[simp] theorem State.ite_slices (c : Prop) [Decidable c] (s t : State) :
    (if c then s else t).slices = if c then s.slices else t.slices := apply_ite State.slices c s t

@[simp] theorem State.foldl_slices {α : Type} {f : State → α → State} (h : ∀ s a, (f s a).slices = s.slices) (l : List α)
    (s : State) : (l.foldl f s).slices = s.slices := foldl_keep h l s

@[simp] theorem State.ite_chans (c : Prop) [Decidable c] (s t : State) :
    (if c then s else t).chans = if c then s.chans else t.chans := apply_ite State.chans c s t

@[simp] theorem State.foldl_chans {α : Type} {f : State → α → State} (h : ∀ s a, (f s a).chans = s.chans) (l : List α)
    (s : State) : (l.foldl f s).chans = s.chans := foldl_keep h l s

@[simp] theorem State.ite_cached (c : Prop) [Decidable c] (s t : State) :
    (if c then s else t).cached = if c then s.cached else t.cached := apply_ite State.cached c s t

@[simp] theorem State.foldl_cached {α : Type} {f : State → α → State} (h : ∀ s a, (f s a).cached = s.cached) (l : List α)
    (s : State) : (l.foldl f s).cached = s.cached := foldl_keep h l s

@[simp] theorem State.ite_table (c : Prop) [Decidable c] (s t : State) :
    (if c then s else t).table = if c then s.table else t.table := apply_ite State.table c s t

@[simp] theorem State.foldl_table {α : Type} {f : State → α → State} (h : ∀ s a, (f s a).table = s.table) (l : List α)
    (s : State) : (l.foldl f s).table = s.table := foldl_keep h l s

@[simp] theorem State.ite_recs (c : Prop) [Decidable c] (s t : State) :
    (if c then s else t).recs = if c then s.recs else t.recs := apply_ite State.recs c s t

@[simp] theorem State.foldl_recs {α : Type} {f : State → α → State} (h : ∀ s a, (f s a).recs = s.recs) (l : List α)
    (s : State) : (l.foldl f s).recs = s.recs := foldl_keep h l s

@[simp] theorem State.ite_vpA (c : Prop) [Decidable c] (s t : State) :
    (if c then s else t).vpA = if c then s.vpA else t.vpA := apply_ite State.vpA c s t

@[simp] theorem State.foldl_vpA {α : Type} {f : State → α → State} (h : ∀ s a, (f s a).vpA = s.vpA) (l : List α)
    (s : State) : (l.foldl f s).vpA = s.vpA := foldl_keep h l s

@[simp] theorem State.ite_vpB (c : Prop) [Decidable c] (s t : State) :
    (if c then s else t).vpB = if c then s.vpB else t.vpB := apply_ite State.vpB c s t

@[simp] theorem State.foldl_vpB {α : Type} {f : State → α → State} (h : ∀ s a, (f s a).vpB = s.vpB) (l : List α)
    (s : State) : (l.foldl f s).vpB = s.vpB := foldl_keep h l s

@[simp] theorem State.ite_ks (c : Prop) [Decidable c] (s t : State) :
    (if c then s else t).ks = if c then s.ks else t.ks := apply_ite State.ks c s t

@[simp] theorem State.foldl_ks {α : Type} {f : State → α → State} (h : ∀ s a, (f s a).ks = s.ks) (l : List α)
    (s : State) : (l.foldl f s).ks = s.ks := foldl_keep h l s

@[simp] theorem State.ite_lanes (c : Prop) [Decidable c] (s t : State) :
    (if c then s else t).lanes = if c then s.lanes else t.lanes := apply_ite State.lanes c s t

@[simp] theorem State.foldl_lanes {α : Type} {f : State → α → State} (h : ∀ s a, (f s a).lanes = s.lanes) (l : List α)
    (s : State) : (l.foldl f s).lanes = s.lanes := foldl_keep h l s

@[simp] theorem State.ite_mult (c : Prop) [Decidable c] (s t : State) :
    (if c then s else t).mult = if c then s.mult else t.mult := apply_ite State.mult c s t

@[simp] theorem State.foldl_mult {α : Type} {f : State → α → State} (h : ∀ s a, (f s a).mult = s.mult) (l : List α)
    (s : State) : (l.foldl f s).mult = s.mult := foldl_keep h l s

@[simp] theorem State.ite_evr (c : Prop) [Decidable c] (s t : State) :
    (if c then s else t).evr = if c then s.evr else t.evr := apply_ite State.evr c s t

@[simp] theorem State.foldl_evr {α : Type} {f : State → α → State} (h : ∀ s a, (f s a).evr = s.evr) (l : List α)
    (s : State) : (l.foldl f s).evr = s.evr := foldl_keep h l s

@[simp] theorem State.ite_cus (c : Prop) [Decidable c] (s t : State) :
    (if c then s else t).cus = if c then s.cus else t.cus := apply_ite State.cus c s t

@[simp] theorem State.foldl_cus {α : Type} {f : State → α → State} (h : ∀ s a, (f s a).cus = s.cus) (l : List α)
    (s : State) : (l.foldl f s).cus = s.cus := foldl_keep h l s

@[simp] theorem State.ite_loops (c : Prop) [Decidable c] (s t : State) :
    (if c then s else t).loops = if c then s.loops else t.loops := apply_ite State.loops c s t

@[simp] theorem State.foldl_loops {α : Type} {f : State → α → State} (h : ∀ s a, (f s a).loops = s.loops) (l : List α)
    (s : State) : (l.foldl f s).loops = s.loops := foldl_keep h l s

@[simp] theorem State.ite_tam (c : Prop) [Decidable c] (s t : State) :
    (if c then s else t).tam = if c then s.tam else t.tam := apply_ite State.tam c s t

@[simp] theorem State.foldl_tam {α : Type} {f : State → α → State} (h : ∀ s a, (f s a).tam = s.tam) (l : List α)
    (s : State) : (l.foldl f s).tam = s.tam := foldl_keep h l s

@[simp] theorem State.ite_pow (c : Prop) [Decidable c] (s t : State) :
    (if c then s else t).pow = if c then s.pow else t.pow := apply_ite State.pow c s t

@[simp] theorem State.foldl_pow {α : Type} {f : State → α → State} (h : ∀ s a, (f s a).pow = s.pow) (l : List α)
    (s : State) : (l.foldl f s).pow = s.pow := foldl_keep h l s

@[simp] theorem State.ite_drawn (c : Prop) [Decidable c] (s t : State) :
    (if c then s else t).drawn = if c then s.drawn else t.drawn := apply_ite State.drawn c s t

@[simp] theorem State.foldl_drawn {α : Type} {f : State → α → State} (h : ∀ s a, (f s a).drawn = s.drawn) (l : List α)
    (s : State) : (l.foldl f s).drawn = s.drawn := foldl_keep h l s

@[simp] theorem State.ite_out (c : Prop) [Decidable c] (s t : State) :
    (if c then s else t).out = if c then s.out else t.out := apply_ite State.out c s t

@[simp] theorem State.foldl_out {α : Type} {f : State → α → State} (h : ∀ s a, (f s a).out = s.out) (l : List α)
    (s : State) : (l.foldl f s).out = s.out := foldl_keep h l s

@[simp] theorem State.times_pending {f : State → State} (h : ∀ s, (f s).pending = s.pending) (n : Nat) (s : State) :
    (times f n s).pending = s.pending := times_keep h n s

@[simp] theorem State.times_ph {f : State → State} (h : ∀ s, (f s).ph = s.ph) (n : Nat) (s : State) :
    (times f n s).ph = s.ph := times_keep h n s

@[simp] theorem State.times_ctxs {f : State → State} (h : ∀ s, (f s).ctxs = s.ctxs) (n : Nat) (s : State) :
    (times f n s).ctxs = s.ctxs := times_keep h n s

@[simp] theorem State.times_live {f : State → State} (h : ∀ s, (f s).live = s.live) (n : Nat) (s : State) :
    (times f n s).live = s.live := times_keep h n s

@[simp] theorem State.times_hp {f : State → State} (h : ∀ s, (f s).hp = s.hp) (n : Nat) (s : State) :
    (times f n s).hp = s.hp := times_keep h n s

@[simp] theorem State.times_wm {f : State → State} (h : ∀ s, (f s).wm = s.wm) (n : Nat) (s : State) :
    (times f n s).wm = s.wm := times_keep h n s

@[simp] theorem State.times_slices {f : State → State} (h : ∀ s, (f s).slices = s.slices) (n : Nat) (s : State) :
    (times f n s).slices = s.slices := times_keep h n s

@[simp] theorem State.times_chans {f : State → State} (h : ∀ s, (f s).chans = s.chans) (n : Nat) (s : State) :
    (times f n s).chans = s.chans := times_keep h n s

@[simp] theorem State.times_cached {f : State → State} (h : ∀ s, (f s).cached = s.cached) (n : Nat) (s : State) :
    (times f n s).cached = s.cached := times_keep h n s

@[simp] theorem State.times_table {f : State → State} (h : ∀ s, (f s).table = s.table) (n : Nat) (s : State) :
    (times f n s).table = s.table := times_keep h n s

@[simp] theorem State.times_recs {f : State → State} (h : ∀ s, (f s).recs = s.recs) (n : Nat) (s : State) :
    (times f n s).recs = s.recs := times_keep h n s

@[simp] theorem State.times_vpA {f : State → State} (h : ∀ s, (f s).vpA = s.vpA) (n : Nat) (s : State) :
    (times f n s).vpA = s.vpA := times_keep h n s

@[simp] theorem State.times_vpB {f : State → State} (h : ∀ s, (f s).vpB = s.vpB) (n : Nat) (s : State) :
    (times f n s).vpB = s.vpB := times_keep h n s

@[simp] theorem State.times_ks {f : State → State} (h : ∀ s, (f s).ks = s.ks) (n : Nat) (s : State) :
    (times f n s).ks = s.ks := times_keep h n s

@[simp] theorem State.times_lanes {f : State → State} (h : ∀ s, (f s).lanes = s.lanes) (n : Nat) (s : State) :
    (times f n s).lanes = s.lanes := times_keep h n s

@[simp] theorem State.times_mult {f : State → State} (h : ∀ s, (f s).mult = s.mult) (n : Nat) (s : State) :
    (times f n s).mult = s.mult := times_keep h n s

@[simp] theorem State.times_evr {f : State → State} (h : ∀ s, (f s).evr = s.evr) (n : Nat) (s : State) :
    (times f n s).evr = s.evr := times_keep h n s

@[simp] theorem State.times_cus {f : State → State} (h : ∀ s, (f s).cus = s.cus) (n : Nat) (s : State) :
    (times f n s).cus = s.cus := times_keep h n s

@[simp] theorem State.times_loops {f : State → State} (h : ∀ s, (f s).loops = s.loops) (n : Nat) (s : State) :
    (times f n s).loops = s.loops := times_keep h n s

@[simp] theorem State.times_tam {f : State → State} (h : ∀ s, (f s).tam = s.tam) (n : Nat) (s : State) :
    (times f n s).tam = s.tam := times_keep h n s

@[simp] theorem State.times_pow {f : State → State} (h : ∀ s, (f s).pow = s.pow) (n : Nat) (s : State) :
    (times f n s).pow = s.pow := times_keep h n s

@[simp] theorem State.times_drawn {f : State → State} (h : ∀ s, (f s).drawn = s.drawn) (n : Nat) (s : State) :
    (times f n s).drawn = s.drawn := times_keep h n s

@[simp] theorem State.times_out {f : State → State} (h : ∀ s, (f s).out = s.out) (n : Nat) (s : State) :
    (times f n s).out = s.out := times_keep h n s

/-! ### Operations -/

@[simp] theorem State.setCtx_frame (s : State) (i : Nat) (c : Ctx) : (s.setCtx i c).pending = s.pending ∧ (s.setCtx i c).ph =
    s.ph ∧ (s.setCtx i c).live = s.live ∧ (s.setCtx i c).hp = s.hp ∧ (s.setCtx i c).wm = s.wm ∧ (s.setCtx i c).slices =
    s.slices ∧ (s.setCtx i c).chans = s.chans ∧ (s.setCtx i c).cached = s.cached ∧ (s.setCtx i c).table = s.table ∧ (s.setCtx
    i c).recs = s.recs ∧ (s.setCtx i c).vpA = s.vpA ∧ (s.setCtx i c).vpB = s.vpB ∧ (s.setCtx i c).ks = s.ks ∧ (s.setCtx i
    c).lanes = s.lanes ∧ (s.setCtx i c).mult = s.mult ∧ (s.setCtx i c).evr = s.evr ∧ (s.setCtx i c).cus = s.cus ∧ (s.setCtx i
    c).loops = s.loops ∧ (s.setCtx i c).tam = s.tam ∧ (s.setCtx i c).pow = s.pow ∧ (s.setCtx i c).drawn = s.drawn ∧ (s.setCtx
    i c).out = s.out := by
  refine ⟨?_, ?_, ?_, ?_, ?_, ?_, ?_, ?_, ?_, ?_, ?_, ?_, ?_, ?_, ?_, ?_, ?_, ?_, ?_, ?_, ?_, ?_⟩ <;> rfl

@[simp] theorem State.setSlc_frame (s : State) (n : Nat) (v : Slc) : (s.setSlc n v).pending = s.pending ∧ (s.setSlc n v).ph =
    s.ph ∧ (s.setSlc n v).ctxs = s.ctxs ∧ (s.setSlc n v).live = s.live ∧ (s.setSlc n v).hp = s.hp ∧ (s.setSlc n v).wm = s.wm
    ∧ (s.setSlc n v).chans = s.chans ∧ (s.setSlc n v).cached = s.cached ∧ (s.setSlc n v).table = s.table ∧ (s.setSlc n
    v).recs = s.recs ∧ (s.setSlc n v).vpA = s.vpA ∧ (s.setSlc n v).vpB = s.vpB ∧ (s.setSlc n v).ks = s.ks ∧ (s.setSlc n
    v).lanes = s.lanes ∧ (s.setSlc n v).mult = s.mult ∧ (s.setSlc n v).evr = s.evr ∧ (s.setSlc n v).cus = s.cus ∧ (s.setSlc n
    v).loops = s.loops ∧ (s.setSlc n v).tam = s.tam ∧ (s.setSlc n v).pow = s.pow ∧ (s.setSlc n v).drawn = s.drawn ∧ (s.setSlc
    n v).out = s.out := by
  refine ⟨?_, ?_, ?_, ?_, ?_, ?_, ?_, ?_, ?_, ?_, ?_, ?_, ?_, ?_, ?_, ?_, ?_, ?_, ?_, ?_, ?_, ?_⟩ <;> rfl

@[simp] theorem State.setChan_frame (s : State) (n : Nat) (v : Chan) : (s.setChan n v).pending = s.pending ∧ (s.setChan n
    v).ph = s.ph ∧ (s.setChan n v).ctxs = s.ctxs ∧ (s.setChan n v).live = s.live ∧ (s.setChan n v).hp = s.hp ∧ (s.setChan n
    v).wm = s.wm ∧ (s.setChan n v).slices = s.slices ∧ (s.setChan n v).cached = s.cached ∧ (s.setChan n v).table = s.table ∧
    (s.setChan n v).recs = s.recs ∧ (s.setChan n v).vpA = s.vpA ∧ (s.setChan n v).vpB = s.vpB ∧ (s.setChan n v).ks = s.ks ∧
    (s.setChan n v).lanes = s.lanes ∧ (s.setChan n v).mult = s.mult ∧ (s.setChan n v).evr = s.evr ∧ (s.setChan n v).cus =
    s.cus ∧ (s.setChan n v).loops = s.loops ∧ (s.setChan n v).tam = s.tam ∧ (s.setChan n v).pow = s.pow ∧ (s.setChan n
    v).drawn = s.drawn ∧ (s.setChan n v).out = s.out := by
  refine ⟨?_, ?_, ?_, ?_, ?_, ?_, ?_, ?_, ?_, ?_, ?_, ?_, ?_, ?_, ?_, ?_, ?_, ?_, ?_, ?_, ?_, ?_⟩ <;> rfl

@[simp] theorem State.setLane_frame (s : State) (n : Nat) (v : Lane) : (s.setLane n v).pending = s.pending ∧ (s.setLane n
    v).ph = s.ph ∧ (s.setLane n v).ctxs = s.ctxs ∧ (s.setLane n v).live = s.live ∧ (s.setLane n v).hp = s.hp ∧ (s.setLane n
    v).wm = s.wm ∧ (s.setLane n v).slices = s.slices ∧ (s.setLane n v).chans = s.chans ∧ (s.setLane n v).cached = s.cached ∧
    (s.setLane n v).table = s.table ∧ (s.setLane n v).recs = s.recs ∧ (s.setLane n v).vpA = s.vpA ∧ (s.setLane n v).vpB =
    s.vpB ∧ (s.setLane n v).ks = s.ks ∧ (s.setLane n v).mult = s.mult ∧ (s.setLane n v).evr = s.evr ∧ (s.setLane n v).cus =
    s.cus ∧ (s.setLane n v).loops = s.loops ∧ (s.setLane n v).tam = s.tam ∧ (s.setLane n v).pow = s.pow ∧ (s.setLane n
    v).drawn = s.drawn ∧ (s.setLane n v).out = s.out := by
  refine ⟨?_, ?_, ?_, ?_, ?_, ?_, ?_, ?_, ?_, ?_, ?_, ?_, ?_, ?_, ?_, ?_, ?_, ?_, ?_, ?_, ?_, ?_⟩ <;> rfl

@[simp] theorem State.setLoop_frame (s : State) (n : Nat) (v : Loop) : (s.setLoop n v).pending = s.pending ∧ (s.setLoop n
    v).ph = s.ph ∧ (s.setLoop n v).ctxs = s.ctxs ∧ (s.setLoop n v).live = s.live ∧ (s.setLoop n v).hp = s.hp ∧ (s.setLoop n
    v).wm = s.wm ∧ (s.setLoop n v).slices = s.slices ∧ (s.setLoop n v).chans = s.chans ∧ (s.setLoop n v).cached = s.cached ∧
    (s.setLoop n v).table = s.table ∧ (s.setLoop n v).recs = s.recs ∧ (s.setLoop n v).vpA = s.vpA ∧ (s.setLoop n v).vpB =
    s.vpB ∧ (s.setLoop n v).ks = s.ks ∧ (s.setLoop n v).lanes = s.lanes ∧ (s.setLoop n v).mult = s.mult ∧ (s.setLoop n v).evr
    = s.evr ∧ (s.setLoop n v).cus = s.cus ∧ (s.setLoop n v).tam = s.tam ∧ (s.setLoop n v).pow = s.pow ∧ (s.setLoop n v).drawn
    = s.drawn ∧ (s.setLoop n v).out = s.out := by
  refine ⟨?_, ?_, ?_, ?_, ?_, ?_, ?_, ?_, ?_, ?_, ?_, ?_, ?_, ?_, ?_, ?_, ?_, ?_, ?_, ?_, ?_, ?_⟩ <;> rfl

@[simp] theorem State.setSlot_frame (s : State) (k : Nat) (v : Slot) : (s.setSlot k v).pending = s.pending ∧ (s.setSlot k
    v).ph = s.ph ∧ (s.setSlot k v).ctxs = s.ctxs ∧ (s.setSlot k v).live = s.live ∧ (s.setSlot k v).hp = s.hp ∧ (s.setSlot k
    v).wm = s.wm ∧ (s.setSlot k v).slices = s.slices ∧ (s.setSlot k v).chans = s.chans ∧ (s.setSlot k v).cached = s.cached ∧
    (s.setSlot k v).table = s.table ∧ (s.setSlot k v).recs = s.recs ∧ (s.setSlot k v).vpA = s.vpA ∧ (s.setSlot k v).vpB =
    s.vpB ∧ (s.setSlot k v).lanes = s.lanes ∧ (s.setSlot k v).mult = s.mult ∧ (s.setSlot k v).evr = s.evr ∧ (s.setSlot k
    v).cus = s.cus ∧ (s.setSlot k v).loops = s.loops ∧ (s.setSlot k v).tam = s.tam ∧ (s.setSlot k v).pow = s.pow ∧ (s.setSlot
    k v).drawn = s.drawn ∧ (s.setSlot k v).out = s.out := by
  refine ⟨?_, ?_, ?_, ?_, ?_, ?_, ?_, ?_, ?_, ?_, ?_, ?_, ?_, ?_, ?_, ?_, ?_, ?_, ?_, ?_, ?_, ?_⟩ <;> rfl

@[simp] theorem State.setDpm_frame (s : State) (n : Nat) (v : Dpm) : (s.setDpm n v).pending = s.pending ∧ (s.setDpm n v).ph =
    s.ph ∧ (s.setDpm n v).ctxs = s.ctxs ∧ (s.setDpm n v).live = s.live ∧ (s.setDpm n v).wm = s.wm ∧ (s.setDpm n v).slices =
    s.slices ∧ (s.setDpm n v).chans = s.chans ∧ (s.setDpm n v).cached = s.cached ∧ (s.setDpm n v).table = s.table ∧ (s.setDpm
    n v).recs = s.recs ∧ (s.setDpm n v).vpA = s.vpA ∧ (s.setDpm n v).vpB = s.vpB ∧ (s.setDpm n v).ks = s.ks ∧ (s.setDpm n
    v).lanes = s.lanes ∧ (s.setDpm n v).mult = s.mult ∧ (s.setDpm n v).evr = s.evr ∧ (s.setDpm n v).cus = s.cus ∧ (s.setDpm n
    v).loops = s.loops ∧ (s.setDpm n v).tam = s.tam ∧ (s.setDpm n v).pow = s.pow ∧ (s.setDpm n v).drawn = s.drawn ∧ (s.setDpm
    n v).out = s.out := by
  refine ⟨?_, ?_, ?_, ?_, ?_, ?_, ?_, ?_, ?_, ?_, ?_, ?_, ?_, ?_, ?_, ?_, ?_, ?_, ?_, ?_, ?_, ?_⟩ <;> rfl

@[simp] theorem State.setVp_frame (s : State) (p : Port) (v : Vp) : (s.setVp p v).pending = s.pending ∧ (s.setVp p v).ph =
    s.ph ∧ (s.setVp p v).ctxs = s.ctxs ∧ (s.setVp p v).live = s.live ∧ (s.setVp p v).hp = s.hp ∧ (s.setVp p v).wm = s.wm ∧
    (s.setVp p v).slices = s.slices ∧ (s.setVp p v).chans = s.chans ∧ (s.setVp p v).cached = s.cached ∧ (s.setVp p v).table =
    s.table ∧ (s.setVp p v).recs = s.recs ∧ (s.setVp p v).ks = s.ks ∧ (s.setVp p v).lanes = s.lanes ∧ (s.setVp p v).mult =
    s.mult ∧ (s.setVp p v).evr = s.evr ∧ (s.setVp p v).cus = s.cus ∧ (s.setVp p v).loops = s.loops ∧ (s.setVp p v).tam =
    s.tam ∧ (s.setVp p v).pow = s.pow ∧ (s.setVp p v).drawn = s.drawn ∧ (s.setVp p v).out = s.out := by
  refine ⟨?_, ?_, ?_, ?_, ?_, ?_, ?_, ?_, ?_, ?_, ?_, ?_, ?_, ?_, ?_, ?_, ?_, ?_, ?_, ?_, ?_⟩ <;>
    (unfold State.setVp; (repeat' split) <;> simp)

@[simp] theorem State.setSerial_frame (s : State) (q : Serial) (v : SerialPort) : (s.setSerial q v).pending = s.pending ∧
    (s.setSerial q v).ph = s.ph ∧ (s.setSerial q v).ctxs = s.ctxs ∧ (s.setSerial q v).live = s.live ∧ (s.setSerial q v).hp =
    s.hp ∧ (s.setSerial q v).wm = s.wm ∧ (s.setSerial q v).slices = s.slices ∧ (s.setSerial q v).chans = s.chans ∧
    (s.setSerial q v).cached = s.cached ∧ (s.setSerial q v).table = s.table ∧ (s.setSerial q v).recs = s.recs ∧ (s.setSerial
    q v).vpA = s.vpA ∧ (s.setSerial q v).vpB = s.vpB ∧ (s.setSerial q v).ks = s.ks ∧ (s.setSerial q v).lanes = s.lanes ∧
    (s.setSerial q v).mult = s.mult ∧ (s.setSerial q v).evr = s.evr ∧ (s.setSerial q v).loops = s.loops ∧ (s.setSerial q
    v).tam = s.tam ∧ (s.setSerial q v).pow = s.pow ∧ (s.setSerial q v).drawn = s.drawn ∧ (s.setSerial q v).out = s.out := by
  refine ⟨?_, ?_, ?_, ?_, ?_, ?_, ?_, ?_, ?_, ?_, ?_, ?_, ?_, ?_, ?_, ?_, ?_, ?_, ?_, ?_, ?_, ?_⟩ <;>
    (unfold State.setSerial; (try dsimp only); (repeat' split) <;> simp)

@[simp] theorem State.mapKs_frame (s : State) (f : KeyStore → KeyStore) : (s.mapKs f).pending = s.pending ∧ (s.mapKs f).ph =
    s.ph ∧ (s.mapKs f).ctxs = s.ctxs ∧ (s.mapKs f).live = s.live ∧ (s.mapKs f).hp = s.hp ∧ (s.mapKs f).wm = s.wm ∧ (s.mapKs
    f).slices = s.slices ∧ (s.mapKs f).chans = s.chans ∧ (s.mapKs f).cached = s.cached ∧ (s.mapKs f).table = s.table ∧
    (s.mapKs f).recs = s.recs ∧ (s.mapKs f).vpA = s.vpA ∧ (s.mapKs f).vpB = s.vpB ∧ (s.mapKs f).lanes = s.lanes ∧ (s.mapKs
    f).mult = s.mult ∧ (s.mapKs f).evr = s.evr ∧ (s.mapKs f).cus = s.cus ∧ (s.mapKs f).loops = s.loops ∧ (s.mapKs f).tam =
    s.tam ∧ (s.mapKs f).pow = s.pow ∧ (s.mapKs f).drawn = s.drawn ∧ (s.mapKs f).out = s.out := by
  refine ⟨?_, ?_, ?_, ?_, ?_, ?_, ?_, ?_, ?_, ?_, ?_, ?_, ?_, ?_, ?_, ?_, ?_, ?_, ?_, ?_, ?_, ?_⟩ <;> rfl

@[simp] theorem State.mapPh_frame (s : State) (f : Phase → Phase) : (s.mapPh f).pending = s.pending ∧ (s.mapPh f).ctxs =
    s.ctxs ∧ (s.mapPh f).live = s.live ∧ (s.mapPh f).hp = s.hp ∧ (s.mapPh f).wm = s.wm ∧ (s.mapPh f).slices = s.slices ∧
    (s.mapPh f).chans = s.chans ∧ (s.mapPh f).cached = s.cached ∧ (s.mapPh f).table = s.table ∧ (s.mapPh f).recs = s.recs ∧
    (s.mapPh f).vpA = s.vpA ∧ (s.mapPh f).vpB = s.vpB ∧ (s.mapPh f).ks = s.ks ∧ (s.mapPh f).lanes = s.lanes ∧ (s.mapPh
    f).mult = s.mult ∧ (s.mapPh f).evr = s.evr ∧ (s.mapPh f).cus = s.cus ∧ (s.mapPh f).loops = s.loops ∧ (s.mapPh f).tam =
    s.tam ∧ (s.mapPh f).pow = s.pow ∧ (s.mapPh f).drawn = s.drawn ∧ (s.mapPh f).out = s.out := by
  refine ⟨?_, ?_, ?_, ?_, ?_, ?_, ?_, ?_, ?_, ?_, ?_, ?_, ?_, ?_, ?_, ?_, ?_, ?_, ?_, ?_, ?_, ?_⟩ <;> rfl

@[simp] theorem State.mapHp_frame (s : State) (f : HostPort → HostPort) : (s.mapHp f).pending = s.pending ∧ (s.mapHp f).ph =
    s.ph ∧ (s.mapHp f).ctxs = s.ctxs ∧ (s.mapHp f).live = s.live ∧ (s.mapHp f).wm = s.wm ∧ (s.mapHp f).slices = s.slices ∧
    (s.mapHp f).chans = s.chans ∧ (s.mapHp f).cached = s.cached ∧ (s.mapHp f).table = s.table ∧ (s.mapHp f).recs = s.recs ∧
    (s.mapHp f).vpA = s.vpA ∧ (s.mapHp f).vpB = s.vpB ∧ (s.mapHp f).ks = s.ks ∧ (s.mapHp f).lanes = s.lanes ∧ (s.mapHp
    f).mult = s.mult ∧ (s.mapHp f).evr = s.evr ∧ (s.mapHp f).cus = s.cus ∧ (s.mapHp f).loops = s.loops ∧ (s.mapHp f).tam =
    s.tam ∧ (s.mapHp f).pow = s.pow ∧ (s.mapHp f).drawn = s.drawn ∧ (s.mapHp f).out = s.out := by
  refine ⟨?_, ?_, ?_, ?_, ?_, ?_, ?_, ?_, ?_, ?_, ?_, ?_, ?_, ?_, ?_, ?_, ?_, ?_, ?_, ?_, ?_, ?_⟩ <;> rfl

@[simp] theorem State.mapEvr_frame (s : State) (f : Evr → Evr) : (s.mapEvr f).pending = s.pending ∧ (s.mapEvr f).ph = s.ph ∧
    (s.mapEvr f).ctxs = s.ctxs ∧ (s.mapEvr f).live = s.live ∧ (s.mapEvr f).hp = s.hp ∧ (s.mapEvr f).wm = s.wm ∧ (s.mapEvr
    f).slices = s.slices ∧ (s.mapEvr f).chans = s.chans ∧ (s.mapEvr f).cached = s.cached ∧ (s.mapEvr f).table = s.table ∧
    (s.mapEvr f).recs = s.recs ∧ (s.mapEvr f).vpA = s.vpA ∧ (s.mapEvr f).vpB = s.vpB ∧ (s.mapEvr f).ks = s.ks ∧ (s.mapEvr
    f).lanes = s.lanes ∧ (s.mapEvr f).mult = s.mult ∧ (s.mapEvr f).cus = s.cus ∧ (s.mapEvr f).loops = s.loops ∧ (s.mapEvr
    f).tam = s.tam ∧ (s.mapEvr f).pow = s.pow ∧ (s.mapEvr f).drawn = s.drawn ∧ (s.mapEvr f).out = s.out := by
  refine ⟨?_, ?_, ?_, ?_, ?_, ?_, ?_, ?_, ?_, ?_, ?_, ?_, ?_, ?_, ?_, ?_, ?_, ?_, ?_, ?_, ?_, ?_⟩ <;> rfl

@[simp] theorem State.mapTam_frame (s : State) (f : Tamper → Tamper) : (s.mapTam f).pending = s.pending ∧ (s.mapTam f).ph =
    s.ph ∧ (s.mapTam f).ctxs = s.ctxs ∧ (s.mapTam f).live = s.live ∧ (s.mapTam f).hp = s.hp ∧ (s.mapTam f).wm = s.wm ∧
    (s.mapTam f).slices = s.slices ∧ (s.mapTam f).chans = s.chans ∧ (s.mapTam f).cached = s.cached ∧ (s.mapTam f).table =
    s.table ∧ (s.mapTam f).recs = s.recs ∧ (s.mapTam f).vpA = s.vpA ∧ (s.mapTam f).vpB = s.vpB ∧ (s.mapTam f).ks = s.ks ∧
    (s.mapTam f).lanes = s.lanes ∧ (s.mapTam f).mult = s.mult ∧ (s.mapTam f).evr = s.evr ∧ (s.mapTam f).cus = s.cus ∧
    (s.mapTam f).loops = s.loops ∧ (s.mapTam f).pow = s.pow ∧ (s.mapTam f).drawn = s.drawn ∧ (s.mapTam f).out = s.out := by
  refine ⟨?_, ?_, ?_, ?_, ?_, ?_, ?_, ?_, ?_, ?_, ?_, ?_, ?_, ?_, ?_, ?_, ?_, ?_, ?_, ?_, ?_, ?_⟩ <;> rfl

@[simp] theorem State.mapPow_frame (s : State) (f : Power → Power) : (s.mapPow f).pending = s.pending ∧ (s.mapPow f).ph =
    s.ph ∧ (s.mapPow f).ctxs = s.ctxs ∧ (s.mapPow f).live = s.live ∧ (s.mapPow f).hp = s.hp ∧ (s.mapPow f).wm = s.wm ∧
    (s.mapPow f).slices = s.slices ∧ (s.mapPow f).chans = s.chans ∧ (s.mapPow f).cached = s.cached ∧ (s.mapPow f).table =
    s.table ∧ (s.mapPow f).recs = s.recs ∧ (s.mapPow f).vpA = s.vpA ∧ (s.mapPow f).vpB = s.vpB ∧ (s.mapPow f).ks = s.ks ∧
    (s.mapPow f).lanes = s.lanes ∧ (s.mapPow f).mult = s.mult ∧ (s.mapPow f).evr = s.evr ∧ (s.mapPow f).cus = s.cus ∧
    (s.mapPow f).loops = s.loops ∧ (s.mapPow f).tam = s.tam ∧ (s.mapPow f).drawn = s.drawn ∧ (s.mapPow f).out = s.out := by
  refine ⟨?_, ?_, ?_, ?_, ?_, ?_, ?_, ?_, ?_, ?_, ?_, ?_, ?_, ?_, ?_, ?_, ?_, ?_, ?_, ?_, ?_, ?_⟩ <;> rfl

@[simp] theorem State.mapCus_frame (s : State) (f : Custody → Custody) : (s.mapCus f).pending = s.pending ∧ (s.mapCus f).ph =
    s.ph ∧ (s.mapCus f).ctxs = s.ctxs ∧ (s.mapCus f).live = s.live ∧ (s.mapCus f).hp = s.hp ∧ (s.mapCus f).wm = s.wm ∧
    (s.mapCus f).slices = s.slices ∧ (s.mapCus f).chans = s.chans ∧ (s.mapCus f).cached = s.cached ∧ (s.mapCus f).table =
    s.table ∧ (s.mapCus f).recs = s.recs ∧ (s.mapCus f).vpA = s.vpA ∧ (s.mapCus f).vpB = s.vpB ∧ (s.mapCus f).ks = s.ks ∧
    (s.mapCus f).lanes = s.lanes ∧ (s.mapCus f).mult = s.mult ∧ (s.mapCus f).evr = s.evr ∧ (s.mapCus f).loops = s.loops ∧
    (s.mapCus f).tam = s.tam ∧ (s.mapCus f).pow = s.pow ∧ (s.mapCus f).drawn = s.drawn ∧ (s.mapCus f).out = s.out := by
  refine ⟨?_, ?_, ?_, ?_, ?_, ?_, ?_, ?_, ?_, ?_, ?_, ?_, ?_, ?_, ?_, ?_, ?_, ?_, ?_, ?_, ?_, ?_⟩ <;> rfl

@[simp] theorem State.mapMult_frame (s : State) (f : Mult → Mult) : (s.mapMult f).pending = s.pending ∧ (s.mapMult f).ph =
    s.ph ∧ (s.mapMult f).ctxs = s.ctxs ∧ (s.mapMult f).live = s.live ∧ (s.mapMult f).hp = s.hp ∧ (s.mapMult f).wm = s.wm ∧
    (s.mapMult f).slices = s.slices ∧ (s.mapMult f).chans = s.chans ∧ (s.mapMult f).cached = s.cached ∧ (s.mapMult f).table =
    s.table ∧ (s.mapMult f).recs = s.recs ∧ (s.mapMult f).vpA = s.vpA ∧ (s.mapMult f).vpB = s.vpB ∧ (s.mapMult f).ks = s.ks ∧
    (s.mapMult f).lanes = s.lanes ∧ (s.mapMult f).evr = s.evr ∧ (s.mapMult f).cus = s.cus ∧ (s.mapMult f).loops = s.loops ∧
    (s.mapMult f).tam = s.tam ∧ (s.mapMult f).pow = s.pow ∧ (s.mapMult f).drawn = s.drawn ∧ (s.mapMult f).out = s.out := by
  refine ⟨?_, ?_, ?_, ?_, ?_, ?_, ?_, ?_, ?_, ?_, ?_, ?_, ?_, ?_, ?_, ?_, ?_, ?_, ?_, ?_, ?_, ?_⟩ <;> rfl

@[simp] theorem State.emit_frame (s : State) (o : Out) : (s.emit o).pending = s.pending ∧ (s.emit o).ph = s.ph ∧ (s.emit
    o).ctxs = s.ctxs ∧ (s.emit o).live = s.live ∧ (s.emit o).hp = s.hp ∧ (s.emit o).wm = s.wm ∧ (s.emit o).slices = s.slices
    ∧ (s.emit o).chans = s.chans ∧ (s.emit o).cached = s.cached ∧ (s.emit o).table = s.table ∧ (s.emit o).recs = s.recs ∧
    (s.emit o).vpA = s.vpA ∧ (s.emit o).vpB = s.vpB ∧ (s.emit o).ks = s.ks ∧ (s.emit o).lanes = s.lanes ∧ (s.emit o).mult =
    s.mult ∧ (s.emit o).evr = s.evr ∧ (s.emit o).cus = s.cus ∧ (s.emit o).loops = s.loops ∧ (s.emit o).tam = s.tam ∧ (s.emit
    o).pow = s.pow ∧ (s.emit o).drawn = s.drawn := by
  refine ⟨?_, ?_, ?_, ?_, ?_, ?_, ?_, ?_, ?_, ?_, ?_, ?_, ?_, ?_, ?_, ?_, ?_, ?_, ?_, ?_, ?_, ?_⟩ <;> rfl

@[simp] theorem State.msix_frame (s : State) (v : Nat) : (s.msix v).pending = s.pending ∧ (s.msix v).ph = s.ph ∧ (s.msix
    v).ctxs = s.ctxs ∧ (s.msix v).live = s.live ∧ (s.msix v).wm = s.wm ∧ (s.msix v).slices = s.slices ∧ (s.msix v).chans =
    s.chans ∧ (s.msix v).cached = s.cached ∧ (s.msix v).table = s.table ∧ (s.msix v).recs = s.recs ∧ (s.msix v).vpA = s.vpA ∧
    (s.msix v).vpB = s.vpB ∧ (s.msix v).ks = s.ks ∧ (s.msix v).lanes = s.lanes ∧ (s.msix v).mult = s.mult ∧ (s.msix v).evr =
    s.evr ∧ (s.msix v).cus = s.cus ∧ (s.msix v).loops = s.loops ∧ (s.msix v).tam = s.tam ∧ (s.msix v).pow = s.pow ∧ (s.msix
    v).drawn = s.drawn := by
  refine ⟨?_, ?_, ?_, ?_, ?_, ?_, ?_, ?_, ?_, ?_, ?_, ?_, ?_, ?_, ?_, ?_, ?_, ?_, ?_, ?_, ?_⟩ <;>
    (unfold State.msix; (try dsimp only); (repeat' split) <;> simp)

@[simp] theorem State.fire_frame (s : State) (i : Nat) : (s.fire i).pending = s.pending ∧ (s.fire i).ph = s.ph ∧ (s.fire
    i).ctxs = s.ctxs ∧ (s.fire i).live = s.live ∧ (s.fire i).wm = s.wm ∧ (s.fire i).slices = s.slices ∧ (s.fire i).chans =
    s.chans ∧ (s.fire i).cached = s.cached ∧ (s.fire i).table = s.table ∧ (s.fire i).recs = s.recs ∧ (s.fire i).vpA = s.vpA ∧
    (s.fire i).vpB = s.vpB ∧ (s.fire i).ks = s.ks ∧ (s.fire i).lanes = s.lanes ∧ (s.fire i).mult = s.mult ∧ (s.fire i).evr =
    s.evr ∧ (s.fire i).cus = s.cus ∧ (s.fire i).loops = s.loops ∧ (s.fire i).tam = s.tam ∧ (s.fire i).pow = s.pow ∧ (s.fire
    i).drawn = s.drawn := by
  refine ⟨?_, ?_, ?_, ?_, ?_, ?_, ?_, ?_, ?_, ?_, ?_, ?_, ?_, ?_, ?_, ?_, ?_, ?_, ?_, ?_, ?_⟩ <;>
    (unfold State.fire; (try dsimp only); (repeat' split) <;> simp)

@[simp] theorem State.write_frame (s : State) (code origin : Nat) (detail : List Byte) : (s.write code origin detail).pending
    = s.pending ∧ (s.write code origin detail).ph = s.ph ∧ (s.write code origin detail).ctxs = s.ctxs ∧ (s.write code origin
    detail).live = s.live ∧ (s.write code origin detail).wm = s.wm ∧ (s.write code origin detail).slices = s.slices ∧
    (s.write code origin detail).chans = s.chans ∧ (s.write code origin detail).cached = s.cached ∧ (s.write code origin
    detail).table = s.table ∧ (s.write code origin detail).recs = s.recs ∧ (s.write code origin detail).vpA = s.vpA ∧
    (s.write code origin detail).vpB = s.vpB ∧ (s.write code origin detail).ks = s.ks ∧ (s.write code origin detail).lanes =
    s.lanes ∧ (s.write code origin detail).mult = s.mult ∧ (s.write code origin detail).cus = s.cus ∧ (s.write code origin
    detail).loops = s.loops ∧ (s.write code origin detail).tam = s.tam ∧ (s.write code origin detail).pow = s.pow ∧ (s.write
    code origin detail).drawn = s.drawn := by
  refine ⟨?_, ?_, ?_, ?_, ?_, ?_, ?_, ?_, ?_, ?_, ?_, ?_, ?_, ?_, ?_, ?_, ?_, ?_, ?_, ?_⟩ <;>
    (unfold State.write; (try dsimp only); (repeat' split) <;> simp)

@[simp] theorem State.overflow_frame (s : State) (code : Nat) : (s.overflow code).pending = s.pending ∧ (s.overflow code).ph
    = s.ph ∧ (s.overflow code).ctxs = s.ctxs ∧ (s.overflow code).live = s.live ∧ (s.overflow code).hp = s.hp ∧ (s.overflow
    code).wm = s.wm ∧ (s.overflow code).slices = s.slices ∧ (s.overflow code).chans = s.chans ∧ (s.overflow code).cached =
    s.cached ∧ (s.overflow code).table = s.table ∧ (s.overflow code).recs = s.recs ∧ (s.overflow code).vpA = s.vpA ∧
    (s.overflow code).vpB = s.vpB ∧ (s.overflow code).ks = s.ks ∧ (s.overflow code).lanes = s.lanes ∧ (s.overflow code).mult
    = s.mult ∧ (s.overflow code).cus = s.cus ∧ (s.overflow code).loops = s.loops ∧ (s.overflow code).tam = s.tam ∧
    (s.overflow code).pow = s.pow ∧ (s.overflow code).drawn = s.drawn ∧ (s.overflow code).out = s.out := by
  refine ⟨?_, ?_, ?_, ?_, ?_, ?_, ?_, ?_, ?_, ?_, ?_, ?_, ?_, ?_, ?_, ?_, ?_, ?_, ?_, ?_, ?_, ?_⟩ <;> rfl

@[simp] theorem State.event_frame (s : State) (code origin : Nat) (detail : List Byte) : (s.event code origin detail).pending
    = s.pending ∧ (s.event code origin detail).ph = s.ph ∧ (s.event code origin detail).ctxs = s.ctxs ∧ (s.event code origin
    detail).live = s.live ∧ (s.event code origin detail).wm = s.wm ∧ (s.event code origin detail).slices = s.slices ∧
    (s.event code origin detail).chans = s.chans ∧ (s.event code origin detail).cached = s.cached ∧ (s.event code origin
    detail).table = s.table ∧ (s.event code origin detail).recs = s.recs ∧ (s.event code origin detail).vpA = s.vpA ∧
    (s.event code origin detail).vpB = s.vpB ∧ (s.event code origin detail).ks = s.ks ∧ (s.event code origin detail).lanes =
    s.lanes ∧ (s.event code origin detail).mult = s.mult ∧ (s.event code origin detail).cus = s.cus ∧ (s.event code origin
    detail).loops = s.loops ∧ (s.event code origin detail).tam = s.tam ∧ (s.event code origin detail).pow = s.pow ∧ (s.event
    code origin detail).drawn = s.drawn := by
  refine ⟨?_, ?_, ?_, ?_, ?_, ?_, ?_, ?_, ?_, ?_, ?_, ?_, ?_, ?_, ?_, ?_, ?_, ?_, ?_, ?_⟩ <;>
    (unfold State.event; (try dsimp only); (repeat' split) <;> simp)

@[simp] theorem State.dmaEvent_frame (s : State) (origin slice kind completion : Nat) : (s.dmaEvent origin slice kind
    completion).pending = s.pending ∧ (s.dmaEvent origin slice kind completion).ph = s.ph ∧ (s.dmaEvent origin slice kind
    completion).ctxs = s.ctxs ∧ (s.dmaEvent origin slice kind completion).live = s.live ∧ (s.dmaEvent origin slice kind
    completion).wm = s.wm ∧ (s.dmaEvent origin slice kind completion).slices = s.slices ∧ (s.dmaEvent origin slice kind
    completion).chans = s.chans ∧ (s.dmaEvent origin slice kind completion).cached = s.cached ∧ (s.dmaEvent origin slice kind
    completion).table = s.table ∧ (s.dmaEvent origin slice kind completion).recs = s.recs ∧ (s.dmaEvent origin slice kind
    completion).vpA = s.vpA ∧ (s.dmaEvent origin slice kind completion).vpB = s.vpB ∧ (s.dmaEvent origin slice kind
    completion).ks = s.ks ∧ (s.dmaEvent origin slice kind completion).lanes = s.lanes ∧ (s.dmaEvent origin slice kind
    completion).mult = s.mult ∧ (s.dmaEvent origin slice kind completion).cus = s.cus ∧ (s.dmaEvent origin slice kind
    completion).loops = s.loops ∧ (s.dmaEvent origin slice kind completion).tam = s.tam ∧ (s.dmaEvent origin slice kind
    completion).pow = s.pow ∧ (s.dmaEvent origin slice kind completion).drawn = s.drawn := by
  refine ⟨?_, ?_, ?_, ?_, ?_, ?_, ?_, ?_, ?_, ?_, ?_, ?_, ?_, ?_, ?_, ?_, ?_, ?_, ?_, ?_⟩ <;>
    (unfold State.dmaEvent; simp)

@[simp] theorem State.evaluate_frame (s : State) (origin : Nat) : (s.evaluate origin).pending = s.pending ∧ (s.evaluate
    origin).ph = s.ph ∧ (s.evaluate origin).ctxs = s.ctxs ∧ (s.evaluate origin).live = s.live ∧ (s.evaluate origin).wm = s.wm
    ∧ (s.evaluate origin).slices = s.slices ∧ (s.evaluate origin).chans = s.chans ∧ (s.evaluate origin).cached = s.cached ∧
    (s.evaluate origin).table = s.table ∧ (s.evaluate origin).recs = s.recs ∧ (s.evaluate origin).vpA = s.vpA ∧ (s.evaluate
    origin).vpB = s.vpB ∧ (s.evaluate origin).ks = s.ks ∧ (s.evaluate origin).lanes = s.lanes ∧ (s.evaluate origin).mult =
    s.mult ∧ (s.evaluate origin).cus = s.cus ∧ (s.evaluate origin).loops = s.loops ∧ (s.evaluate origin).tam = s.tam ∧
    (s.evaluate origin).drawn = s.drawn := by
  refine ⟨?_, ?_, ?_, ?_, ?_, ?_, ?_, ?_, ?_, ?_, ?_, ?_, ?_, ?_, ?_, ?_, ?_, ?_, ?_⟩ <;>
    (unfold State.evaluate; (try dsimp only); (repeat' split) <;> simp)

@[simp] theorem State.unapproved_frame (s : State) (origin : Nat) : (s.unapproved origin).pending = s.pending ∧ (s.unapproved
    origin).ph = s.ph ∧ (s.unapproved origin).ctxs = s.ctxs ∧ (s.unapproved origin).live = s.live ∧ (s.unapproved origin).wm
    = s.wm ∧ (s.unapproved origin).slices = s.slices ∧ (s.unapproved origin).chans = s.chans ∧ (s.unapproved origin).cached =
    s.cached ∧ (s.unapproved origin).table = s.table ∧ (s.unapproved origin).recs = s.recs ∧ (s.unapproved origin).vpA =
    s.vpA ∧ (s.unapproved origin).vpB = s.vpB ∧ (s.unapproved origin).ks = s.ks ∧ (s.unapproved origin).lanes = s.lanes ∧
    (s.unapproved origin).mult = s.mult ∧ (s.unapproved origin).cus = s.cus ∧ (s.unapproved origin).loops = s.loops ∧
    (s.unapproved origin).tam = s.tam ∧ (s.unapproved origin).drawn = s.drawn := by
  refine ⟨?_, ?_, ?_, ?_, ?_, ?_, ?_, ?_, ?_, ?_, ?_, ?_, ?_, ?_, ?_, ?_, ?_, ?_, ?_⟩ <;>
    (unfold State.unapproved; simp)

@[simp] theorem State.drewBytes_frame (s : State) (n : Nat) : (s.drewBytes n).pending = s.pending ∧ (s.drewBytes n).ph = s.ph
    ∧ (s.drewBytes n).ctxs = s.ctxs ∧ (s.drewBytes n).live = s.live ∧ (s.drewBytes n).hp = s.hp ∧ (s.drewBytes n).wm = s.wm ∧
    (s.drewBytes n).slices = s.slices ∧ (s.drewBytes n).chans = s.chans ∧ (s.drewBytes n).cached = s.cached ∧ (s.drewBytes
    n).table = s.table ∧ (s.drewBytes n).recs = s.recs ∧ (s.drewBytes n).vpA = s.vpA ∧ (s.drewBytes n).vpB = s.vpB ∧
    (s.drewBytes n).ks = s.ks ∧ (s.drewBytes n).lanes = s.lanes ∧ (s.drewBytes n).mult = s.mult ∧ (s.drewBytes n).evr = s.evr
    ∧ (s.drewBytes n).cus = s.cus ∧ (s.drewBytes n).loops = s.loops ∧ (s.drewBytes n).tam = s.tam ∧ (s.drewBytes n).out =
    s.out := by
  refine ⟨?_, ?_, ?_, ?_, ?_, ?_, ?_, ?_, ?_, ?_, ?_, ?_, ?_, ?_, ?_, ?_, ?_, ?_, ?_, ?_, ?_⟩ <;> rfl

@[simp] theorem State.drewDelay_frame (s : State) : (s.drewDelay).pending = s.pending ∧ (s.drewDelay).ph = s.ph ∧
    (s.drewDelay).ctxs = s.ctxs ∧ (s.drewDelay).live = s.live ∧ (s.drewDelay).hp = s.hp ∧ (s.drewDelay).wm = s.wm ∧
    (s.drewDelay).slices = s.slices ∧ (s.drewDelay).chans = s.chans ∧ (s.drewDelay).cached = s.cached ∧ (s.drewDelay).table =
    s.table ∧ (s.drewDelay).recs = s.recs ∧ (s.drewDelay).vpA = s.vpA ∧ (s.drewDelay).vpB = s.vpB ∧ (s.drewDelay).ks = s.ks ∧
    (s.drewDelay).lanes = s.lanes ∧ (s.drewDelay).mult = s.mult ∧ (s.drewDelay).evr = s.evr ∧ (s.drewDelay).cus = s.cus ∧
    (s.drewDelay).loops = s.loops ∧ (s.drewDelay).tam = s.tam ∧ (s.drewDelay).out = s.out := by
  refine ⟨?_, ?_, ?_, ?_, ?_, ?_, ?_, ?_, ?_, ?_, ?_, ?_, ?_, ?_, ?_, ?_, ?_, ?_, ?_, ?_, ?_⟩ <;>
    (unfold State.drewDelay; simp)

@[simp] theorem State.writeCopy_frame (s : State) (c ticks : Nat) : (s.writeCopy c ticks).pending = s.pending ∧ (s.writeCopy
    c ticks).ctxs = s.ctxs ∧ (s.writeCopy c ticks).live = s.live ∧ (s.writeCopy c ticks).hp = s.hp ∧ (s.writeCopy c ticks).wm
    = s.wm ∧ (s.writeCopy c ticks).slices = s.slices ∧ (s.writeCopy c ticks).chans = s.chans ∧ (s.writeCopy c ticks).cached =
    s.cached ∧ (s.writeCopy c ticks).table = s.table ∧ (s.writeCopy c ticks).recs = s.recs ∧ (s.writeCopy c ticks).vpA =
    s.vpA ∧ (s.writeCopy c ticks).vpB = s.vpB ∧ (s.writeCopy c ticks).ks = s.ks ∧ (s.writeCopy c ticks).lanes = s.lanes ∧
    (s.writeCopy c ticks).mult = s.mult ∧ (s.writeCopy c ticks).evr = s.evr ∧ (s.writeCopy c ticks).cus = s.cus ∧
    (s.writeCopy c ticks).loops = s.loops ∧ (s.writeCopy c ticks).tam = s.tam ∧ (s.writeCopy c ticks).pow = s.pow ∧
    (s.writeCopy c ticks).drawn = s.drawn ∧ (s.writeCopy c ticks).out = s.out := by
  refine ⟨?_, ?_, ?_, ?_, ?_, ?_, ?_, ?_, ?_, ?_, ?_, ?_, ?_, ?_, ?_, ?_, ?_, ?_, ?_, ?_, ?_, ?_⟩ <;> rfl

@[simp] theorem State.persist_frame (s : State) : (s.persist).pending = s.pending ∧ (s.persist).ctxs = s.ctxs ∧
    (s.persist).live = s.live ∧ (s.persist).hp = s.hp ∧ (s.persist).wm = s.wm ∧ (s.persist).slices = s.slices ∧
    (s.persist).chans = s.chans ∧ (s.persist).cached = s.cached ∧ (s.persist).table = s.table ∧ (s.persist).recs = s.recs ∧
    (s.persist).vpA = s.vpA ∧ (s.persist).vpB = s.vpB ∧ (s.persist).ks = s.ks ∧ (s.persist).lanes = s.lanes ∧
    (s.persist).mult = s.mult ∧ (s.persist).evr = s.evr ∧ (s.persist).cus = s.cus ∧ (s.persist).loops = s.loops ∧
    (s.persist).tam = s.tam ∧ (s.persist).pow = s.pow ∧ (s.persist).drawn = s.drawn ∧ (s.persist).out = s.out := by
  refine ⟨?_, ?_, ?_, ?_, ?_, ?_, ?_, ?_, ?_, ?_, ?_, ?_, ?_, ?_, ?_, ?_, ?_, ?_, ?_, ?_, ?_, ?_⟩ <;>
    (unfold State.persist; simp)

@[simp] theorem State.persistEpochs_frame (s : State) : (s.persistEpochs).pending = s.pending ∧ (s.persistEpochs).ctxs =
    s.ctxs ∧ (s.persistEpochs).live = s.live ∧ (s.persistEpochs).hp = s.hp ∧ (s.persistEpochs).wm = s.wm ∧
    (s.persistEpochs).slices = s.slices ∧ (s.persistEpochs).chans = s.chans ∧ (s.persistEpochs).cached = s.cached ∧
    (s.persistEpochs).table = s.table ∧ (s.persistEpochs).recs = s.recs ∧ (s.persistEpochs).vpA = s.vpA ∧
    (s.persistEpochs).vpB = s.vpB ∧ (s.persistEpochs).ks = s.ks ∧ (s.persistEpochs).lanes = s.lanes ∧ (s.persistEpochs).mult
    = s.mult ∧ (s.persistEpochs).evr = s.evr ∧ (s.persistEpochs).cus = s.cus ∧ (s.persistEpochs).loops = s.loops ∧
    (s.persistEpochs).tam = s.tam ∧ (s.persistEpochs).pow = s.pow ∧ (s.persistEpochs).drawn = s.drawn ∧ (s.persistEpochs).out
    = s.out := by
  refine ⟨?_, ?_, ?_, ?_, ?_, ?_, ?_, ?_, ?_, ?_, ?_, ?_, ?_, ?_, ?_, ?_, ?_, ?_, ?_, ?_, ?_, ?_⟩ <;>
    (unfold State.persistEpochs; (repeat' split) <;> simp)

@[simp] theorem State.advance_frame (s : State) (is : List Nat) : (s.advance is).pending = s.pending ∧ (s.advance is).live =
    s.live ∧ (s.advance is).hp = s.hp ∧ (s.advance is).wm = s.wm ∧ (s.advance is).slices = s.slices ∧ (s.advance is).chans =
    s.chans ∧ (s.advance is).cached = s.cached ∧ (s.advance is).table = s.table ∧ (s.advance is).recs = s.recs ∧ (s.advance
    is).vpA = s.vpA ∧ (s.advance is).vpB = s.vpB ∧ (s.advance is).ks = s.ks ∧ (s.advance is).lanes = s.lanes ∧ (s.advance
    is).mult = s.mult ∧ (s.advance is).evr = s.evr ∧ (s.advance is).cus = s.cus ∧ (s.advance is).loops = s.loops ∧ (s.advance
    is).tam = s.tam ∧ (s.advance is).pow = s.pow ∧ (s.advance is).drawn = s.drawn ∧ (s.advance is).out = s.out := by
  refine ⟨?_, ?_, ?_, ?_, ?_, ?_, ?_, ?_, ?_, ?_, ?_, ?_, ?_, ?_, ?_, ?_, ?_, ?_, ?_, ?_, ?_⟩ <;>
    (unfold State.advance; simp)

@[simp] theorem State.dmaWrite_frame (s : State) (pasid addr : Nat) (bytes : List Byte) : (s.dmaWrite pasid addr
    bytes).pending = s.pending ∧ (s.dmaWrite pasid addr bytes).ph = s.ph ∧ (s.dmaWrite pasid addr bytes).ctxs = s.ctxs ∧
    (s.dmaWrite pasid addr bytes).live = s.live ∧ (s.dmaWrite pasid addr bytes).hp = s.hp ∧ (s.dmaWrite pasid addr bytes).wm
    = s.wm ∧ (s.dmaWrite pasid addr bytes).slices = s.slices ∧ (s.dmaWrite pasid addr bytes).chans = s.chans ∧ (s.dmaWrite
    pasid addr bytes).cached = s.cached ∧ (s.dmaWrite pasid addr bytes).table = s.table ∧ (s.dmaWrite pasid addr bytes).recs
    = s.recs ∧ (s.dmaWrite pasid addr bytes).vpA = s.vpA ∧ (s.dmaWrite pasid addr bytes).vpB = s.vpB ∧ (s.dmaWrite pasid addr
    bytes).ks = s.ks ∧ (s.dmaWrite pasid addr bytes).lanes = s.lanes ∧ (s.dmaWrite pasid addr bytes).mult = s.mult ∧
    (s.dmaWrite pasid addr bytes).evr = s.evr ∧ (s.dmaWrite pasid addr bytes).cus = s.cus ∧ (s.dmaWrite pasid addr
    bytes).loops = s.loops ∧ (s.dmaWrite pasid addr bytes).tam = s.tam ∧ (s.dmaWrite pasid addr bytes).pow = s.pow ∧
    (s.dmaWrite pasid addr bytes).drawn = s.drawn := by
  refine ⟨?_, ?_, ?_, ?_, ?_, ?_, ?_, ?_, ?_, ?_, ?_, ?_, ?_, ?_, ?_, ?_, ?_, ?_, ?_, ?_, ?_, ?_⟩ <;> rfl

@[simp] theorem State.dmaRead_frame (s : State) (pasid addr len : Nat) : (s.dmaRead pasid addr len).pending = s.pending ∧
    (s.dmaRead pasid addr len).ph = s.ph ∧ (s.dmaRead pasid addr len).ctxs = s.ctxs ∧ (s.dmaRead pasid addr len).live =
    s.live ∧ (s.dmaRead pasid addr len).hp = s.hp ∧ (s.dmaRead pasid addr len).wm = s.wm ∧ (s.dmaRead pasid addr len).slices
    = s.slices ∧ (s.dmaRead pasid addr len).chans = s.chans ∧ (s.dmaRead pasid addr len).cached = s.cached ∧ (s.dmaRead pasid
    addr len).table = s.table ∧ (s.dmaRead pasid addr len).recs = s.recs ∧ (s.dmaRead pasid addr len).vpA = s.vpA ∧
    (s.dmaRead pasid addr len).vpB = s.vpB ∧ (s.dmaRead pasid addr len).ks = s.ks ∧ (s.dmaRead pasid addr len).lanes =
    s.lanes ∧ (s.dmaRead pasid addr len).mult = s.mult ∧ (s.dmaRead pasid addr len).evr = s.evr ∧ (s.dmaRead pasid addr
    len).cus = s.cus ∧ (s.dmaRead pasid addr len).loops = s.loops ∧ (s.dmaRead pasid addr len).tam = s.tam ∧ (s.dmaRead pasid
    addr len).pow = s.pow := by
  refine ⟨?_, ?_, ?_, ?_, ?_, ?_, ?_, ?_, ?_, ?_, ?_, ?_, ?_, ?_, ?_, ?_, ?_, ?_, ?_, ?_, ?_⟩ <;> rfl

@[simp] theorem State.hostWrite_frame (s : State) (owner idx pasid addr : Nat) (bytes : List Byte) : (s.hostWrite owner idx
    pasid addr bytes).pending = s.pending ∧ (s.hostWrite owner idx pasid addr bytes).ph = s.ph ∧ (s.hostWrite owner idx pasid
    addr bytes).ctxs = s.ctxs ∧ (s.hostWrite owner idx pasid addr bytes).live = s.live ∧ (s.hostWrite owner idx pasid addr
    bytes).wm = s.wm ∧ (s.hostWrite owner idx pasid addr bytes).slices = s.slices ∧ (s.hostWrite owner idx pasid addr
    bytes).chans = s.chans ∧ (s.hostWrite owner idx pasid addr bytes).cached = s.cached ∧ (s.hostWrite owner idx pasid addr
    bytes).table = s.table ∧ (s.hostWrite owner idx pasid addr bytes).recs = s.recs ∧ (s.hostWrite owner idx pasid addr
    bytes).vpA = s.vpA ∧ (s.hostWrite owner idx pasid addr bytes).vpB = s.vpB ∧ (s.hostWrite owner idx pasid addr bytes).ks =
    s.ks ∧ (s.hostWrite owner idx pasid addr bytes).lanes = s.lanes ∧ (s.hostWrite owner idx pasid addr bytes).mult = s.mult
    ∧ (s.hostWrite owner idx pasid addr bytes).evr = s.evr ∧ (s.hostWrite owner idx pasid addr bytes).cus = s.cus ∧
    (s.hostWrite owner idx pasid addr bytes).loops = s.loops ∧ (s.hostWrite owner idx pasid addr bytes).tam = s.tam ∧
    (s.hostWrite owner idx pasid addr bytes).pow = s.pow ∧ (s.hostWrite owner idx pasid addr bytes).drawn = s.drawn := by
  refine ⟨?_, ?_, ?_, ?_, ?_, ?_, ?_, ?_, ?_, ?_, ?_, ?_, ?_, ?_, ?_, ?_, ?_, ?_, ?_, ?_, ?_⟩ <;>
    (unfold State.hostWrite; (try dsimp only); (repeat' split) <;> simp)

@[simp] theorem State.didInput_frame (s : State) (rq : Rq) (d : Desc) : (s.didInput rq d).pending = s.pending ∧ (s.didInput
    rq d).ph = s.ph ∧ (s.didInput rq d).ctxs = s.ctxs ∧ (s.didInput rq d).live = s.live ∧ (s.didInput rq d).hp = s.hp ∧
    (s.didInput rq d).wm = s.wm ∧ (s.didInput rq d).slices = s.slices ∧ (s.didInput rq d).chans = s.chans ∧ (s.didInput rq
    d).cached = s.cached ∧ (s.didInput rq d).table = s.table ∧ (s.didInput rq d).recs = s.recs ∧ (s.didInput rq d).vpA =
    s.vpA ∧ (s.didInput rq d).vpB = s.vpB ∧ (s.didInput rq d).ks = s.ks ∧ (s.didInput rq d).lanes = s.lanes ∧ (s.didInput rq
    d).mult = s.mult ∧ (s.didInput rq d).evr = s.evr ∧ (s.didInput rq d).cus = s.cus ∧ (s.didInput rq d).loops = s.loops ∧
    (s.didInput rq d).tam = s.tam ∧ (s.didInput rq d).pow = s.pow := by
  refine ⟨?_, ?_, ?_, ?_, ?_, ?_, ?_, ?_, ?_, ?_, ?_, ?_, ?_, ?_, ?_, ?_, ?_, ?_, ?_, ?_, ?_⟩ <;>
    (unfold State.didInput; (repeat' split) <;> simp)

@[simp] theorem State.deliver_frame (s : State) (rt : Route) (reply : List Byte) (irq credit : Bool) : (s.deliver rt reply
    irq credit).pending = s.pending ∧ (s.deliver rt reply irq credit).ph = s.ph ∧ (s.deliver rt reply irq credit).live =
    s.live ∧ (s.deliver rt reply irq credit).hp = s.hp ∧ (s.deliver rt reply irq credit).wm = s.wm ∧ (s.deliver rt reply irq
    credit).slices = s.slices ∧ (s.deliver rt reply irq credit).chans = s.chans ∧ (s.deliver rt reply irq credit).cached =
    s.cached ∧ (s.deliver rt reply irq credit).table = s.table ∧ (s.deliver rt reply irq credit).recs = s.recs ∧ (s.deliver
    rt reply irq credit).ks = s.ks ∧ (s.deliver rt reply irq credit).lanes = s.lanes ∧ (s.deliver rt reply irq credit).mult =
    s.mult ∧ (s.deliver rt reply irq credit).evr = s.evr ∧ (s.deliver rt reply irq credit).cus = s.cus ∧ (s.deliver rt reply
    irq credit).loops = s.loops ∧ (s.deliver rt reply irq credit).tam = s.tam ∧ (s.deliver rt reply irq credit).pow = s.pow ∧
    (s.deliver rt reply irq credit).drawn = s.drawn := by
  refine ⟨?_, ?_, ?_, ?_, ?_, ?_, ?_, ?_, ?_, ?_, ?_, ?_, ?_, ?_, ?_, ?_, ?_, ?_, ?_⟩ <;>
    (unfold State.deliver; (try dsimp only); (repeat' split) <;> simp)

@[simp] theorem State.answerAgain_frame (s : State) (ctx : Nat) (hdr digest reply : List Byte) (credit : Bool) :
    (s.answerAgain ctx hdr digest reply credit).pending = s.pending ∧ (s.answerAgain ctx hdr digest reply credit).ph = s.ph ∧
    (s.answerAgain ctx hdr digest reply credit).hp = s.hp ∧ (s.answerAgain ctx hdr digest reply credit).wm = s.wm ∧
    (s.answerAgain ctx hdr digest reply credit).slices = s.slices ∧ (s.answerAgain ctx hdr digest reply credit).chans =
    s.chans ∧ (s.answerAgain ctx hdr digest reply credit).cached = s.cached ∧ (s.answerAgain ctx hdr digest reply
    credit).table = s.table ∧ (s.answerAgain ctx hdr digest reply credit).recs = s.recs ∧ (s.answerAgain ctx hdr digest reply
    credit).ks = s.ks ∧ (s.answerAgain ctx hdr digest reply credit).lanes = s.lanes ∧ (s.answerAgain ctx hdr digest reply
    credit).mult = s.mult ∧ (s.answerAgain ctx hdr digest reply credit).evr = s.evr ∧ (s.answerAgain ctx hdr digest reply
    credit).cus = s.cus ∧ (s.answerAgain ctx hdr digest reply credit).loops = s.loops ∧ (s.answerAgain ctx hdr digest reply
    credit).tam = s.tam ∧ (s.answerAgain ctx hdr digest reply credit).pow = s.pow ∧ (s.answerAgain ctx hdr digest reply
    credit).drawn = s.drawn := by
  refine ⟨?_, ?_, ?_, ?_, ?_, ?_, ?_, ?_, ?_, ?_, ?_, ?_, ?_, ?_, ?_, ?_, ?_, ?_⟩ <;> (unfold State.answerAgain; simp)

@[simp] theorem State.complete_frame (s : State) (rq : Rq) (ev : Bool) (st : Status) (detail : Nat) (payload : List Byte) :
    (s.complete rq ev st detail payload).pending = s.pending ∧ (s.complete rq ev st detail payload).ph = s.ph ∧ (s.complete
    rq ev st detail payload).hp = s.hp ∧ (s.complete rq ev st detail payload).wm = s.wm ∧ (s.complete rq ev st detail
    payload).slices = s.slices ∧ (s.complete rq ev st detail payload).chans = s.chans ∧ (s.complete rq ev st detail
    payload).cached = s.cached ∧ (s.complete rq ev st detail payload).table = s.table ∧ (s.complete rq ev st detail
    payload).recs = s.recs ∧ (s.complete rq ev st detail payload).ks = s.ks ∧ (s.complete rq ev st detail payload).lanes =
    s.lanes ∧ (s.complete rq ev st detail payload).mult = s.mult ∧ (s.complete rq ev st detail payload).evr = s.evr ∧
    (s.complete rq ev st detail payload).cus = s.cus ∧ (s.complete rq ev st detail payload).loops = s.loops ∧ (s.complete rq
    ev st detail payload).tam = s.tam ∧ (s.complete rq ev st detail payload).pow = s.pow ∧ (s.complete rq ev st detail
    payload).drawn = s.drawn := by
  refine ⟨?_, ?_, ?_, ?_, ?_, ?_, ?_, ?_, ?_, ?_, ?_, ?_, ?_, ?_, ?_, ?_, ?_, ?_⟩ <;>
    (unfold State.complete; (try dsimp only); (repeat' split) <;> simp)

@[simp] theorem State.closePart_frame (s : State) (rq : Rq) (st : Status) : (s.closePart rq st).pending = s.pending ∧
    (s.closePart rq st).ph = s.ph ∧ (s.closePart rq st).live = s.live ∧ (s.closePart rq st).hp = s.hp ∧ (s.closePart rq
    st).wm = s.wm ∧ (s.closePart rq st).slices = s.slices ∧ (s.closePart rq st).chans = s.chans ∧ (s.closePart rq st).cached
    = s.cached ∧ (s.closePart rq st).table = s.table ∧ (s.closePart rq st).recs = s.recs ∧ (s.closePart rq st).vpA = s.vpA ∧
    (s.closePart rq st).vpB = s.vpB ∧ (s.closePart rq st).ks = s.ks ∧ (s.closePart rq st).lanes = s.lanes ∧ (s.closePart rq
    st).mult = s.mult ∧ (s.closePart rq st).evr = s.evr ∧ (s.closePart rq st).cus = s.cus ∧ (s.closePart rq st).loops =
    s.loops ∧ (s.closePart rq st).tam = s.tam ∧ (s.closePart rq st).pow = s.pow ∧ (s.closePart rq st).drawn = s.drawn ∧
    (s.closePart rq st).out = s.out := by
  refine ⟨?_, ?_, ?_, ?_, ?_, ?_, ?_, ?_, ?_, ?_, ?_, ?_, ?_, ?_, ?_, ?_, ?_, ?_, ?_, ?_, ?_, ?_⟩ <;>
    (unfold State.closePart; (try dsimp only); (repeat' split) <;> simp)

@[simp] theorem State.hold_frame (s : State) (n : Nat) (rq : Rq) (j : Job) : (s.hold n rq j).pending = s.pending ∧ (s.hold n
    rq j).ph = s.ph ∧ (s.hold n rq j).ctxs = s.ctxs ∧ (s.hold n rq j).hp = s.hp ∧ (s.hold n rq j).wm = s.wm ∧ (s.hold n rq
    j).slices = s.slices ∧ (s.hold n rq j).chans = s.chans ∧ (s.hold n rq j).cached = s.cached ∧ (s.hold n rq j).table =
    s.table ∧ (s.hold n rq j).recs = s.recs ∧ (s.hold n rq j).vpA = s.vpA ∧ (s.hold n rq j).vpB = s.vpB ∧ (s.hold n rq j).ks
    = s.ks ∧ (s.hold n rq j).lanes = s.lanes ∧ (s.hold n rq j).mult = s.mult ∧ (s.hold n rq j).evr = s.evr ∧ (s.hold n rq
    j).cus = s.cus ∧ (s.hold n rq j).loops = s.loops ∧ (s.hold n rq j).tam = s.tam ∧ (s.hold n rq j).pow = s.pow ∧ (s.hold n
    rq j).drawn = s.drawn ∧ (s.hold n rq j).out = s.out := by
  refine ⟨?_, ?_, ?_, ?_, ?_, ?_, ?_, ?_, ?_, ?_, ?_, ?_, ?_, ?_, ?_, ?_, ?_, ?_, ?_, ?_, ?_, ?_⟩ <;> rfl

/-- A request taken out of those in flight. -/
theorem takeLive_some {s w : State} {p : Live → Bool} {l : Live} (h : s.takeLive p = some (l, w)) :
    l ∈ s.live ∧ p l = true ∧ w = { s with live := s.live.erase l } := by
  unfold State.takeLive at h
  split at h
  · cases h
  · next m hm => cases h; exact ⟨List.mem_of_find?_eq_some hm, List.find?_some hm, rfl⟩

@[simp] theorem settle_done (n : Nat) (rq : Rq) (st : Status) (d : Nat) (b : List Byte) (s : State) :
    (Act.done st d b s).settle n rq = (s.closePart rq st).complete rq (s.evr.next != n) st d b := rfl

@[simp] theorem settle_park (n : Nat) (rq : Rq) (j : Job) (s : State) : (Act.park j s).settle n rq = s.hold n rq j := rfl

@[simp] theorem settle_refuse (n : Nat) (rq : Rq) (st : Status) (d : Nat) (s : State) :
    (Act.refuse s st d).settle n rq = (s.closePart rq st).complete rq (s.evr.next != n) st d [] := rfl

@[simp] theorem State.finish_pending {p : Live → Bool} {f : Live → State → Act}
    (h : ∀ l t n rq, ((f l t).settle n rq).pending = t.pending) (s : State) : (s.finish p f).pending = s.pending := by
  unfold State.finish; split <;> first | rfl | (obtain ⟨-, -, rfl⟩ := takeLive_some ‹_›; rw [h])

@[simp] theorem State.finish_ph {p : Live → Bool} {f : Live → State → Act}
    (h : ∀ l t n rq, ((f l t).settle n rq).ph = t.ph) (s : State) : (s.finish p f).ph = s.ph := by
  unfold State.finish; split <;> first | rfl | (obtain ⟨-, -, rfl⟩ := takeLive_some ‹_›; rw [h])

@[simp] theorem State.finish_hp {p : Live → Bool} {f : Live → State → Act}
    (h : ∀ l t n rq, ((f l t).settle n rq).hp = t.hp) (s : State) : (s.finish p f).hp = s.hp := by
  unfold State.finish; split <;> first | rfl | (obtain ⟨-, -, rfl⟩ := takeLive_some ‹_›; rw [h])

@[simp] theorem State.finish_wm {p : Live → Bool} {f : Live → State → Act}
    (h : ∀ l t n rq, ((f l t).settle n rq).wm = t.wm) (s : State) : (s.finish p f).wm = s.wm := by
  unfold State.finish; split <;> first | rfl | (obtain ⟨-, -, rfl⟩ := takeLive_some ‹_›; rw [h])

@[simp] theorem State.finish_slices {p : Live → Bool} {f : Live → State → Act}
    (h : ∀ l t n rq, ((f l t).settle n rq).slices = t.slices) (s : State) : (s.finish p f).slices = s.slices := by
  unfold State.finish; split <;> first | rfl | (obtain ⟨-, -, rfl⟩ := takeLive_some ‹_›; rw [h])

@[simp] theorem State.finish_chans {p : Live → Bool} {f : Live → State → Act}
    (h : ∀ l t n rq, ((f l t).settle n rq).chans = t.chans) (s : State) : (s.finish p f).chans = s.chans := by
  unfold State.finish; split <;> first | rfl | (obtain ⟨-, -, rfl⟩ := takeLive_some ‹_›; rw [h])

@[simp] theorem State.finish_cached {p : Live → Bool} {f : Live → State → Act}
    (h : ∀ l t n rq, ((f l t).settle n rq).cached = t.cached) (s : State) : (s.finish p f).cached = s.cached := by
  unfold State.finish; split <;> first | rfl | (obtain ⟨-, -, rfl⟩ := takeLive_some ‹_›; rw [h])

@[simp] theorem State.finish_table {p : Live → Bool} {f : Live → State → Act}
    (h : ∀ l t n rq, ((f l t).settle n rq).table = t.table) (s : State) : (s.finish p f).table = s.table := by
  unfold State.finish; split <;> first | rfl | (obtain ⟨-, -, rfl⟩ := takeLive_some ‹_›; rw [h])

@[simp] theorem State.finish_recs {p : Live → Bool} {f : Live → State → Act}
    (h : ∀ l t n rq, ((f l t).settle n rq).recs = t.recs) (s : State) : (s.finish p f).recs = s.recs := by
  unfold State.finish; split <;> first | rfl | (obtain ⟨-, -, rfl⟩ := takeLive_some ‹_›; rw [h])

@[simp] theorem State.finish_ks {p : Live → Bool} {f : Live → State → Act}
    (h : ∀ l t n rq, ((f l t).settle n rq).ks = t.ks) (s : State) : (s.finish p f).ks = s.ks := by
  unfold State.finish; split <;> first | rfl | (obtain ⟨-, -, rfl⟩ := takeLive_some ‹_›; rw [h])

@[simp] theorem State.finish_lanes {p : Live → Bool} {f : Live → State → Act}
    (h : ∀ l t n rq, ((f l t).settle n rq).lanes = t.lanes) (s : State) : (s.finish p f).lanes = s.lanes := by
  unfold State.finish; split <;> first | rfl | (obtain ⟨-, -, rfl⟩ := takeLive_some ‹_›; rw [h])

@[simp] theorem State.finish_mult {p : Live → Bool} {f : Live → State → Act}
    (h : ∀ l t n rq, ((f l t).settle n rq).mult = t.mult) (s : State) : (s.finish p f).mult = s.mult := by
  unfold State.finish; split <;> first | rfl | (obtain ⟨-, -, rfl⟩ := takeLive_some ‹_›; rw [h])

@[simp] theorem State.finish_evr {p : Live → Bool} {f : Live → State → Act}
    (h : ∀ l t n rq, ((f l t).settle n rq).evr = t.evr) (s : State) : (s.finish p f).evr = s.evr := by
  unfold State.finish; split <;> first | rfl | (obtain ⟨-, -, rfl⟩ := takeLive_some ‹_›; rw [h])

@[simp] theorem State.finish_cus {p : Live → Bool} {f : Live → State → Act}
    (h : ∀ l t n rq, ((f l t).settle n rq).cus = t.cus) (s : State) : (s.finish p f).cus = s.cus := by
  unfold State.finish; split <;> first | rfl | (obtain ⟨-, -, rfl⟩ := takeLive_some ‹_›; rw [h])

@[simp] theorem State.finish_loops {p : Live → Bool} {f : Live → State → Act}
    (h : ∀ l t n rq, ((f l t).settle n rq).loops = t.loops) (s : State) : (s.finish p f).loops = s.loops := by
  unfold State.finish; split <;> first | rfl | (obtain ⟨-, -, rfl⟩ := takeLive_some ‹_›; rw [h])

@[simp] theorem State.finish_tam {p : Live → Bool} {f : Live → State → Act}
    (h : ∀ l t n rq, ((f l t).settle n rq).tam = t.tam) (s : State) : (s.finish p f).tam = s.tam := by
  unfold State.finish; split <;> first | rfl | (obtain ⟨-, -, rfl⟩ := takeLive_some ‹_›; rw [h])

@[simp] theorem State.finish_pow {p : Live → Bool} {f : Live → State → Act}
    (h : ∀ l t n rq, ((f l t).settle n rq).pow = t.pow) (s : State) : (s.finish p f).pow = s.pow := by
  unfold State.finish; split <;> first | rfl | (obtain ⟨-, -, rfl⟩ := takeLive_some ‹_›; rw [h])

@[simp] theorem State.finish_drawn {p : Live → Bool} {f : Live → State → Act}
    (h : ∀ l t n rq, ((f l t).settle n rq).drawn = t.drawn) (s : State) : (s.finish p f).drawn = s.drawn := by
  unfold State.finish; split <;> first | rfl | (obtain ⟨-, -, rfl⟩ := takeLive_some ‹_›; rw [h])

@[simp] theorem State.noteCause_frame (s : State) (p : Live → Bool) (n : Nat) : (s.noteCause p n).pending = s.pending ∧
    (s.noteCause p n).ph = s.ph ∧ (s.noteCause p n).ctxs = s.ctxs ∧ (s.noteCause p n).hp = s.hp ∧ (s.noteCause p n).wm = s.wm
    ∧ (s.noteCause p n).slices = s.slices ∧ (s.noteCause p n).chans = s.chans ∧ (s.noteCause p n).cached = s.cached ∧
    (s.noteCause p n).table = s.table ∧ (s.noteCause p n).recs = s.recs ∧ (s.noteCause p n).vpA = s.vpA ∧ (s.noteCause p
    n).vpB = s.vpB ∧ (s.noteCause p n).ks = s.ks ∧ (s.noteCause p n).lanes = s.lanes ∧ (s.noteCause p n).mult = s.mult ∧
    (s.noteCause p n).evr = s.evr ∧ (s.noteCause p n).cus = s.cus ∧ (s.noteCause p n).loops = s.loops ∧ (s.noteCause p n).tam
    = s.tam ∧ (s.noteCause p n).pow = s.pow ∧ (s.noteCause p n).drawn = s.drawn ∧ (s.noteCause p n).out = s.out := by
  refine ⟨?_, ?_, ?_, ?_, ?_, ?_, ?_, ?_, ?_, ?_, ?_, ?_, ?_, ?_, ?_, ?_, ?_, ?_, ?_, ?_, ?_, ?_⟩ <;>
    (unfold State.noteCause; (try dsimp only); (repeat' split) <;> simp)

@[simp] theorem State.wmWrite_frame (s : State) (a : Nat) (w : Word) : (s.wmWrite a w).pending = s.pending ∧ (s.wmWrite a
    w).ph = s.ph ∧ (s.wmWrite a w).ctxs = s.ctxs ∧ (s.wmWrite a w).live = s.live ∧ (s.wmWrite a w).hp = s.hp ∧ (s.wmWrite a
    w).slices = s.slices ∧ (s.wmWrite a w).chans = s.chans ∧ (s.wmWrite a w).cached = s.cached ∧ (s.wmWrite a w).table =
    s.table ∧ (s.wmWrite a w).recs = s.recs ∧ (s.wmWrite a w).vpA = s.vpA ∧ (s.wmWrite a w).vpB = s.vpB ∧ (s.wmWrite a w).ks
    = s.ks ∧ (s.wmWrite a w).lanes = s.lanes ∧ (s.wmWrite a w).mult = s.mult ∧ (s.wmWrite a w).evr = s.evr ∧ (s.wmWrite a
    w).cus = s.cus ∧ (s.wmWrite a w).loops = s.loops ∧ (s.wmWrite a w).tam = s.tam ∧ (s.wmWrite a w).pow = s.pow ∧ (s.wmWrite
    a w).drawn = s.drawn ∧ (s.wmWrite a w).out = s.out := by
  refine ⟨?_, ?_, ?_, ?_, ?_, ?_, ?_, ?_, ?_, ?_, ?_, ?_, ?_, ?_, ?_, ?_, ?_, ?_, ?_, ?_, ?_, ?_⟩ <;>
    (unfold State.wmWrite; (repeat' split) <;> simp)

@[simp] theorem State.wmZero_frame (s : State) (a n : Nat) : (s.wmZero a n).pending = s.pending ∧ (s.wmZero a n).ph = s.ph ∧
    (s.wmZero a n).ctxs = s.ctxs ∧ (s.wmZero a n).live = s.live ∧ (s.wmZero a n).hp = s.hp ∧ (s.wmZero a n).slices = s.slices
    ∧ (s.wmZero a n).chans = s.chans ∧ (s.wmZero a n).cached = s.cached ∧ (s.wmZero a n).table = s.table ∧ (s.wmZero a
    n).recs = s.recs ∧ (s.wmZero a n).vpA = s.vpA ∧ (s.wmZero a n).vpB = s.vpB ∧ (s.wmZero a n).ks = s.ks ∧ (s.wmZero a
    n).lanes = s.lanes ∧ (s.wmZero a n).mult = s.mult ∧ (s.wmZero a n).evr = s.evr ∧ (s.wmZero a n).cus = s.cus ∧ (s.wmZero a
    n).loops = s.loops ∧ (s.wmZero a n).tam = s.tam ∧ (s.wmZero a n).pow = s.pow ∧ (s.wmZero a n).drawn = s.drawn ∧ (s.wmZero
    a n).out = s.out := by
  refine ⟨?_, ?_, ?_, ?_, ?_, ?_, ?_, ?_, ?_, ?_, ?_, ?_, ?_, ?_, ?_, ?_, ?_, ?_, ?_, ?_, ?_, ?_⟩ <;> rfl

@[simp] theorem State.wmAccess_frame (s : State) (origin : Nat) (a : Access) : (s.wmAccess origin a).pending = s.pending ∧
    (s.wmAccess origin a).ph = s.ph ∧ (s.wmAccess origin a).ctxs = s.ctxs ∧ (s.wmAccess origin a).live = s.live ∧ (s.wmAccess
    origin a).wm = s.wm ∧ (s.wmAccess origin a).slices = s.slices ∧ (s.wmAccess origin a).chans = s.chans ∧ (s.wmAccess
    origin a).cached = s.cached ∧ (s.wmAccess origin a).table = s.table ∧ (s.wmAccess origin a).recs = s.recs ∧ (s.wmAccess
    origin a).vpA = s.vpA ∧ (s.wmAccess origin a).vpB = s.vpB ∧ (s.wmAccess origin a).ks = s.ks ∧ (s.wmAccess origin a).lanes
    = s.lanes ∧ (s.wmAccess origin a).mult = s.mult ∧ (s.wmAccess origin a).cus = s.cus ∧ (s.wmAccess origin a).loops =
    s.loops ∧ (s.wmAccess origin a).tam = s.tam ∧ (s.wmAccess origin a).pow = s.pow ∧ (s.wmAccess origin a).drawn = s.drawn
    := by
  refine ⟨?_, ?_, ?_, ?_, ?_, ?_, ?_, ?_, ?_, ?_, ?_, ?_, ?_, ?_, ?_, ?_, ?_, ?_, ?_, ?_⟩ <;>
    (unfold State.wmAccess; (repeat' split) <;> simp)

@[simp] theorem State.wmEcc_frame (s : State) (origin : Nat) (m : Master) (addr : Nat) : (s.wmEcc origin m addr).pending =
    s.pending ∧ (s.wmEcc origin m addr).ph = s.ph ∧ (s.wmEcc origin m addr).ctxs = s.ctxs ∧ (s.wmEcc origin m addr).live =
    s.live ∧ (s.wmEcc origin m addr).wm = s.wm ∧ (s.wmEcc origin m addr).slices = s.slices ∧ (s.wmEcc origin m addr).chans =
    s.chans ∧ (s.wmEcc origin m addr).cached = s.cached ∧ (s.wmEcc origin m addr).table = s.table ∧ (s.wmEcc origin m
    addr).recs = s.recs ∧ (s.wmEcc origin m addr).vpA = s.vpA ∧ (s.wmEcc origin m addr).vpB = s.vpB ∧ (s.wmEcc origin m
    addr).ks = s.ks ∧ (s.wmEcc origin m addr).lanes = s.lanes ∧ (s.wmEcc origin m addr).mult = s.mult ∧ (s.wmEcc origin m
    addr).cus = s.cus ∧ (s.wmEcc origin m addr).loops = s.loops ∧ (s.wmEcc origin m addr).tam = s.tam ∧ (s.wmEcc origin m
    addr).pow = s.pow ∧ (s.wmEcc origin m addr).drawn = s.drawn := by
  refine ⟨?_, ?_, ?_, ?_, ?_, ?_, ?_, ?_, ?_, ?_, ?_, ?_, ?_, ?_, ?_, ?_, ?_, ?_, ?_, ?_⟩ <;> (unfold State.wmEcc; simp)

@[simp] theorem State.meet_frame (s : State) (bad : List Nat) (rs : List Ref) : (s.meet bad rs).pending = s.pending ∧ (s.meet
    bad rs).ph = s.ph ∧ (s.meet bad rs).ctxs = s.ctxs ∧ (s.meet bad rs).live = s.live ∧ (s.meet bad rs).hp = s.hp ∧ (s.meet
    bad rs).slices = s.slices ∧ (s.meet bad rs).chans = s.chans ∧ (s.meet bad rs).cached = s.cached ∧ (s.meet bad rs).table =
    s.table ∧ (s.meet bad rs).recs = s.recs ∧ (s.meet bad rs).vpA = s.vpA ∧ (s.meet bad rs).vpB = s.vpB ∧ (s.meet bad rs).ks
    = s.ks ∧ (s.meet bad rs).lanes = s.lanes ∧ (s.meet bad rs).mult = s.mult ∧ (s.meet bad rs).evr = s.evr ∧ (s.meet bad
    rs).cus = s.cus ∧ (s.meet bad rs).loops = s.loops ∧ (s.meet bad rs).tam = s.tam ∧ (s.meet bad rs).pow = s.pow ∧ (s.meet
    bad rs).drawn = s.drawn ∧ (s.meet bad rs).out = s.out := by
  refine ⟨?_, ?_, ?_, ?_, ?_, ?_, ?_, ?_, ?_, ?_, ?_, ?_, ?_, ?_, ?_, ?_, ?_, ?_, ?_, ?_, ?_, ?_⟩ <;> rfl

@[simp] theorem State.touchKey_frame (s : State) (k : Nat) : (s.touchKey k).pending = s.pending ∧ (s.touchKey k).ph = s.ph ∧
    (s.touchKey k).ctxs = s.ctxs ∧ (s.touchKey k).live = s.live ∧ (s.touchKey k).hp = s.hp ∧ (s.touchKey k).wm = s.wm ∧
    (s.touchKey k).slices = s.slices ∧ (s.touchKey k).chans = s.chans ∧ (s.touchKey k).cached = s.cached ∧ (s.touchKey
    k).table = s.table ∧ (s.touchKey k).recs = s.recs ∧ (s.touchKey k).vpA = s.vpA ∧ (s.touchKey k).vpB = s.vpB ∧ (s.touchKey
    k).lanes = s.lanes ∧ (s.touchKey k).mult = s.mult ∧ (s.touchKey k).evr = s.evr ∧ (s.touchKey k).cus = s.cus ∧ (s.touchKey
    k).loops = s.loops ∧ (s.touchKey k).tam = s.tam ∧ (s.touchKey k).pow = s.pow ∧ (s.touchKey k).drawn = s.drawn ∧
    (s.touchKey k).out = s.out := by
  refine ⟨?_, ?_, ?_, ?_, ?_, ?_, ?_, ?_, ?_, ?_, ?_, ?_, ?_, ?_, ?_, ?_, ?_, ?_, ?_, ?_, ?_, ?_⟩ <;> rfl

@[simp] theorem State.closeStreams_frame (s : State) (p : Stream → Bool) : (s.closeStreams p).pending = s.pending ∧
    (s.closeStreams p).ph = s.ph ∧ (s.closeStreams p).live = s.live ∧ (s.closeStreams p).hp = s.hp ∧ (s.closeStreams p).wm =
    s.wm ∧ (s.closeStreams p).slices = s.slices ∧ (s.closeStreams p).chans = s.chans ∧ (s.closeStreams p).cached = s.cached ∧
    (s.closeStreams p).table = s.table ∧ (s.closeStreams p).recs = s.recs ∧ (s.closeStreams p).vpA = s.vpA ∧ (s.closeStreams
    p).vpB = s.vpB ∧ (s.closeStreams p).ks = s.ks ∧ (s.closeStreams p).lanes = s.lanes ∧ (s.closeStreams p).mult = s.mult ∧
    (s.closeStreams p).evr = s.evr ∧ (s.closeStreams p).cus = s.cus ∧ (s.closeStreams p).loops = s.loops ∧ (s.closeStreams
    p).tam = s.tam ∧ (s.closeStreams p).pow = s.pow ∧ (s.closeStreams p).drawn = s.drawn ∧ (s.closeStreams p).out = s.out :=
    by
  refine ⟨?_, ?_, ?_, ?_, ?_, ?_, ?_, ?_, ?_, ?_, ?_, ?_, ?_, ?_, ?_, ?_, ?_, ?_, ?_, ?_, ?_, ?_⟩ <;>
    (unfold State.closeStreams; simp)

@[simp] theorem State.endStreams_frame (s : State) (k : Nat) : (s.endStreams k).pending = s.pending ∧ (s.endStreams k).ph =
    s.ph ∧ (s.endStreams k).live = s.live ∧ (s.endStreams k).hp = s.hp ∧ (s.endStreams k).wm = s.wm ∧ (s.endStreams k).slices
    = s.slices ∧ (s.endStreams k).chans = s.chans ∧ (s.endStreams k).cached = s.cached ∧ (s.endStreams k).table = s.table ∧
    (s.endStreams k).recs = s.recs ∧ (s.endStreams k).vpA = s.vpA ∧ (s.endStreams k).vpB = s.vpB ∧ (s.endStreams k).ks = s.ks
    ∧ (s.endStreams k).lanes = s.lanes ∧ (s.endStreams k).mult = s.mult ∧ (s.endStreams k).evr = s.evr ∧ (s.endStreams k).cus
    = s.cus ∧ (s.endStreams k).loops = s.loops ∧ (s.endStreams k).tam = s.tam ∧ (s.endStreams k).pow = s.pow ∧ (s.endStreams
    k).drawn = s.drawn ∧ (s.endStreams k).out = s.out := by
  refine ⟨?_, ?_, ?_, ?_, ?_, ?_, ?_, ?_, ?_, ?_, ?_, ?_, ?_, ?_, ?_, ?_, ?_, ?_, ?_, ?_, ?_, ?_⟩ <;>
    (unfold State.endStreams; simp)

@[simp] theorem State.freeSlot_frame (s : State) (k origin : Nat) : (s.freeSlot k origin).pending = s.pending ∧ (s.freeSlot k
    origin).ph = s.ph ∧ (s.freeSlot k origin).live = s.live ∧ (s.freeSlot k origin).wm = s.wm ∧ (s.freeSlot k origin).chans =
    s.chans ∧ (s.freeSlot k origin).cached = s.cached ∧ (s.freeSlot k origin).table = s.table ∧ (s.freeSlot k origin).recs =
    s.recs ∧ (s.freeSlot k origin).vpA = s.vpA ∧ (s.freeSlot k origin).vpB = s.vpB ∧ (s.freeSlot k origin).lanes = s.lanes ∧
    (s.freeSlot k origin).mult = s.mult ∧ (s.freeSlot k origin).cus = s.cus ∧ (s.freeSlot k origin).loops = s.loops ∧
    (s.freeSlot k origin).tam = s.tam ∧ (s.freeSlot k origin).pow = s.pow ∧ (s.freeSlot k origin).drawn = s.drawn := by
  refine ⟨?_, ?_, ?_, ?_, ?_, ?_, ?_, ?_, ?_, ?_, ?_, ?_, ?_, ?_, ?_, ?_, ?_⟩ <;>
    (unfold State.freeSlot; (try dsimp only); (repeat' split) <;> simp)

@[simp] theorem State.freeDevice_frame (s : State) (k origin : Nat) : (s.freeDevice k origin).pending = s.pending ∧
    (s.freeDevice k origin).ph = s.ph ∧ (s.freeDevice k origin).ctxs = s.ctxs ∧ (s.freeDevice k origin).live = s.live ∧
    (s.freeDevice k origin).wm = s.wm ∧ (s.freeDevice k origin).slices = s.slices ∧ (s.freeDevice k origin).chans = s.chans ∧
    (s.freeDevice k origin).cached = s.cached ∧ (s.freeDevice k origin).table = s.table ∧ (s.freeDevice k origin).recs =
    s.recs ∧ (s.freeDevice k origin).vpA = s.vpA ∧ (s.freeDevice k origin).vpB = s.vpB ∧ (s.freeDevice k origin).lanes =
    s.lanes ∧ (s.freeDevice k origin).mult = s.mult ∧ (s.freeDevice k origin).cus = s.cus ∧ (s.freeDevice k origin).loops =
    s.loops ∧ (s.freeDevice k origin).tam = s.tam ∧ (s.freeDevice k origin).pow = s.pow ∧ (s.freeDevice k origin).drawn =
    s.drawn := by
  refine ⟨?_, ?_, ?_, ?_, ?_, ?_, ?_, ?_, ?_, ?_, ?_, ?_, ?_, ?_, ?_, ?_, ?_, ?_, ?_⟩ <;>
    (unfold State.freeDevice; (try dsimp only); (repeat' split) <;> simp)

@[simp] theorem State.writeDevice_frame (s : State) (k : Nat) : (s.writeDevice k).pending = s.pending ∧ (s.writeDevice k).ph
    = s.ph ∧ (s.writeDevice k).ctxs = s.ctxs ∧ (s.writeDevice k).live = s.live ∧ (s.writeDevice k).hp = s.hp ∧ (s.writeDevice
    k).wm = s.wm ∧ (s.writeDevice k).slices = s.slices ∧ (s.writeDevice k).chans = s.chans ∧ (s.writeDevice k).cached =
    s.cached ∧ (s.writeDevice k).table = s.table ∧ (s.writeDevice k).recs = s.recs ∧ (s.writeDevice k).vpA = s.vpA ∧
    (s.writeDevice k).vpB = s.vpB ∧ (s.writeDevice k).lanes = s.lanes ∧ (s.writeDevice k).mult = s.mult ∧ (s.writeDevice
    k).evr = s.evr ∧ (s.writeDevice k).cus = s.cus ∧ (s.writeDevice k).loops = s.loops ∧ (s.writeDevice k).tam = s.tam ∧
    (s.writeDevice k).pow = s.pow ∧ (s.writeDevice k).drawn = s.drawn ∧ (s.writeDevice k).out = s.out := by
  refine ⟨?_, ?_, ?_, ?_, ?_, ?_, ?_, ?_, ?_, ?_, ?_, ?_, ?_, ?_, ?_, ?_, ?_, ?_, ?_, ?_, ?_, ?_⟩ <;>
    (unfold State.writeDevice; simp)

@[simp] theorem State.dropRoot_frame (s : State) : (s.dropRoot).pending = s.pending ∧ (s.dropRoot).ph = s.ph ∧
    (s.dropRoot).ctxs = s.ctxs ∧ (s.dropRoot).live = s.live ∧ (s.dropRoot).wm = s.wm ∧ (s.dropRoot).slices = s.slices ∧
    (s.dropRoot).chans = s.chans ∧ (s.dropRoot).cached = s.cached ∧ (s.dropRoot).table = s.table ∧ (s.dropRoot).recs = s.recs
    ∧ (s.dropRoot).vpA = s.vpA ∧ (s.dropRoot).vpB = s.vpB ∧ (s.dropRoot).lanes = s.lanes ∧ (s.dropRoot).mult = s.mult ∧
    (s.dropRoot).cus = s.cus ∧ (s.dropRoot).loops = s.loops ∧ (s.dropRoot).tam = s.tam ∧ (s.dropRoot).pow = s.pow ∧
    (s.dropRoot).drawn = s.drawn := by
  refine ⟨?_, ?_, ?_, ?_, ?_, ?_, ?_, ?_, ?_, ?_, ?_, ?_, ?_, ?_, ?_, ?_, ?_, ?_, ?_⟩ <;>
    (unfold State.dropRoot; (repeat' split) <;> simp)

@[simp] theorem State.dualSigned_frame (s : State) (ctx : Nat) : (s.dualSigned ctx).pending = s.pending ∧ (s.dualSigned
    ctx).ph = s.ph ∧ (s.dualSigned ctx).live = s.live ∧ (s.dualSigned ctx).hp = s.hp ∧ (s.dualSigned ctx).wm = s.wm ∧
    (s.dualSigned ctx).slices = s.slices ∧ (s.dualSigned ctx).chans = s.chans ∧ (s.dualSigned ctx).cached = s.cached ∧
    (s.dualSigned ctx).table = s.table ∧ (s.dualSigned ctx).recs = s.recs ∧ (s.dualSigned ctx).vpA = s.vpA ∧ (s.dualSigned
    ctx).vpB = s.vpB ∧ (s.dualSigned ctx).lanes = s.lanes ∧ (s.dualSigned ctx).mult = s.mult ∧ (s.dualSigned ctx).evr = s.evr
    ∧ (s.dualSigned ctx).cus = s.cus ∧ (s.dualSigned ctx).loops = s.loops ∧ (s.dualSigned ctx).tam = s.tam ∧ (s.dualSigned
    ctx).out = s.out := by
  refine ⟨?_, ?_, ?_, ?_, ?_, ?_, ?_, ?_, ?_, ?_, ?_, ?_, ?_, ?_, ?_, ?_, ?_, ?_, ?_⟩ <;>
    (unfold State.dualSigned; (try dsimp only); (repeat' split) <;> simp)

@[simp] theorem State.noteLost_frame (s : State) (origin slot : Nat) (h : Hss) : (s.noteLost origin slot h).pending =
    s.pending ∧ (s.noteLost origin slot h).ph = s.ph ∧ (s.noteLost origin slot h).ctxs = s.ctxs ∧ (s.noteLost origin slot
    h).live = s.live ∧ (s.noteLost origin slot h).wm = s.wm ∧ (s.noteLost origin slot h).slices = s.slices ∧ (s.noteLost
    origin slot h).chans = s.chans ∧ (s.noteLost origin slot h).cached = s.cached ∧ (s.noteLost origin slot h).table =
    s.table ∧ (s.noteLost origin slot h).recs = s.recs ∧ (s.noteLost origin slot h).vpA = s.vpA ∧ (s.noteLost origin slot
    h).vpB = s.vpB ∧ (s.noteLost origin slot h).ks = s.ks ∧ (s.noteLost origin slot h).lanes = s.lanes ∧ (s.noteLost origin
    slot h).mult = s.mult ∧ (s.noteLost origin slot h).cus = s.cus ∧ (s.noteLost origin slot h).loops = s.loops ∧ (s.noteLost
    origin slot h).tam = s.tam ∧ (s.noteLost origin slot h).pow = s.pow ∧ (s.noteLost origin slot h).drawn = s.drawn := by
  refine ⟨?_, ?_, ?_, ?_, ?_, ?_, ?_, ?_, ?_, ?_, ?_, ?_, ?_, ?_, ?_, ?_, ?_, ?_, ?_, ?_⟩ <;>
    (unfold State.noteLost; (repeat' split) <;> simp)

@[simp] theorem State.copyWork_frame (s : State) (w : Work) : (s.copyWork w).pending = s.pending ∧ (s.copyWork w).ph = s.ph ∧
    (s.copyWork w).ctxs = s.ctxs ∧ (s.copyWork w).live = s.live ∧ (s.copyWork w).hp = s.hp ∧ (s.copyWork w).wm = s.wm ∧
    (s.copyWork w).slices = s.slices ∧ (s.copyWork w).chans = s.chans ∧ (s.copyWork w).cached = s.cached ∧ (s.copyWork
    w).table = s.table ∧ (s.copyWork w).recs = s.recs ∧ (s.copyWork w).vpA = s.vpA ∧ (s.copyWork w).vpB = s.vpB ∧ (s.copyWork
    w).ks = s.ks ∧ (s.copyWork w).mult = s.mult ∧ (s.copyWork w).evr = s.evr ∧ (s.copyWork w).cus = s.cus ∧ (s.copyWork
    w).loops = s.loops ∧ (s.copyWork w).tam = s.tam ∧ (s.copyWork w).pow = s.pow ∧ (s.copyWork w).drawn = s.drawn ∧
    (s.copyWork w).out = s.out := by
  refine ⟨?_, ?_, ?_, ?_, ?_, ?_, ?_, ?_, ?_, ?_, ?_, ?_, ?_, ?_, ?_, ?_, ?_, ?_, ?_, ?_, ?_, ?_⟩ <;>
    (unfold State.copyWork; simp)

@[simp] theorem State.startNext_frame (s : State) (i : Nat) : (s.startNext i).pending = s.pending ∧ (s.startNext i).ph = s.ph
    ∧ (s.startNext i).ctxs = s.ctxs ∧ (s.startNext i).live = s.live ∧ (s.startNext i).hp = s.hp ∧ (s.startNext i).wm = s.wm ∧
    (s.startNext i).slices = s.slices ∧ (s.startNext i).chans = s.chans ∧ (s.startNext i).cached = s.cached ∧ (s.startNext
    i).table = s.table ∧ (s.startNext i).recs = s.recs ∧ (s.startNext i).vpA = s.vpA ∧ (s.startNext i).vpB = s.vpB ∧
    (s.startNext i).ks = s.ks ∧ (s.startNext i).mult = s.mult ∧ (s.startNext i).evr = s.evr ∧ (s.startNext i).cus = s.cus ∧
    (s.startNext i).loops = s.loops ∧ (s.startNext i).tam = s.tam ∧ (s.startNext i).pow = s.pow ∧ (s.startNext i).drawn =
    s.drawn ∧ (s.startNext i).out = s.out := by
  refine ⟨?_, ?_, ?_, ?_, ?_, ?_, ?_, ?_, ?_, ?_, ?_, ?_, ?_, ?_, ?_, ?_, ?_, ?_, ?_, ?_, ?_, ?_⟩ <;>
    (unfold State.startNext; (try dsimp only); (repeat' split) <;> simp)

@[simp] theorem State.startWork_frame (s : State) (i : Nat) (w : Work) : (s.startWork i w).pending = s.pending ∧ (s.startWork
    i w).ph = s.ph ∧ (s.startWork i w).ctxs = s.ctxs ∧ (s.startWork i w).live = s.live ∧ (s.startWork i w).hp = s.hp ∧
    (s.startWork i w).wm = s.wm ∧ (s.startWork i w).slices = s.slices ∧ (s.startWork i w).chans = s.chans ∧ (s.startWork i
    w).cached = s.cached ∧ (s.startWork i w).table = s.table ∧ (s.startWork i w).recs = s.recs ∧ (s.startWork i w).vpA =
    s.vpA ∧ (s.startWork i w).vpB = s.vpB ∧ (s.startWork i w).ks = s.ks ∧ (s.startWork i w).mult = s.mult ∧ (s.startWork i
    w).evr = s.evr ∧ (s.startWork i w).cus = s.cus ∧ (s.startWork i w).loops = s.loops ∧ (s.startWork i w).tam = s.tam ∧
    (s.startWork i w).pow = s.pow ∧ (s.startWork i w).drawn = s.drawn ∧ (s.startWork i w).out = s.out := by
  refine ⟨?_, ?_, ?_, ?_, ?_, ?_, ?_, ?_, ?_, ?_, ?_, ?_, ?_, ?_, ?_, ?_, ?_, ?_, ?_, ?_, ?_, ?_⟩ <;>
    (unfold State.startWork; simp)

@[simp] theorem State.clearLane_frame (s : State) (i : Nat) (p : Work → Bool) : (s.clearLane i p).pending = s.pending ∧
    (s.clearLane i p).ph = s.ph ∧ (s.clearLane i p).ctxs = s.ctxs ∧ (s.clearLane i p).live = s.live ∧ (s.clearLane i p).hp =
    s.hp ∧ (s.clearLane i p).wm = s.wm ∧ (s.clearLane i p).slices = s.slices ∧ (s.clearLane i p).chans = s.chans ∧
    (s.clearLane i p).cached = s.cached ∧ (s.clearLane i p).table = s.table ∧ (s.clearLane i p).recs = s.recs ∧ (s.clearLane
    i p).vpA = s.vpA ∧ (s.clearLane i p).vpB = s.vpB ∧ (s.clearLane i p).ks = s.ks ∧ (s.clearLane i p).mult = s.mult ∧
    (s.clearLane i p).evr = s.evr ∧ (s.clearLane i p).cus = s.cus ∧ (s.clearLane i p).loops = s.loops ∧ (s.clearLane i p).tam
    = s.tam ∧ (s.clearLane i p).pow = s.pow ∧ (s.clearLane i p).drawn = s.drawn ∧ (s.clearLane i p).out = s.out := by
  refine ⟨?_, ?_, ?_, ?_, ?_, ?_, ?_, ?_, ?_, ?_, ?_, ?_, ?_, ?_, ?_, ?_, ?_, ?_, ?_, ?_, ?_, ?_⟩ <;>
    (unfold State.clearLane; simp)

@[simp] theorem State.dropWork_frame (s : State) (p : Work → Bool) : (s.dropWork p).pending = s.pending ∧ (s.dropWork p).ph =
    s.ph ∧ (s.dropWork p).ctxs = s.ctxs ∧ (s.dropWork p).live = s.live ∧ (s.dropWork p).hp = s.hp ∧ (s.dropWork p).wm = s.wm
    ∧ (s.dropWork p).slices = s.slices ∧ (s.dropWork p).chans = s.chans ∧ (s.dropWork p).cached = s.cached ∧ (s.dropWork
    p).table = s.table ∧ (s.dropWork p).recs = s.recs ∧ (s.dropWork p).vpA = s.vpA ∧ (s.dropWork p).vpB = s.vpB ∧ (s.dropWork
    p).ks = s.ks ∧ (s.dropWork p).mult = s.mult ∧ (s.dropWork p).evr = s.evr ∧ (s.dropWork p).cus = s.cus ∧ (s.dropWork
    p).loops = s.loops ∧ (s.dropWork p).tam = s.tam ∧ (s.dropWork p).pow = s.pow ∧ (s.dropWork p).drawn = s.drawn ∧
    (s.dropWork p).out = s.out := by
  refine ⟨?_, ?_, ?_, ?_, ?_, ?_, ?_, ?_, ?_, ?_, ?_, ?_, ?_, ?_, ?_, ?_, ?_, ?_, ?_, ?_, ?_, ?_⟩ <;>
    (unfold State.dropWork; simp)

@[simp] theorem State.dropRecord_frame (s : State) (ch seq : Nat) : (s.dropRecord ch seq).pending = s.pending ∧ (s.dropRecord
    ch seq).ph = s.ph ∧ (s.dropRecord ch seq).ctxs = s.ctxs ∧ (s.dropRecord ch seq).live = s.live ∧ (s.dropRecord ch seq).hp
    = s.hp ∧ (s.dropRecord ch seq).wm = s.wm ∧ (s.dropRecord ch seq).slices = s.slices ∧ (s.dropRecord ch seq).chans =
    s.chans ∧ (s.dropRecord ch seq).cached = s.cached ∧ (s.dropRecord ch seq).table = s.table ∧ (s.dropRecord ch seq).vpA =
    s.vpA ∧ (s.dropRecord ch seq).vpB = s.vpB ∧ (s.dropRecord ch seq).ks = s.ks ∧ (s.dropRecord ch seq).mult = s.mult ∧
    (s.dropRecord ch seq).evr = s.evr ∧ (s.dropRecord ch seq).cus = s.cus ∧ (s.dropRecord ch seq).loops = s.loops ∧
    (s.dropRecord ch seq).tam = s.tam ∧ (s.dropRecord ch seq).pow = s.pow ∧ (s.dropRecord ch seq).drawn = s.drawn ∧
    (s.dropRecord ch seq).out = s.out := by
  refine ⟨?_, ?_, ?_, ?_, ?_, ?_, ?_, ?_, ?_, ?_, ?_, ?_, ?_, ?_, ?_, ?_, ?_, ?_, ?_, ?_, ?_⟩ <;>
    (unfold State.dropRecord; simp)

@[simp] theorem State.deactivate_frame (s : State) (card : Serial) : (s.deactivate card).pending = s.pending ∧ (s.deactivate
    card).ph = s.ph ∧ (s.deactivate card).ctxs = s.ctxs ∧ (s.deactivate card).live = s.live ∧ (s.deactivate card).hp = s.hp ∧
    (s.deactivate card).wm = s.wm ∧ (s.deactivate card).slices = s.slices ∧ (s.deactivate card).chans = s.chans ∧
    (s.deactivate card).cached = s.cached ∧ (s.deactivate card).table = s.table ∧ (s.deactivate card).recs = s.recs ∧
    (s.deactivate card).vpA = s.vpA ∧ (s.deactivate card).vpB = s.vpB ∧ (s.deactivate card).ks = s.ks ∧ (s.deactivate
    card).lanes = s.lanes ∧ (s.deactivate card).mult = s.mult ∧ (s.deactivate card).evr = s.evr ∧ (s.deactivate card).loops =
    s.loops ∧ (s.deactivate card).tam = s.tam ∧ (s.deactivate card).pow = s.pow ∧ (s.deactivate card).drawn = s.drawn := by
  refine ⟨?_, ?_, ?_, ?_, ?_, ?_, ?_, ?_, ?_, ?_, ?_, ?_, ?_, ?_, ?_, ?_, ?_, ?_, ?_, ?_, ?_⟩ <;>
    (unfold State.deactivate; simp)

@[simp] theorem State.endExchange_frame (s : State) : (s.endExchange).pending = s.pending ∧ (s.endExchange).ph = s.ph ∧
    (s.endExchange).ctxs = s.ctxs ∧ (s.endExchange).live = s.live ∧ (s.endExchange).hp = s.hp ∧ (s.endExchange).wm = s.wm ∧
    (s.endExchange).slices = s.slices ∧ (s.endExchange).chans = s.chans ∧ (s.endExchange).cached = s.cached ∧
    (s.endExchange).table = s.table ∧ (s.endExchange).recs = s.recs ∧ (s.endExchange).vpA = s.vpA ∧ (s.endExchange).vpB =
    s.vpB ∧ (s.endExchange).ks = s.ks ∧ (s.endExchange).lanes = s.lanes ∧ (s.endExchange).mult = s.mult ∧ (s.endExchange).evr
    = s.evr ∧ (s.endExchange).loops = s.loops ∧ (s.endExchange).tam = s.tam ∧ (s.endExchange).pow = s.pow ∧
    (s.endExchange).drawn = s.drawn := by
  refine ⟨?_, ?_, ?_, ?_, ?_, ?_, ?_, ?_, ?_, ?_, ?_, ?_, ?_, ?_, ?_, ?_, ?_, ?_, ?_, ?_, ?_⟩ <;>
    (unfold State.endExchange; (repeat' split) <;> simp)

@[simp] theorem State.endCeremony_frame (s : State) (outcome origin : Nat) : (s.endCeremony outcome origin).pending =
    s.pending ∧ (s.endCeremony outcome origin).ph = s.ph ∧ (s.endCeremony outcome origin).ctxs = s.ctxs ∧ (s.endCeremony
    outcome origin).live = s.live ∧ (s.endCeremony outcome origin).wm = s.wm ∧ (s.endCeremony outcome origin).slices =
    s.slices ∧ (s.endCeremony outcome origin).chans = s.chans ∧ (s.endCeremony outcome origin).cached = s.cached ∧
    (s.endCeremony outcome origin).table = s.table ∧ (s.endCeremony outcome origin).recs = s.recs ∧ (s.endCeremony outcome
    origin).vpA = s.vpA ∧ (s.endCeremony outcome origin).vpB = s.vpB ∧ (s.endCeremony outcome origin).lanes = s.lanes ∧
    (s.endCeremony outcome origin).mult = s.mult ∧ (s.endCeremony outcome origin).loops = s.loops ∧ (s.endCeremony outcome
    origin).tam = s.tam ∧ (s.endCeremony outcome origin).pow = s.pow ∧ (s.endCeremony outcome origin).drawn = s.drawn := by
  refine ⟨?_, ?_, ?_, ?_, ?_, ?_, ?_, ?_, ?_, ?_, ?_, ?_, ?_, ?_, ?_, ?_, ?_, ?_⟩ <;>
    (unfold State.endCeremony; (try dsimp only); (repeat' split) <;> simp)

@[simp] theorem State.zeroEngines_frame (s : State) : (s.zeroEngines).pending = s.pending ∧ (s.zeroEngines).ph = s.ph ∧
    (s.zeroEngines).live = s.live ∧ (s.zeroEngines).hp = s.hp ∧ (s.zeroEngines).wm = s.wm ∧ (s.zeroEngines).slices = s.slices
    ∧ (s.zeroEngines).chans = s.chans ∧ (s.zeroEngines).cached = s.cached ∧ (s.zeroEngines).table = s.table ∧
    (s.zeroEngines).recs = s.recs ∧ (s.zeroEngines).vpA = s.vpA ∧ (s.zeroEngines).vpB = s.vpB ∧ (s.zeroEngines).evr = s.evr ∧
    (s.zeroEngines).cus = s.cus ∧ (s.zeroEngines).loops = s.loops ∧ (s.zeroEngines).tam = s.tam ∧ (s.zeroEngines).pow = s.pow
    ∧ (s.zeroEngines).drawn = s.drawn ∧ (s.zeroEngines).out = s.out := by
  refine ⟨?_, ?_, ?_, ?_, ?_, ?_, ?_, ?_, ?_, ?_, ?_, ?_, ?_, ?_, ?_, ?_, ?_, ?_, ?_⟩ <;>
    (unfold State.zeroEngines; simp)

@[simp] theorem State.endUser_frame (s : State) (l : Live) : (s.endUser l).pending = s.pending ∧ (s.endUser l).ph = s.ph ∧
    (s.endUser l).hp = s.hp ∧ (s.endUser l).wm = s.wm ∧ (s.endUser l).slices = s.slices ∧ (s.endUser l).chans = s.chans ∧
    (s.endUser l).cached = s.cached ∧ (s.endUser l).table = s.table ∧ (s.endUser l).recs = s.recs ∧ (s.endUser l).ks = s.ks ∧
    (s.endUser l).lanes = s.lanes ∧ (s.endUser l).mult = s.mult ∧ (s.endUser l).evr = s.evr ∧ (s.endUser l).cus = s.cus ∧
    (s.endUser l).loops = s.loops ∧ (s.endUser l).tam = s.tam ∧ (s.endUser l).pow = s.pow ∧ (s.endUser l).drawn = s.drawn :=
    by
  refine ⟨?_, ?_, ?_, ?_, ?_, ?_, ?_, ?_, ?_, ?_, ?_, ?_, ?_, ?_, ?_, ?_, ?_, ?_⟩ <;> (unfold State.endUser; simp)

@[simp] theorem State.awaitRestart_frame (s : State) : (s.awaitRestart).pending = s.pending ∧ (s.awaitRestart).ph = s.ph ∧
    (s.awaitRestart).ctxs = s.ctxs ∧ (s.awaitRestart).hp = s.hp ∧ (s.awaitRestart).wm = s.wm ∧ (s.awaitRestart).slices =
    s.slices ∧ (s.awaitRestart).chans = s.chans ∧ (s.awaitRestart).cached = s.cached ∧ (s.awaitRestart).table = s.table ∧
    (s.awaitRestart).recs = s.recs ∧ (s.awaitRestart).vpA = s.vpA ∧ (s.awaitRestart).vpB = s.vpB ∧ (s.awaitRestart).ks = s.ks
    ∧ (s.awaitRestart).lanes = s.lanes ∧ (s.awaitRestart).mult = s.mult ∧ (s.awaitRestart).evr = s.evr ∧ (s.awaitRestart).cus
    = s.cus ∧ (s.awaitRestart).loops = s.loops ∧ (s.awaitRestart).pow = s.pow ∧ (s.awaitRestart).drawn = s.drawn ∧
    (s.awaitRestart).out = s.out := by
  refine ⟨?_, ?_, ?_, ?_, ?_, ?_, ?_, ?_, ?_, ?_, ?_, ?_, ?_, ?_, ?_, ?_, ?_, ?_, ?_, ?_, ?_⟩ <;> rfl

@[simp] theorem State.clearPort_frame (s : State) : (s.clearPort).pending = s.pending ∧ (s.clearPort).ph = s.ph ∧
    (s.clearPort).live = s.live ∧ (s.clearPort).wm = s.wm ∧ (s.clearPort).slices = s.slices ∧ (s.clearPort).chans = s.chans ∧
    (s.clearPort).cached = s.cached ∧ (s.clearPort).table = s.table ∧ (s.clearPort).recs = s.recs ∧ (s.clearPort).vpA = s.vpA
    ∧ (s.clearPort).vpB = s.vpB ∧ (s.clearPort).ks = s.ks ∧ (s.clearPort).lanes = s.lanes ∧ (s.clearPort).mult = s.mult ∧
    (s.clearPort).evr = s.evr ∧ (s.clearPort).cus = s.cus ∧ (s.clearPort).loops = s.loops ∧ (s.clearPort).tam = s.tam ∧
    (s.clearPort).pow = s.pow ∧ (s.clearPort).drawn = s.drawn ∧ (s.clearPort).out = s.out := by
  refine ⟨?_, ?_, ?_, ?_, ?_, ?_, ?_, ?_, ?_, ?_, ?_, ?_, ?_, ?_, ?_, ?_, ?_, ?_, ?_, ?_, ?_⟩ <;>
    (unfold State.clearPort; simp)

@[simp] theorem State.clearHost_frame (s : State) : (s.clearHost).pending = s.pending ∧ (s.clearHost).ph = s.ph ∧
    (s.clearHost).live = s.live ∧ (s.clearHost).wm = s.wm ∧ (s.clearHost).slices = s.slices ∧ (s.clearHost).chans = s.chans ∧
    (s.clearHost).cached = s.cached ∧ (s.clearHost).table = s.table ∧ (s.clearHost).recs = s.recs ∧ (s.clearHost).vpA = s.vpA
    ∧ (s.clearHost).vpB = s.vpB ∧ (s.clearHost).ks = s.ks ∧ (s.clearHost).lanes = s.lanes ∧ (s.clearHost).mult = s.mult ∧
    (s.clearHost).cus = s.cus ∧ (s.clearHost).loops = s.loops ∧ (s.clearHost).tam = s.tam ∧ (s.clearHost).pow = s.pow ∧
    (s.clearHost).drawn = s.drawn ∧ (s.clearHost).out = s.out := by
  refine ⟨?_, ?_, ?_, ?_, ?_, ?_, ?_, ?_, ?_, ?_, ?_, ?_, ?_, ?_, ?_, ?_, ?_, ?_, ?_, ?_⟩ <;>
    (unfold State.clearHost; simp)

@[simp] theorem State.resetLane_frame (s : State) (i : Nat) : (s.resetLane i).pending = s.pending ∧ (s.resetLane i).ph = s.ph
    ∧ (s.resetLane i).ctxs = s.ctxs ∧ (s.resetLane i).live = s.live ∧ (s.resetLane i).wm = s.wm ∧ (s.resetLane i).slices =
    s.slices ∧ (s.resetLane i).chans = s.chans ∧ (s.resetLane i).cached = s.cached ∧ (s.resetLane i).table = s.table ∧
    (s.resetLane i).recs = s.recs ∧ (s.resetLane i).vpA = s.vpA ∧ (s.resetLane i).vpB = s.vpB ∧ (s.resetLane i).ks = s.ks ∧
    (s.resetLane i).mult = s.mult ∧ (s.resetLane i).cus = s.cus ∧ (s.resetLane i).loops = s.loops ∧ (s.resetLane i).tam =
    s.tam ∧ (s.resetLane i).pow = s.pow ∧ (s.resetLane i).drawn = s.drawn := by
  refine ⟨?_, ?_, ?_, ?_, ?_, ?_, ?_, ?_, ?_, ?_, ?_, ?_, ?_, ?_, ?_, ?_, ?_, ?_, ?_⟩ <;>
    (unfold State.resetLane; (try dsimp only); (repeat' split) <;> simp)

@[simp] theorem State.resetLanes_frame (s : State) : (s.resetLanes).pending = s.pending ∧ (s.resetLanes).ph = s.ph ∧
    (s.resetLanes).ctxs = s.ctxs ∧ (s.resetLanes).live = s.live ∧ (s.resetLanes).wm = s.wm ∧ (s.resetLanes).slices = s.slices
    ∧ (s.resetLanes).chans = s.chans ∧ (s.resetLanes).cached = s.cached ∧ (s.resetLanes).table = s.table ∧
    (s.resetLanes).recs = s.recs ∧ (s.resetLanes).vpA = s.vpA ∧ (s.resetLanes).vpB = s.vpB ∧ (s.resetLanes).ks = s.ks ∧
    (s.resetLanes).mult = s.mult ∧ (s.resetLanes).cus = s.cus ∧ (s.resetLanes).loops = s.loops ∧ (s.resetLanes).tam = s.tam ∧
    (s.resetLanes).pow = s.pow ∧ (s.resetLanes).drawn = s.drawn := by
  refine ⟨?_, ?_, ?_, ?_, ?_, ?_, ?_, ?_, ?_, ?_, ?_, ?_, ?_, ?_, ?_, ?_, ?_, ?_, ?_⟩ <;>
    (unfold State.resetLanes; simp)

@[simp] theorem State.clearTable_frame (s : State) : (s.clearTable).pending = s.pending ∧ (s.clearTable).ph = s.ph ∧
    (s.clearTable).ctxs = s.ctxs ∧ (s.clearTable).live = s.live ∧ (s.clearTable).hp = s.hp ∧ (s.clearTable).wm = s.wm ∧
    (s.clearTable).chans = s.chans ∧ (s.clearTable).recs = s.recs ∧ (s.clearTable).vpA = s.vpA ∧ (s.clearTable).vpB = s.vpB ∧
    (s.clearTable).ks = s.ks ∧ (s.clearTable).lanes = s.lanes ∧ (s.clearTable).mult = s.mult ∧ (s.clearTable).evr = s.evr ∧
    (s.clearTable).cus = s.cus ∧ (s.clearTable).loops = s.loops ∧ (s.clearTable).tam = s.tam ∧ (s.clearTable).pow = s.pow ∧
    (s.clearTable).drawn = s.drawn ∧ (s.clearTable).out = s.out := by
  refine ⟨?_, ?_, ?_, ?_, ?_, ?_, ?_, ?_, ?_, ?_, ?_, ?_, ?_, ?_, ?_, ?_, ?_, ?_, ?_, ?_⟩ <;>
    (unfold State.clearTable; simp)

@[simp] theorem State.clearSerial_frame (s : State) : (s.clearSerial).pending = s.pending ∧ (s.clearSerial).ph = s.ph ∧
    (s.clearSerial).ctxs = s.ctxs ∧ (s.clearSerial).live = s.live ∧ (s.clearSerial).hp = s.hp ∧ (s.clearSerial).wm = s.wm ∧
    (s.clearSerial).slices = s.slices ∧ (s.clearSerial).chans = s.chans ∧ (s.clearSerial).cached = s.cached ∧
    (s.clearSerial).table = s.table ∧ (s.clearSerial).recs = s.recs ∧ (s.clearSerial).vpA = s.vpA ∧ (s.clearSerial).vpB =
    s.vpB ∧ (s.clearSerial).ks = s.ks ∧ (s.clearSerial).lanes = s.lanes ∧ (s.clearSerial).mult = s.mult ∧ (s.clearSerial).evr
    = s.evr ∧ (s.clearSerial).loops = s.loops ∧ (s.clearSerial).tam = s.tam ∧ (s.clearSerial).pow = s.pow ∧
    (s.clearSerial).drawn = s.drawn ∧ (s.clearSerial).out = s.out := by
  refine ⟨?_, ?_, ?_, ?_, ?_, ?_, ?_, ?_, ?_, ?_, ?_, ?_, ?_, ?_, ?_, ?_, ?_, ?_, ?_, ?_, ?_, ?_⟩ <;> rfl

@[simp] theorem State.clearLoops_frame (s : State) : (s.clearLoops).pending = s.pending ∧ (s.clearLoops).ph = s.ph ∧
    (s.clearLoops).ctxs = s.ctxs ∧ (s.clearLoops).live = s.live ∧ (s.clearLoops).hp = s.hp ∧ (s.clearLoops).wm = s.wm ∧
    (s.clearLoops).slices = s.slices ∧ (s.clearLoops).chans = s.chans ∧ (s.clearLoops).cached = s.cached ∧
    (s.clearLoops).table = s.table ∧ (s.clearLoops).recs = s.recs ∧ (s.clearLoops).vpA = s.vpA ∧ (s.clearLoops).vpB = s.vpB ∧
    (s.clearLoops).ks = s.ks ∧ (s.clearLoops).lanes = s.lanes ∧ (s.clearLoops).mult = s.mult ∧ (s.clearLoops).evr = s.evr ∧
    (s.clearLoops).cus = s.cus ∧ (s.clearLoops).tam = s.tam ∧ (s.clearLoops).pow = s.pow ∧ (s.clearLoops).drawn = s.drawn ∧
    (s.clearLoops).out = s.out := by
  refine ⟨?_, ?_, ?_, ?_, ?_, ?_, ?_, ?_, ?_, ?_, ?_, ?_, ?_, ?_, ?_, ?_, ?_, ?_, ?_, ?_, ?_, ?_⟩ <;>
    (unfold State.clearLoops; simp)

@[simp] theorem State.toLife_frame (s : State) (new : Life) (cause origin : Nat) : (s.toLife new cause origin).pending =
    s.pending ∧ (s.toLife new cause origin).ph = s.ph ∧ (s.toLife new cause origin).ctxs = s.ctxs ∧ (s.toLife new cause
    origin).live = s.live ∧ (s.toLife new cause origin).wm = s.wm ∧ (s.toLife new cause origin).slices = s.slices ∧ (s.toLife
    new cause origin).chans = s.chans ∧ (s.toLife new cause origin).cached = s.cached ∧ (s.toLife new cause origin).table =
    s.table ∧ (s.toLife new cause origin).recs = s.recs ∧ (s.toLife new cause origin).vpA = s.vpA ∧ (s.toLife new cause
    origin).vpB = s.vpB ∧ (s.toLife new cause origin).ks = s.ks ∧ (s.toLife new cause origin).lanes = s.lanes ∧ (s.toLife new
    cause origin).mult = s.mult ∧ (s.toLife new cause origin).cus = s.cus ∧ (s.toLife new cause origin).loops = s.loops ∧
    (s.toLife new cause origin).drawn = s.drawn := by
  refine ⟨?_, ?_, ?_, ?_, ?_, ?_, ?_, ?_, ?_, ?_, ?_, ?_, ?_, ?_, ?_, ?_, ?_, ?_⟩ <;> (unfold State.toLife; simp)

@[simp] theorem State.eraseKeys_frame (s : State) : (s.eraseKeys).pending = s.pending ∧ (s.eraseKeys).ph = s.ph ∧
    (s.eraseKeys).live = s.live ∧ (s.eraseKeys).wm = s.wm ∧ (s.eraseKeys).chans = s.chans ∧ (s.eraseKeys).cached = s.cached ∧
    (s.eraseKeys).table = s.table ∧ (s.eraseKeys).recs = s.recs ∧ (s.eraseKeys).vpA = s.vpA ∧ (s.eraseKeys).vpB = s.vpB ∧
    (s.eraseKeys).lanes = s.lanes ∧ (s.eraseKeys).mult = s.mult ∧ (s.eraseKeys).cus = s.cus ∧ (s.eraseKeys).loops = s.loops ∧
    (s.eraseKeys).tam = s.tam ∧ (s.eraseKeys).pow = s.pow ∧ (s.eraseKeys).drawn = s.drawn := by
  refine ⟨?_, ?_, ?_, ?_, ?_, ?_, ?_, ?_, ?_, ?_, ?_, ?_, ?_, ?_, ?_, ?_, ?_⟩ <;> (unfold State.eraseKeys; simp)

@[simp] theorem State.restartWindows_frame (s : State) : (s.restartWindows).pending = s.pending ∧ (s.restartWindows).ph =
    s.ph ∧ (s.restartWindows).ctxs = s.ctxs ∧ (s.restartWindows).live = s.live ∧ (s.restartWindows).hp = s.hp ∧
    (s.restartWindows).wm = s.wm ∧ (s.restartWindows).slices = s.slices ∧ (s.restartWindows).cached = s.cached ∧
    (s.restartWindows).table = s.table ∧ (s.restartWindows).recs = s.recs ∧ (s.restartWindows).vpA = s.vpA ∧
    (s.restartWindows).vpB = s.vpB ∧ (s.restartWindows).ks = s.ks ∧ (s.restartWindows).lanes = s.lanes ∧
    (s.restartWindows).mult = s.mult ∧ (s.restartWindows).evr = s.evr ∧ (s.restartWindows).cus = s.cus ∧
    (s.restartWindows).loops = s.loops ∧ (s.restartWindows).tam = s.tam ∧ (s.restartWindows).pow = s.pow ∧
    (s.restartWindows).drawn = s.drawn ∧ (s.restartWindows).out = s.out := by
  refine ⟨?_, ?_, ?_, ?_, ?_, ?_, ?_, ?_, ?_, ?_, ?_, ?_, ?_, ?_, ?_, ?_, ?_, ?_, ?_, ?_, ?_, ?_⟩ <;>
    (unfold State.restartWindows; simp)

@[simp] theorem State.disablePorts_frame (s : State) : (s.disablePorts).pending = s.pending ∧ (s.disablePorts).ph = s.ph ∧
    (s.disablePorts).ctxs = s.ctxs ∧ (s.disablePorts).live = s.live ∧ (s.disablePorts).hp = s.hp ∧ (s.disablePorts).wm = s.wm
    ∧ (s.disablePorts).slices = s.slices ∧ (s.disablePorts).chans = s.chans ∧ (s.disablePorts).cached = s.cached ∧
    (s.disablePorts).table = s.table ∧ (s.disablePorts).recs = s.recs ∧ (s.disablePorts).ks = s.ks ∧ (s.disablePorts).lanes =
    s.lanes ∧ (s.disablePorts).mult = s.mult ∧ (s.disablePorts).evr = s.evr ∧ (s.disablePorts).cus = s.cus ∧
    (s.disablePorts).loops = s.loops ∧ (s.disablePorts).tam = s.tam ∧ (s.disablePorts).pow = s.pow ∧ (s.disablePorts).drawn =
    s.drawn ∧ (s.disablePorts).out = s.out := by
  refine ⟨?_, ?_, ?_, ?_, ?_, ?_, ?_, ?_, ?_, ?_, ?_, ?_, ?_, ?_, ?_, ?_, ?_, ?_, ?_, ?_, ?_⟩ <;> rfl

@[simp] theorem State.eraseTenants_frame (s : State) : (s.eraseTenants).pending = s.pending ∧ (s.eraseTenants).ph = s.ph ∧
    (s.eraseTenants).ctxs = s.ctxs ∧ (s.eraseTenants).live = s.live ∧ (s.eraseTenants).hp = s.hp ∧ (s.eraseTenants).chans =
    s.chans ∧ (s.eraseTenants).cached = s.cached ∧ (s.eraseTenants).table = s.table ∧ (s.eraseTenants).vpA = s.vpA ∧
    (s.eraseTenants).vpB = s.vpB ∧ (s.eraseTenants).ks = s.ks ∧ (s.eraseTenants).lanes = s.lanes ∧ (s.eraseTenants).mult =
    s.mult ∧ (s.eraseTenants).evr = s.evr ∧ (s.eraseTenants).cus = s.cus ∧ (s.eraseTenants).tam = s.tam ∧
    (s.eraseTenants).pow = s.pow ∧ (s.eraseTenants).drawn = s.drawn ∧ (s.eraseTenants).out = s.out := by
  refine ⟨?_, ?_, ?_, ?_, ?_, ?_, ?_, ?_, ?_, ?_, ?_, ?_, ?_, ?_, ?_, ?_, ?_, ?_, ?_⟩ <;> rfl

@[simp] theorem State.dropVital_frame (s : State) : (s.dropVital).pending = s.pending ∧ (s.dropVital).ph = s.ph ∧
    (s.dropVital).ctxs = s.ctxs ∧ (s.dropVital).hp = s.hp ∧ (s.dropVital).wm = s.wm ∧ (s.dropVital).slices = s.slices ∧
    (s.dropVital).chans = s.chans ∧ (s.dropVital).cached = s.cached ∧ (s.dropVital).table = s.table ∧ (s.dropVital).recs =
    s.recs ∧ (s.dropVital).vpA = s.vpA ∧ (s.dropVital).vpB = s.vpB ∧ (s.dropVital).ks = s.ks ∧ (s.dropVital).lanes = s.lanes
    ∧ (s.dropVital).mult = s.mult ∧ (s.dropVital).evr = s.evr ∧ (s.dropVital).cus = s.cus ∧ (s.dropVital).loops = s.loops ∧
    (s.dropVital).tam = s.tam ∧ (s.dropVital).pow = s.pow ∧ (s.dropVital).drawn = s.drawn ∧ (s.dropVital).out = s.out := by
  refine ⟨?_, ?_, ?_, ?_, ?_, ?_, ?_, ?_, ?_, ?_, ?_, ?_, ?_, ?_, ?_, ?_, ?_, ?_, ?_, ?_, ?_, ?_⟩ <;> rfl

@[simp] theorem State.eraseReset_frame (s : State) : (s.eraseReset).pending = s.pending ∧ (s.eraseReset).tam = s.tam ∧
    (s.eraseReset).pow = s.pow ∧ (s.eraseReset).drawn = s.drawn := by
  refine ⟨?_, ?_, ?_, ?_⟩ <;> (unfold State.eraseReset; simp)

@[simp] theorem State.eraseAll_frame (s : State) : (s.eraseAll).pending = s.pending ∧ (s.eraseAll).tam = s.tam ∧
    (s.eraseAll).pow = s.pow ∧ (s.eraseAll).drawn = s.drawn := by
  refine ⟨?_, ?_, ?_, ?_⟩ <;> (unfold State.eraseAll; simp)

@[simp] theorem State.answerDestroys_frame (s : State) : (s.answerDestroys).pending = s.pending ∧ (s.answerDestroys).ph =
    s.ph ∧ (s.answerDestroys).hp = s.hp ∧ (s.answerDestroys).wm = s.wm ∧ (s.answerDestroys).slices = s.slices ∧
    (s.answerDestroys).chans = s.chans ∧ (s.answerDestroys).cached = s.cached ∧ (s.answerDestroys).table = s.table ∧
    (s.answerDestroys).recs = s.recs ∧ (s.answerDestroys).ks = s.ks ∧ (s.answerDestroys).lanes = s.lanes ∧
    (s.answerDestroys).mult = s.mult ∧ (s.answerDestroys).evr = s.evr ∧ (s.answerDestroys).cus = s.cus ∧
    (s.answerDestroys).loops = s.loops ∧ (s.answerDestroys).tam = s.tam ∧ (s.answerDestroys).pow = s.pow ∧
    (s.answerDestroys).drawn = s.drawn := by
  refine ⟨?_, ?_, ?_, ?_, ?_, ?_, ?_, ?_, ?_, ?_, ?_, ?_, ?_, ?_, ?_, ?_, ?_, ?_⟩ <;>
    (unfold State.answerDestroys; simp)

@[simp] theorem State.issueTombstone_frame (s : State) (before cause : Nat) (ok : Bool) : (s.issueTombstone before cause
    ok).pending = s.pending ∧ (s.issueTombstone before cause ok).ph = s.ph ∧ (s.issueTombstone before cause ok).live = s.live
    ∧ (s.issueTombstone before cause ok).hp = s.hp ∧ (s.issueTombstone before cause ok).wm = s.wm ∧ (s.issueTombstone before
    cause ok).slices = s.slices ∧ (s.issueTombstone before cause ok).chans = s.chans ∧ (s.issueTombstone before cause
    ok).cached = s.cached ∧ (s.issueTombstone before cause ok).table = s.table ∧ (s.issueTombstone before cause ok).recs =
    s.recs ∧ (s.issueTombstone before cause ok).vpA = s.vpA ∧ (s.issueTombstone before cause ok).vpB = s.vpB ∧
    (s.issueTombstone before cause ok).lanes = s.lanes ∧ (s.issueTombstone before cause ok).mult = s.mult ∧ (s.issueTombstone
    before cause ok).evr = s.evr ∧ (s.issueTombstone before cause ok).cus = s.cus ∧ (s.issueTombstone before cause ok).loops
    = s.loops ∧ (s.issueTombstone before cause ok).tam = s.tam ∧ (s.issueTombstone before cause ok).out = s.out := by
  refine ⟨?_, ?_, ?_, ?_, ?_, ?_, ?_, ?_, ?_, ?_, ?_, ?_, ?_, ?_, ?_, ?_, ?_, ?_, ?_⟩ <;>
    (unfold State.issueTombstone; (try dsimp only); (repeat' split) <;> simp)

@[simp] theorem State.entomb_frame (s : State) : (s.entomb).pending = s.pending ∧ (s.entomb).ctxs = s.ctxs ∧ (s.entomb).live
    = s.live ∧ (s.entomb).hp = s.hp ∧ (s.entomb).chans = s.chans ∧ (s.entomb).cached = s.cached ∧ (s.entomb).table = s.table
    ∧ (s.entomb).lanes = s.lanes ∧ (s.entomb).mult = s.mult ∧ (s.entomb).cus = s.cus ∧ (s.entomb).pow = s.pow ∧
    (s.entomb).drawn = s.drawn ∧ (s.entomb).out = s.out := by
  refine ⟨?_, ?_, ?_, ?_, ?_, ?_, ?_, ?_, ?_, ?_, ?_, ?_, ?_⟩ <;> (unfold State.entomb; simp)

@[simp] theorem State.decommission_frame (s : State) (origin : Nat) (ok : Bool) : (s.decommission origin ok).pending =
    s.pending ∧ (s.decommission origin ok).live = s.live ∧ (s.decommission origin ok).chans = s.chans ∧ (s.decommission
    origin ok).cached = s.cached ∧ (s.decommission origin ok).table = s.table ∧ (s.decommission origin ok).cus = s.cus := by
  refine ⟨?_, ?_, ?_, ?_, ?_, ?_⟩ <;> (unfold State.decommission; simp)

@[simp] theorem State.endDecom_frame (s : State) : (s.endDecom).pending = s.pending ∧ (s.endDecom).live = s.live ∧
    (s.endDecom).hp = s.hp ∧ (s.endDecom).chans = s.chans ∧ (s.endDecom).cached = s.cached ∧ (s.endDecom).table = s.table ∧
    (s.endDecom).lanes = s.lanes ∧ (s.endDecom).mult = s.mult ∧ (s.endDecom).cus = s.cus ∧ (s.endDecom).out = s.out := by
  refine ⟨?_, ?_, ?_, ?_, ?_, ?_, ?_, ?_, ?_, ?_⟩ <;>
    (unfold State.endDecom; (repeat' split) <;> simp)

@[simp] theorem State.recordFiring_frame (s : State) (i resp supp : Nat) : (s.recordFiring i resp supp).pending = s.pending ∧
    (s.recordFiring i resp supp).ph = s.ph ∧ (s.recordFiring i resp supp).ctxs = s.ctxs ∧ (s.recordFiring i resp supp).live =
    s.live ∧ (s.recordFiring i resp supp).wm = s.wm ∧ (s.recordFiring i resp supp).slices = s.slices ∧ (s.recordFiring i resp
    supp).chans = s.chans ∧ (s.recordFiring i resp supp).cached = s.cached ∧ (s.recordFiring i resp supp).table = s.table ∧
    (s.recordFiring i resp supp).recs = s.recs ∧ (s.recordFiring i resp supp).vpA = s.vpA ∧ (s.recordFiring i resp supp).vpB
    = s.vpB ∧ (s.recordFiring i resp supp).ks = s.ks ∧ (s.recordFiring i resp supp).lanes = s.lanes ∧ (s.recordFiring i resp
    supp).mult = s.mult ∧ (s.recordFiring i resp supp).cus = s.cus ∧ (s.recordFiring i resp supp).loops = s.loops ∧
    (s.recordFiring i resp supp).pow = s.pow ∧ (s.recordFiring i resp supp).drawn = s.drawn := by
  refine ⟨?_, ?_, ?_, ?_, ?_, ?_, ?_, ?_, ?_, ?_, ?_, ?_, ?_, ?_, ?_, ?_, ?_, ?_, ?_⟩ <;>
    (unfold State.recordFiring; simp)

@[simp] theorem State.tamperEvent_frame (s : State) (i resp : Nat) : (s.tamperEvent i resp).pending = s.pending ∧
    (s.tamperEvent i resp).ph = s.ph ∧ (s.tamperEvent i resp).ctxs = s.ctxs ∧ (s.tamperEvent i resp).live = s.live ∧
    (s.tamperEvent i resp).wm = s.wm ∧ (s.tamperEvent i resp).slices = s.slices ∧ (s.tamperEvent i resp).chans = s.chans ∧
    (s.tamperEvent i resp).cached = s.cached ∧ (s.tamperEvent i resp).table = s.table ∧ (s.tamperEvent i resp).recs = s.recs
    ∧ (s.tamperEvent i resp).vpA = s.vpA ∧ (s.tamperEvent i resp).vpB = s.vpB ∧ (s.tamperEvent i resp).ks = s.ks ∧
    (s.tamperEvent i resp).lanes = s.lanes ∧ (s.tamperEvent i resp).mult = s.mult ∧ (s.tamperEvent i resp).cus = s.cus ∧
    (s.tamperEvent i resp).loops = s.loops ∧ (s.tamperEvent i resp).pow = s.pow ∧ (s.tamperEvent i resp).drawn = s.drawn :=
    by
  refine ⟨?_, ?_, ?_, ?_, ?_, ?_, ?_, ?_, ?_, ?_, ?_, ?_, ?_, ?_, ?_, ?_, ?_, ?_, ?_⟩ <;>
    (unfold State.tamperEvent; (try dsimp only); (repeat' split) <;> simp)

@[simp] theorem State.lockDown_frame (s : State) : (s.lockDown).pending = s.pending ∧ (s.lockDown).ph = s.ph ∧
    (s.lockDown).wm = s.wm ∧ (s.lockDown).slices = s.slices ∧ (s.lockDown).chans = s.chans ∧ (s.lockDown).cached = s.cached ∧
    (s.lockDown).table = s.table ∧ (s.lockDown).vpA = s.vpA ∧ (s.lockDown).vpB = s.vpB ∧ (s.lockDown).loops = s.loops ∧
    (s.lockDown).drawn = s.drawn := by
  refine ⟨?_, ?_, ?_, ?_, ?_, ?_, ?_, ?_, ?_, ?_, ?_⟩ <;>
    (unfold State.lockDown; (try dsimp only); (repeat' split) <;> simp)

@[simp] theorem State.erase_frame (s : State) (i : Nat) : (s.erase i).pending = s.pending := by
  (unfold State.erase; (try dsimp only); (repeat' split) <;> simp)

@[simp] theorem State.answer_frame (s : State) (rt : Route) (i : Nat) (p : List Byte) (st : Status) (detail : Nat) (credit :
    Bool) : (s.answer rt i p st detail credit).pending = s.pending ∧ (s.answer rt i p st detail credit).ph = s.ph ∧ (s.answer
    rt i p st detail credit).live = s.live ∧ (s.answer rt i p st detail credit).hp = s.hp ∧ (s.answer rt i p st detail
    credit).wm = s.wm ∧ (s.answer rt i p st detail credit).slices = s.slices ∧ (s.answer rt i p st detail credit).chans =
    s.chans ∧ (s.answer rt i p st detail credit).cached = s.cached ∧ (s.answer rt i p st detail credit).table = s.table ∧
    (s.answer rt i p st detail credit).recs = s.recs ∧ (s.answer rt i p st detail credit).ks = s.ks ∧ (s.answer rt i p st
    detail credit).lanes = s.lanes ∧ (s.answer rt i p st detail credit).mult = s.mult ∧ (s.answer rt i p st detail
    credit).evr = s.evr ∧ (s.answer rt i p st detail credit).cus = s.cus ∧ (s.answer rt i p st detail credit).loops = s.loops
    ∧ (s.answer rt i p st detail credit).tam = s.tam ∧ (s.answer rt i p st detail credit).pow = s.pow ∧ (s.answer rt i p st
    detail credit).drawn = s.drawn := by
  refine ⟨?_, ?_, ?_, ?_, ?_, ?_, ?_, ?_, ?_, ?_, ?_, ?_, ?_, ?_, ?_, ?_, ?_, ?_, ?_⟩ <;> (unfold State.answer; simp)

@[simp] theorem State.accepted_frame (s : State) (i : Nat) : (s.accepted i).pending = s.pending ∧ (s.accepted i).ph = s.ph ∧
    (s.accepted i).live = s.live ∧ (s.accepted i).hp = s.hp ∧ (s.accepted i).wm = s.wm ∧ (s.accepted i).slices = s.slices ∧
    (s.accepted i).chans = s.chans ∧ (s.accepted i).cached = s.cached ∧ (s.accepted i).table = s.table ∧ (s.accepted i).recs
    = s.recs ∧ (s.accepted i).vpA = s.vpA ∧ (s.accepted i).vpB = s.vpB ∧ (s.accepted i).ks = s.ks ∧ (s.accepted i).lanes =
    s.lanes ∧ (s.accepted i).mult = s.mult ∧ (s.accepted i).evr = s.evr ∧ (s.accepted i).cus = s.cus ∧ (s.accepted i).loops =
    s.loops ∧ (s.accepted i).tam = s.tam ∧ (s.accepted i).pow = s.pow ∧ (s.accepted i).drawn = s.drawn ∧ (s.accepted i).out =
    s.out := by
  refine ⟨?_, ?_, ?_, ?_, ?_, ?_, ?_, ?_, ?_, ?_, ?_, ?_, ?_, ?_, ?_, ?_, ?_, ?_, ?_, ?_, ?_, ?_⟩ <;>
    (unfold State.accepted; simp)

@[simp] theorem State.rdyRises_frame (s : State) : (s.rdyRises).pending = s.pending ∧ (s.rdyRises).ph = s.ph ∧
    (s.rdyRises).ctxs = s.ctxs ∧ (s.rdyRises).live = s.live ∧ (s.rdyRises).hp = s.hp ∧ (s.rdyRises).wm = s.wm ∧
    (s.rdyRises).slices = s.slices ∧ (s.rdyRises).chans = s.chans ∧ (s.rdyRises).cached = s.cached ∧ (s.rdyRises).table =
    s.table ∧ (s.rdyRises).recs = s.recs ∧ (s.rdyRises).ks = s.ks ∧ (s.rdyRises).lanes = s.lanes ∧ (s.rdyRises).mult = s.mult
    ∧ (s.rdyRises).evr = s.evr ∧ (s.rdyRises).cus = s.cus ∧ (s.rdyRises).loops = s.loops ∧ (s.rdyRises).tam = s.tam ∧
    (s.rdyRises).pow = s.pow ∧ (s.rdyRises).drawn = s.drawn ∧ (s.rdyRises).out = s.out := by
  refine ⟨?_, ?_, ?_, ?_, ?_, ?_, ?_, ?_, ?_, ?_, ?_, ?_, ?_, ?_, ?_, ?_, ?_, ?_, ?_, ?_, ?_⟩ <;> rfl

@[simp] theorem State.startFrame_frame (s : State) (p : Port) (clkHigh : Bool) : (s.startFrame p clkHigh).pending = s.pending
    ∧ (s.startFrame p clkHigh).ph = s.ph ∧ (s.startFrame p clkHigh).ctxs = s.ctxs ∧ (s.startFrame p clkHigh).live = s.live ∧
    (s.startFrame p clkHigh).hp = s.hp ∧ (s.startFrame p clkHigh).wm = s.wm ∧ (s.startFrame p clkHigh).slices = s.slices ∧
    (s.startFrame p clkHigh).chans = s.chans ∧ (s.startFrame p clkHigh).cached = s.cached ∧ (s.startFrame p clkHigh).table =
    s.table ∧ (s.startFrame p clkHigh).recs = s.recs ∧ (s.startFrame p clkHigh).ks = s.ks ∧ (s.startFrame p clkHigh).lanes =
    s.lanes ∧ (s.startFrame p clkHigh).mult = s.mult ∧ (s.startFrame p clkHigh).evr = s.evr ∧ (s.startFrame p clkHigh).cus =
    s.cus ∧ (s.startFrame p clkHigh).loops = s.loops ∧ (s.startFrame p clkHigh).tam = s.tam ∧ (s.startFrame p clkHigh).pow =
    s.pow ∧ (s.startFrame p clkHigh).drawn = s.drawn := by
  refine ⟨?_, ?_, ?_, ?_, ?_, ?_, ?_, ?_, ?_, ?_, ?_, ?_, ?_, ?_, ?_, ?_, ?_, ?_, ?_, ?_⟩ <;>
    (unfold State.startFrame; simp)

@[simp] theorem State.unstarted_frame (s : State) (p : Port) : (s.unstarted p).pending = s.pending ∧ (s.unstarted p).ph =
    s.ph ∧ (s.unstarted p).ctxs = s.ctxs ∧ (s.unstarted p).live = s.live ∧ (s.unstarted p).hp = s.hp ∧ (s.unstarted p).wm =
    s.wm ∧ (s.unstarted p).slices = s.slices ∧ (s.unstarted p).chans = s.chans ∧ (s.unstarted p).cached = s.cached ∧
    (s.unstarted p).table = s.table ∧ (s.unstarted p).recs = s.recs ∧ (s.unstarted p).ks = s.ks ∧ (s.unstarted p).lanes =
    s.lanes ∧ (s.unstarted p).mult = s.mult ∧ (s.unstarted p).evr = s.evr ∧ (s.unstarted p).cus = s.cus ∧ (s.unstarted
    p).loops = s.loops ∧ (s.unstarted p).tam = s.tam ∧ (s.unstarted p).pow = s.pow ∧ (s.unstarted p).drawn = s.drawn := by
  refine ⟨?_, ?_, ?_, ?_, ?_, ?_, ?_, ?_, ?_, ?_, ?_, ?_, ?_, ?_, ?_, ?_, ?_, ?_, ?_, ?_⟩ <;>
    (unfold State.unstarted; (try dsimp only); (repeat' split) <;> simp)

@[simp] theorem State.ignoreFrame_frame (s : State) (p : Port) : (s.ignoreFrame p).pending = s.pending ∧ (s.ignoreFrame p).ph
    = s.ph ∧ (s.ignoreFrame p).ctxs = s.ctxs ∧ (s.ignoreFrame p).live = s.live ∧ (s.ignoreFrame p).wm = s.wm ∧ (s.ignoreFrame
    p).slices = s.slices ∧ (s.ignoreFrame p).chans = s.chans ∧ (s.ignoreFrame p).cached = s.cached ∧ (s.ignoreFrame p).table
    = s.table ∧ (s.ignoreFrame p).recs = s.recs ∧ (s.ignoreFrame p).ks = s.ks ∧ (s.ignoreFrame p).lanes = s.lanes ∧
    (s.ignoreFrame p).mult = s.mult ∧ (s.ignoreFrame p).cus = s.cus ∧ (s.ignoreFrame p).loops = s.loops ∧ (s.ignoreFrame
    p).tam = s.tam ∧ (s.ignoreFrame p).pow = s.pow ∧ (s.ignoreFrame p).drawn = s.drawn := by
  refine ⟨?_, ?_, ?_, ?_, ?_, ?_, ?_, ?_, ?_, ?_, ?_, ?_, ?_, ?_, ?_, ?_, ?_, ?_⟩ <;>
    (unfold State.ignoreFrame; (try dsimp only); (repeat' split) <;> simp)

@[simp] theorem State.answerFrame_frame (s : State) (p : Port) (stored : Bool) (r : List Byte) : (s.answerFrame p stored
    r).pending = s.pending ∧ (s.answerFrame p stored r).ph = s.ph ∧ (s.answerFrame p stored r).ctxs = s.ctxs ∧ (s.answerFrame
    p stored r).live = s.live ∧ (s.answerFrame p stored r).hp = s.hp ∧ (s.answerFrame p stored r).wm = s.wm ∧ (s.answerFrame
    p stored r).slices = s.slices ∧ (s.answerFrame p stored r).chans = s.chans ∧ (s.answerFrame p stored r).cached = s.cached
    ∧ (s.answerFrame p stored r).table = s.table ∧ (s.answerFrame p stored r).recs = s.recs ∧ (s.answerFrame p stored r).ks =
    s.ks ∧ (s.answerFrame p stored r).lanes = s.lanes ∧ (s.answerFrame p stored r).mult = s.mult ∧ (s.answerFrame p stored
    r).evr = s.evr ∧ (s.answerFrame p stored r).cus = s.cus ∧ (s.answerFrame p stored r).loops = s.loops ∧ (s.answerFrame p
    stored r).tam = s.tam ∧ (s.answerFrame p stored r).pow = s.pow ∧ (s.answerFrame p stored r).drawn = s.drawn ∧
    (s.answerFrame p stored r).out = s.out := by
  refine ⟨?_, ?_, ?_, ?_, ?_, ?_, ?_, ?_, ?_, ?_, ?_, ?_, ?_, ?_, ?_, ?_, ?_, ?_, ?_, ?_, ?_⟩ <;>
    (unfold State.answerFrame; (try dsimp only); (repeat' split) <;> simp)

@[simp] theorem State.refuseFrame_frame (s : State) (p : Port) (op alive : Nat) (st : Status) (detail : Nat) : (s.refuseFrame
    p op alive st detail).pending = s.pending ∧ (s.refuseFrame p op alive st detail).ph = s.ph ∧ (s.refuseFrame p op alive st
    detail).ctxs = s.ctxs ∧ (s.refuseFrame p op alive st detail).live = s.live ∧ (s.refuseFrame p op alive st detail).hp =
    s.hp ∧ (s.refuseFrame p op alive st detail).wm = s.wm ∧ (s.refuseFrame p op alive st detail).slices = s.slices ∧
    (s.refuseFrame p op alive st detail).chans = s.chans ∧ (s.refuseFrame p op alive st detail).cached = s.cached ∧
    (s.refuseFrame p op alive st detail).table = s.table ∧ (s.refuseFrame p op alive st detail).recs = s.recs ∧
    (s.refuseFrame p op alive st detail).ks = s.ks ∧ (s.refuseFrame p op alive st detail).lanes = s.lanes ∧ (s.refuseFrame p
    op alive st detail).mult = s.mult ∧ (s.refuseFrame p op alive st detail).evr = s.evr ∧ (s.refuseFrame p op alive st
    detail).cus = s.cus ∧ (s.refuseFrame p op alive st detail).loops = s.loops ∧ (s.refuseFrame p op alive st detail).tam =
    s.tam ∧ (s.refuseFrame p op alive st detail).pow = s.pow ∧ (s.refuseFrame p op alive st detail).drawn = s.drawn ∧
    (s.refuseFrame p op alive st detail).out = s.out := by
  refine ⟨?_, ?_, ?_, ?_, ?_, ?_, ?_, ?_, ?_, ?_, ?_, ?_, ?_, ?_, ?_, ?_, ?_, ?_, ?_, ?_, ?_⟩ <;>
    (unfold State.refuseFrame; simp)

@[simp] theorem State.turnAway_frame (s : State) (p : Port) (op alive : Nat) (detail : Nat) : (s.turnAway p op alive
    detail).pending = s.pending ∧ (s.turnAway p op alive detail).ph = s.ph ∧ (s.turnAway p op alive detail).ctxs = s.ctxs ∧
    (s.turnAway p op alive detail).live = s.live ∧ (s.turnAway p op alive detail).hp = s.hp ∧ (s.turnAway p op alive
    detail).wm = s.wm ∧ (s.turnAway p op alive detail).slices = s.slices ∧ (s.turnAway p op alive detail).chans = s.chans ∧
    (s.turnAway p op alive detail).cached = s.cached ∧ (s.turnAway p op alive detail).table = s.table ∧ (s.turnAway p op
    alive detail).recs = s.recs ∧ (s.turnAway p op alive detail).ks = s.ks ∧ (s.turnAway p op alive detail).lanes = s.lanes ∧
    (s.turnAway p op alive detail).mult = s.mult ∧ (s.turnAway p op alive detail).evr = s.evr ∧ (s.turnAway p op alive
    detail).cus = s.cus ∧ (s.turnAway p op alive detail).loops = s.loops ∧ (s.turnAway p op alive detail).tam = s.tam ∧
    (s.turnAway p op alive detail).pow = s.pow ∧ (s.turnAway p op alive detail).drawn = s.drawn ∧ (s.turnAway p op alive
    detail).out = s.out := by
  refine ⟨?_, ?_, ?_, ?_, ?_, ?_, ?_, ?_, ?_, ?_, ?_, ?_, ?_, ?_, ?_, ?_, ?_, ?_, ?_, ?_, ?_⟩ <;>
    (unfold State.turnAway; simp)

@[simp] theorem State.dropCache_frame (s : State) (k : Nat) : (s.dropCache k).pending = s.pending ∧ (s.dropCache k).ph = s.ph
    ∧ (s.dropCache k).ctxs = s.ctxs ∧ (s.dropCache k).live = s.live ∧ (s.dropCache k).hp = s.hp ∧ (s.dropCache k).wm = s.wm ∧
    (s.dropCache k).slices = s.slices ∧ (s.dropCache k).chans = s.chans ∧ (s.dropCache k).cached = s.cached ∧ (s.dropCache
    k).table = s.table ∧ (s.dropCache k).recs = s.recs ∧ (s.dropCache k).vpA = s.vpA ∧ (s.dropCache k).vpB = s.vpB ∧
    (s.dropCache k).lanes = s.lanes ∧ (s.dropCache k).mult = s.mult ∧ (s.dropCache k).evr = s.evr ∧ (s.dropCache k).cus =
    s.cus ∧ (s.dropCache k).loops = s.loops ∧ (s.dropCache k).tam = s.tam ∧ (s.dropCache k).pow = s.pow ∧ (s.dropCache
    k).drawn = s.drawn ∧ (s.dropCache k).out = s.out := by
  refine ⟨?_, ?_, ?_, ?_, ?_, ?_, ?_, ?_, ?_, ?_, ?_, ?_, ?_, ?_, ?_, ?_, ?_, ?_, ?_, ?_, ?_, ?_⟩ <;>
    (unfold State.dropCache; simp)

@[simp] theorem State.fireLane_frame (s : State) : (s.fireLane).pending = s.pending ∧ (s.fireLane).ph = s.ph ∧
    (s.fireLane).ctxs = s.ctxs ∧ (s.fireLane).live = s.live ∧ (s.fireLane).wm = s.wm ∧ (s.fireLane).slices = s.slices ∧
    (s.fireLane).chans = s.chans ∧ (s.fireLane).cached = s.cached ∧ (s.fireLane).table = s.table ∧ (s.fireLane).recs = s.recs
    ∧ (s.fireLane).vpA = s.vpA ∧ (s.fireLane).vpB = s.vpB ∧ (s.fireLane).ks = s.ks ∧ (s.fireLane).lanes = s.lanes ∧
    (s.fireLane).mult = s.mult ∧ (s.fireLane).evr = s.evr ∧ (s.fireLane).cus = s.cus ∧ (s.fireLane).loops = s.loops ∧
    (s.fireLane).tam = s.tam ∧ (s.fireLane).pow = s.pow ∧ (s.fireLane).drawn = s.drawn := by
  refine ⟨?_, ?_, ?_, ?_, ?_, ?_, ?_, ?_, ?_, ?_, ?_, ?_, ?_, ?_, ?_, ?_, ?_, ?_, ?_, ?_, ?_⟩ <;>
    (unfold State.fireLane; simp)

@[simp] theorem State.wakeKept_frame (s : State) : (s.wakeKept).pending = s.pending ∧ (s.wakeKept).ph = s.ph ∧
    (s.wakeKept).ctxs = s.ctxs ∧ (s.wakeKept).live = s.live ∧ (s.wakeKept).hp = s.hp ∧ (s.wakeKept).wm = s.wm ∧
    (s.wakeKept).slices = s.slices ∧ (s.wakeKept).chans = s.chans ∧ (s.wakeKept).cached = s.cached ∧ (s.wakeKept).table =
    s.table ∧ (s.wakeKept).recs = s.recs ∧ (s.wakeKept).vpA = s.vpA ∧ (s.wakeKept).vpB = s.vpB ∧ (s.wakeKept).ks = s.ks ∧
    (s.wakeKept).mult = s.mult ∧ (s.wakeKept).evr = s.evr ∧ (s.wakeKept).cus = s.cus ∧ (s.wakeKept).loops = s.loops ∧
    (s.wakeKept).tam = s.tam ∧ (s.wakeKept).pow = s.pow ∧ (s.wakeKept).drawn = s.drawn ∧ (s.wakeKept).out = s.out := by
  refine ⟨?_, ?_, ?_, ?_, ?_, ?_, ?_, ?_, ?_, ?_, ?_, ?_, ?_, ?_, ?_, ?_, ?_, ?_, ?_, ?_, ?_, ?_⟩ <;>
    (unfold State.wakeKept; simp)

@[simp] theorem State.endWork_frame (s : State) (w : Work) : (s.endWork w).pending = s.pending ∧ (s.endWork w).ph = s.ph ∧
    (s.endWork w).ctxs = s.ctxs ∧ (s.endWork w).live = s.live ∧ (s.endWork w).hp = s.hp ∧ (s.endWork w).wm = s.wm ∧
    (s.endWork w).slices = s.slices ∧ (s.endWork w).chans = s.chans ∧ (s.endWork w).cached = s.cached ∧ (s.endWork w).table =
    s.table ∧ (s.endWork w).recs = s.recs ∧ (s.endWork w).vpA = s.vpA ∧ (s.endWork w).vpB = s.vpB ∧ (s.endWork w).ks = s.ks ∧
    (s.endWork w).mult = s.mult ∧ (s.endWork w).evr = s.evr ∧ (s.endWork w).cus = s.cus ∧ (s.endWork w).loops = s.loops ∧
    (s.endWork w).tam = s.tam ∧ (s.endWork w).pow = s.pow ∧ (s.endWork w).drawn = s.drawn ∧ (s.endWork w).out = s.out := by
  refine ⟨?_, ?_, ?_, ?_, ?_, ?_, ?_, ?_, ?_, ?_, ?_, ?_, ?_, ?_, ?_, ?_, ?_, ?_, ?_, ?_, ?_, ?_⟩ <;>
    (unfold State.endWork; simp)

@[simp] theorem State.startBulk_frame (s : State) : (s.startBulk).pending = s.pending ∧ (s.startBulk).ph = s.ph ∧
    (s.startBulk).ctxs = s.ctxs ∧ (s.startBulk).live = s.live ∧ (s.startBulk).hp = s.hp ∧ (s.startBulk).wm = s.wm ∧
    (s.startBulk).slices = s.slices ∧ (s.startBulk).chans = s.chans ∧ (s.startBulk).cached = s.cached ∧ (s.startBulk).table =
    s.table ∧ (s.startBulk).recs = s.recs ∧ (s.startBulk).vpA = s.vpA ∧ (s.startBulk).vpB = s.vpB ∧ (s.startBulk).ks = s.ks ∧
    (s.startBulk).mult = s.mult ∧ (s.startBulk).evr = s.evr ∧ (s.startBulk).cus = s.cus ∧ (s.startBulk).loops = s.loops ∧
    (s.startBulk).tam = s.tam ∧ (s.startBulk).drawn = s.drawn ∧ (s.startBulk).out = s.out := by
  refine ⟨?_, ?_, ?_, ?_, ?_, ?_, ?_, ?_, ?_, ?_, ?_, ?_, ?_, ?_, ?_, ?_, ?_, ?_, ?_, ?_, ?_⟩ <;>
    (unfold State.startBulk; (repeat' split) <;> simp)

@[simp] theorem State.schedule_frame (s : State) : (s.schedule).pending = s.pending ∧ (s.schedule).ph = s.ph ∧
    (s.schedule).ctxs = s.ctxs ∧ (s.schedule).live = s.live ∧ (s.schedule).hp = s.hp ∧ (s.schedule).wm = s.wm ∧
    (s.schedule).slices = s.slices ∧ (s.schedule).chans = s.chans ∧ (s.schedule).cached = s.cached ∧ (s.schedule).table =
    s.table ∧ (s.schedule).recs = s.recs ∧ (s.schedule).vpA = s.vpA ∧ (s.schedule).vpB = s.vpB ∧ (s.schedule).ks = s.ks ∧
    (s.schedule).mult = s.mult ∧ (s.schedule).evr = s.evr ∧ (s.schedule).cus = s.cus ∧ (s.schedule).loops = s.loops ∧
    (s.schedule).tam = s.tam ∧ (s.schedule).drawn = s.drawn ∧ (s.schedule).out = s.out := by
  refine ⟨?_, ?_, ?_, ?_, ?_, ?_, ?_, ?_, ?_, ?_, ?_, ?_, ?_, ?_, ?_, ?_, ?_, ?_, ?_, ?_, ?_⟩ <;>
    (unfold State.schedule; simp)

@[simp] theorem State.noteLane_frame (s : State) (i : Nat) (w : Work) : (s.noteLane i w).pending = s.pending ∧ (s.noteLane i
    w).ph = s.ph ∧ (s.noteLane i w).ctxs = s.ctxs ∧ (s.noteLane i w).live = s.live ∧ (s.noteLane i w).hp = s.hp ∧ (s.noteLane
    i w).wm = s.wm ∧ (s.noteLane i w).slices = s.slices ∧ (s.noteLane i w).chans = s.chans ∧ (s.noteLane i w).cached =
    s.cached ∧ (s.noteLane i w).table = s.table ∧ (s.noteLane i w).vpA = s.vpA ∧ (s.noteLane i w).vpB = s.vpB ∧ (s.noteLane i
    w).ks = s.ks ∧ (s.noteLane i w).lanes = s.lanes ∧ (s.noteLane i w).mult = s.mult ∧ (s.noteLane i w).evr = s.evr ∧
    (s.noteLane i w).cus = s.cus ∧ (s.noteLane i w).loops = s.loops ∧ (s.noteLane i w).tam = s.tam ∧ (s.noteLane i w).pow =
    s.pow ∧ (s.noteLane i w).drawn = s.drawn ∧ (s.noteLane i w).out = s.out := by
  refine ⟨?_, ?_, ?_, ?_, ?_, ?_, ?_, ?_, ?_, ?_, ?_, ?_, ?_, ?_, ?_, ?_, ?_, ?_, ?_, ?_, ?_, ?_⟩ <;> rfl

@[simp] theorem State.answerRetire_frame (s : State) (i : Nat) : (s.answerRetire i).pending = s.pending ∧ (s.answerRetire
    i).ph = s.ph ∧ (s.answerRetire i).hp = s.hp ∧ (s.answerRetire i).wm = s.wm ∧ (s.answerRetire i).slices = s.slices ∧
    (s.answerRetire i).chans = s.chans ∧ (s.answerRetire i).cached = s.cached ∧ (s.answerRetire i).table = s.table ∧
    (s.answerRetire i).recs = s.recs ∧ (s.answerRetire i).ks = s.ks ∧ (s.answerRetire i).lanes = s.lanes ∧ (s.answerRetire
    i).mult = s.mult ∧ (s.answerRetire i).evr = s.evr ∧ (s.answerRetire i).cus = s.cus ∧ (s.answerRetire i).loops = s.loops ∧
    (s.answerRetire i).tam = s.tam ∧ (s.answerRetire i).pow = s.pow ∧ (s.answerRetire i).drawn = s.drawn := by
  refine ⟨?_, ?_, ?_, ?_, ?_, ?_, ?_, ?_, ?_, ?_, ?_, ?_, ?_, ?_, ?_, ?_, ?_, ?_⟩ <;> (unfold State.answerRetire; simp)

@[simp] theorem State.setCurve_frame (s : State) (id : Nat) (c : Curve) : (s.setCurve id c).pending = s.pending ∧ (s.setCurve
    id c).ph = s.ph ∧ (s.setCurve id c).ctxs = s.ctxs ∧ (s.setCurve id c).live = s.live ∧ (s.setCurve id c).hp = s.hp ∧
    (s.setCurve id c).wm = s.wm ∧ (s.setCurve id c).slices = s.slices ∧ (s.setCurve id c).chans = s.chans ∧ (s.setCurve id
    c).cached = s.cached ∧ (s.setCurve id c).table = s.table ∧ (s.setCurve id c).recs = s.recs ∧ (s.setCurve id c).vpA =
    s.vpA ∧ (s.setCurve id c).vpB = s.vpB ∧ (s.setCurve id c).lanes = s.lanes ∧ (s.setCurve id c).mult = s.mult ∧ (s.setCurve
    id c).evr = s.evr ∧ (s.setCurve id c).cus = s.cus ∧ (s.setCurve id c).loops = s.loops ∧ (s.setCurve id c).tam = s.tam ∧
    (s.setCurve id c).pow = s.pow ∧ (s.setCurve id c).drawn = s.drawn ∧ (s.setCurve id c).out = s.out := by
  refine ⟨?_, ?_, ?_, ?_, ?_, ?_, ?_, ?_, ?_, ?_, ?_, ?_, ?_, ?_, ?_, ?_, ?_, ?_, ?_, ?_, ?_, ?_⟩ <;>
    (unfold State.setCurve; simp)

@[simp] theorem State.loseKey_frame (s : State) (k : Nat) : (s.loseKey k).pending = s.pending ∧ (s.loseKey k).ph = s.ph ∧
    (s.loseKey k).live = s.live ∧ (s.loseKey k).wm = s.wm ∧ (s.loseKey k).chans = s.chans ∧ (s.loseKey k).cached = s.cached ∧
    (s.loseKey k).table = s.table ∧ (s.loseKey k).recs = s.recs ∧ (s.loseKey k).vpA = s.vpA ∧ (s.loseKey k).vpB = s.vpB ∧
    (s.loseKey k).lanes = s.lanes ∧ (s.loseKey k).mult = s.mult ∧ (s.loseKey k).cus = s.cus ∧ (s.loseKey k).loops = s.loops ∧
    (s.loseKey k).tam = s.tam ∧ (s.loseKey k).pow = s.pow ∧ (s.loseKey k).drawn = s.drawn := by
  refine ⟨?_, ?_, ?_, ?_, ?_, ?_, ?_, ?_, ?_, ?_, ?_, ?_, ?_, ?_, ?_, ?_, ?_⟩ <;>
    (unfold State.loseKey; (try dsimp only); (repeat' split) <;> simp)

@[simp] theorem State.loseDevice_frame_a (s : State) (k : Nat) : (s.loseDevice k).pending = s.pending ∧ (s.loseDevice k).ph =
    s.ph ∧ (s.loseDevice k).ctxs = s.ctxs ∧ (s.loseDevice k).live = s.live ∧ (s.loseDevice k).wm = s.wm ∧ (s.loseDevice
    k).slices = s.slices := by
  refine ⟨?_, ?_, ?_, ?_, ?_, ?_⟩ <;> (unfold State.loseDevice; (try dsimp only); (repeat' split) <;> simp)

@[simp] theorem State.loseDevice_frame_b (s : State) (k : Nat) : (s.loseDevice k).chans = s.chans ∧ (s.loseDevice k).cached =
    s.cached ∧ (s.loseDevice k).table = s.table ∧ (s.loseDevice k).recs = s.recs ∧ (s.loseDevice k).lanes = s.lanes ∧
    (s.loseDevice k).mult = s.mult := by
  refine ⟨?_, ?_, ?_, ?_, ?_, ?_⟩ <;> (unfold State.loseDevice; (try dsimp only); (repeat' split) <;> simp)

@[simp] theorem State.loseDevice_frame_c (s : State) (k : Nat) : (s.loseDevice k).cus = s.cus ∧ (s.loseDevice k).loops =
    s.loops ∧ (s.loseDevice k).tam = s.tam ∧ (s.loseDevice k).pow = s.pow ∧ (s.loseDevice k).drawn = s.drawn := by
  refine ⟨?_, ?_, ?_, ?_, ?_⟩ <;> (unfold State.loseDevice; (try dsimp only); (repeat' split) <;> simp)

@[simp] theorem State.visit_frame (s : State) (k : Nat) (l : Look) : (s.visit k l).pending = s.pending ∧ (s.visit k l).ph =
    s.ph ∧ (s.visit k l).live = s.live ∧ (s.visit k l).wm = s.wm ∧ (s.visit k l).chans = s.chans ∧ (s.visit k l).cached =
    s.cached ∧ (s.visit k l).table = s.table ∧ (s.visit k l).recs = s.recs ∧ (s.visit k l).lanes = s.lanes ∧ (s.visit k
    l).mult = s.mult ∧ (s.visit k l).cus = s.cus ∧ (s.visit k l).loops = s.loops ∧ (s.visit k l).tam = s.tam ∧ (s.visit k
    l).pow = s.pow ∧ (s.visit k l).drawn = s.drawn := by
  refine ⟨?_, ?_, ?_, ?_, ?_, ?_, ?_, ?_, ?_, ?_, ?_, ?_, ?_, ?_, ?_⟩ <;>
    (unfold State.visit; (try dsimp only); (repeat' split) <;> simp)

@[simp] theorem State.touchEntry_frame (s : State) (ch : Nat) : (s.touchEntry ch).pending = s.pending ∧ (s.touchEntry ch).ph
    = s.ph ∧ (s.touchEntry ch).ctxs = s.ctxs ∧ (s.touchEntry ch).live = s.live ∧ (s.touchEntry ch).hp = s.hp ∧ (s.touchEntry
    ch).wm = s.wm ∧ (s.touchEntry ch).slices = s.slices ∧ (s.touchEntry ch).chans = s.chans ∧ (s.touchEntry ch).table =
    s.table ∧ (s.touchEntry ch).recs = s.recs ∧ (s.touchEntry ch).vpA = s.vpA ∧ (s.touchEntry ch).vpB = s.vpB ∧ (s.touchEntry
    ch).ks = s.ks ∧ (s.touchEntry ch).lanes = s.lanes ∧ (s.touchEntry ch).mult = s.mult ∧ (s.touchEntry ch).evr = s.evr ∧
    (s.touchEntry ch).cus = s.cus ∧ (s.touchEntry ch).loops = s.loops ∧ (s.touchEntry ch).tam = s.tam ∧ (s.touchEntry ch).pow
    = s.pow ∧ (s.touchEntry ch).drawn = s.drawn ∧ (s.touchEntry ch).out = s.out := by
  refine ⟨?_, ?_, ?_, ?_, ?_, ?_, ?_, ?_, ?_, ?_, ?_, ?_, ?_, ?_, ?_, ?_, ?_, ?_, ?_, ?_, ?_, ?_⟩ <;>
    (unfold State.touchEntry; (repeat' split) <;> simp)

@[simp] theorem State.cacheEntry_frame (s : State) (ch : Nat) (e : List Byte) : (s.cacheEntry ch e).pending = s.pending ∧
    (s.cacheEntry ch e).ph = s.ph ∧ (s.cacheEntry ch e).ctxs = s.ctxs ∧ (s.cacheEntry ch e).live = s.live ∧ (s.cacheEntry ch
    e).hp = s.hp ∧ (s.cacheEntry ch e).wm = s.wm ∧ (s.cacheEntry ch e).slices = s.slices ∧ (s.cacheEntry ch e).table =
    s.table ∧ (s.cacheEntry ch e).recs = s.recs ∧ (s.cacheEntry ch e).vpA = s.vpA ∧ (s.cacheEntry ch e).vpB = s.vpB ∧
    (s.cacheEntry ch e).ks = s.ks ∧ (s.cacheEntry ch e).lanes = s.lanes ∧ (s.cacheEntry ch e).mult = s.mult ∧ (s.cacheEntry
    ch e).evr = s.evr ∧ (s.cacheEntry ch e).cus = s.cus ∧ (s.cacheEntry ch e).loops = s.loops ∧ (s.cacheEntry ch e).tam =
    s.tam ∧ (s.cacheEntry ch e).pow = s.pow ∧ (s.cacheEntry ch e).drawn = s.drawn ∧ (s.cacheEntry ch e).out = s.out := by
  refine ⟨?_, ?_, ?_, ?_, ?_, ?_, ?_, ?_, ?_, ?_, ?_, ?_, ?_, ?_, ?_, ?_, ?_, ?_, ?_, ?_, ?_⟩ <;>
    (unfold State.cacheEntry; simp)

@[simp] theorem State.setRecord_frame (s : State) (r : Rec) : (s.setRecord r).pending = s.pending ∧ (s.setRecord r).ph = s.ph
    ∧ (s.setRecord r).ctxs = s.ctxs ∧ (s.setRecord r).live = s.live ∧ (s.setRecord r).hp = s.hp ∧ (s.setRecord r).wm = s.wm ∧
    (s.setRecord r).slices = s.slices ∧ (s.setRecord r).chans = s.chans ∧ (s.setRecord r).cached = s.cached ∧ (s.setRecord
    r).table = s.table ∧ (s.setRecord r).vpA = s.vpA ∧ (s.setRecord r).vpB = s.vpB ∧ (s.setRecord r).ks = s.ks ∧ (s.setRecord
    r).lanes = s.lanes ∧ (s.setRecord r).mult = s.mult ∧ (s.setRecord r).evr = s.evr ∧ (s.setRecord r).cus = s.cus ∧
    (s.setRecord r).loops = s.loops ∧ (s.setRecord r).tam = s.tam ∧ (s.setRecord r).pow = s.pow ∧ (s.setRecord r).drawn =
    s.drawn ∧ (s.setRecord r).out = s.out := by
  refine ⟨?_, ?_, ?_, ?_, ?_, ?_, ?_, ?_, ?_, ?_, ?_, ?_, ?_, ?_, ?_, ?_, ?_, ?_, ?_, ?_, ?_, ?_⟩ <;> rfl

@[simp] theorem State.confirm_frame (s : State) (r : Rec) : (s.confirm r).pending = s.pending ∧ (s.confirm r).ph = s.ph ∧
    (s.confirm r).wm = s.wm ∧ (s.confirm r).slices = s.slices ∧ (s.confirm r).chans = s.chans ∧ (s.confirm r).cached =
    s.cached ∧ (s.confirm r).table = s.table ∧ (s.confirm r).ks = s.ks ∧ (s.confirm r).mult = s.mult ∧ (s.confirm r).cus =
    s.cus ∧ (s.confirm r).loops = s.loops ∧ (s.confirm r).tam = s.tam ∧ (s.confirm r).drawn = s.drawn := by
  refine ⟨?_, ?_, ?_, ?_, ?_, ?_, ?_, ?_, ?_, ?_, ?_, ?_, ?_⟩ <;> (unfold State.confirm; simp)

@[simp] theorem State.spendLeaf_frame (s : State) (k : Nat) (key : Key) : (s.spendLeaf k key).pending = s.pending ∧
    (s.spendLeaf k key).ph = s.ph ∧ (s.spendLeaf k key).ctxs = s.ctxs ∧ (s.spendLeaf k key).live = s.live ∧ (s.spendLeaf k
    key).hp = s.hp ∧ (s.spendLeaf k key).wm = s.wm ∧ (s.spendLeaf k key).slices = s.slices ∧ (s.spendLeaf k key).chans =
    s.chans ∧ (s.spendLeaf k key).cached = s.cached ∧ (s.spendLeaf k key).table = s.table ∧ (s.spendLeaf k key).recs = s.recs
    ∧ (s.spendLeaf k key).vpA = s.vpA ∧ (s.spendLeaf k key).vpB = s.vpB ∧ (s.spendLeaf k key).lanes = s.lanes ∧ (s.spendLeaf
    k key).mult = s.mult ∧ (s.spendLeaf k key).evr = s.evr ∧ (s.spendLeaf k key).cus = s.cus ∧ (s.spendLeaf k key).loops =
    s.loops ∧ (s.spendLeaf k key).tam = s.tam ∧ (s.spendLeaf k key).out = s.out := by
  refine ⟨?_, ?_, ?_, ?_, ?_, ?_, ?_, ?_, ?_, ?_, ?_, ?_, ?_, ?_, ?_, ?_, ?_, ?_, ?_, ?_⟩ <;>
    (unfold State.spendLeaf; simp)

@[simp] theorem State.noteRefusal_frame (s : State) (rq : Rq) : (s.noteRefusal rq).pending = s.pending ∧ (s.noteRefusal
    rq).ph = s.ph ∧ (s.noteRefusal rq).ctxs = s.ctxs ∧ (s.noteRefusal rq).live = s.live ∧ (s.noteRefusal rq).wm = s.wm ∧
    (s.noteRefusal rq).slices = s.slices ∧ (s.noteRefusal rq).chans = s.chans ∧ (s.noteRefusal rq).cached = s.cached ∧
    (s.noteRefusal rq).table = s.table ∧ (s.noteRefusal rq).recs = s.recs ∧ (s.noteRefusal rq).vpA = s.vpA ∧ (s.noteRefusal
    rq).vpB = s.vpB ∧ (s.noteRefusal rq).ks = s.ks ∧ (s.noteRefusal rq).lanes = s.lanes ∧ (s.noteRefusal rq).mult = s.mult ∧
    (s.noteRefusal rq).cus = s.cus ∧ (s.noteRefusal rq).loops = s.loops ∧ (s.noteRefusal rq).tam = s.tam ∧ (s.noteRefusal
    rq).pow = s.pow ∧ (s.noteRefusal rq).drawn = s.drawn := by
  refine ⟨?_, ?_, ?_, ?_, ?_, ?_, ?_, ?_, ?_, ?_, ?_, ?_, ?_, ?_, ?_, ?_, ?_, ?_, ?_, ?_⟩ <;>
    (unfold State.noteRefusal; (repeat' split) <;> simp)

@[simp] theorem State.spoilt_frame (s : State) (rq : Rq) : (s.spoilt rq).pending = s.pending ∧ (s.spoilt rq).ph = s.ph ∧
    (s.spoilt rq).ctxs = s.ctxs ∧ (s.spoilt rq).live = s.live ∧ (s.spoilt rq).hp = s.hp ∧ (s.spoilt rq).wm = s.wm ∧ (s.spoilt
    rq).slices = s.slices ∧ (s.spoilt rq).chans = s.chans ∧ (s.spoilt rq).cached = s.cached ∧ (s.spoilt rq).table = s.table ∧
    (s.spoilt rq).recs = s.recs ∧ (s.spoilt rq).vpA = s.vpA ∧ (s.spoilt rq).vpB = s.vpB ∧ (s.spoilt rq).lanes = s.lanes ∧
    (s.spoilt rq).mult = s.mult ∧ (s.spoilt rq).evr = s.evr ∧ (s.spoilt rq).cus = s.cus ∧ (s.spoilt rq).loops = s.loops ∧
    (s.spoilt rq).tam = s.tam ∧ (s.spoilt rq).out = s.out := by
  refine ⟨?_, ?_, ?_, ?_, ?_, ?_, ?_, ?_, ?_, ?_, ?_, ?_, ?_, ?_, ?_, ?_, ?_, ?_, ?_, ?_⟩ <;>
    (unfold State.spoilt; (repeat' split) <;> simp)

@[simp] theorem State.cleanMult_frame (s : State) : (s.cleanMult).pending = s.pending ∧ (s.cleanMult).ph = s.ph ∧
    (s.cleanMult).ctxs = s.ctxs ∧ (s.cleanMult).live = s.live ∧ (s.cleanMult).hp = s.hp ∧ (s.cleanMult).wm = s.wm ∧
    (s.cleanMult).slices = s.slices ∧ (s.cleanMult).chans = s.chans ∧ (s.cleanMult).cached = s.cached ∧ (s.cleanMult).table =
    s.table ∧ (s.cleanMult).recs = s.recs ∧ (s.cleanMult).vpA = s.vpA ∧ (s.cleanMult).vpB = s.vpB ∧ (s.cleanMult).ks = s.ks ∧
    (s.cleanMult).lanes = s.lanes ∧ (s.cleanMult).evr = s.evr ∧ (s.cleanMult).cus = s.cus ∧ (s.cleanMult).loops = s.loops ∧
    (s.cleanMult).tam = s.tam ∧ (s.cleanMult).pow = s.pow ∧ (s.cleanMult).drawn = s.drawn ∧ (s.cleanMult).out = s.out := by
  refine ⟨?_, ?_, ?_, ?_, ?_, ?_, ?_, ?_, ?_, ?_, ?_, ?_, ?_, ?_, ?_, ?_, ?_, ?_, ?_, ?_, ?_, ?_⟩ <;>
    (unfold State.cleanMult; simp)

@[simp] theorem State.stopDrbg_frame (s : State) (test : Nat) : (s.stopDrbg test).pending = s.pending ∧ (s.stopDrbg test).ph
    = s.ph ∧ (s.stopDrbg test).ctxs = s.ctxs ∧ (s.stopDrbg test).live = s.live ∧ (s.stopDrbg test).wm = s.wm ∧ (s.stopDrbg
    test).slices = s.slices ∧ (s.stopDrbg test).chans = s.chans ∧ (s.stopDrbg test).cached = s.cached ∧ (s.stopDrbg
    test).table = s.table ∧ (s.stopDrbg test).recs = s.recs ∧ (s.stopDrbg test).vpA = s.vpA ∧ (s.stopDrbg test).vpB = s.vpB ∧
    (s.stopDrbg test).ks = s.ks ∧ (s.stopDrbg test).lanes = s.lanes ∧ (s.stopDrbg test).mult = s.mult ∧ (s.stopDrbg test).cus
    = s.cus ∧ (s.stopDrbg test).loops = s.loops ∧ (s.stopDrbg test).tam = s.tam ∧ (s.stopDrbg test).drawn = s.drawn := by
  refine ⟨?_, ?_, ?_, ?_, ?_, ?_, ?_, ?_, ?_, ?_, ?_, ?_, ?_, ?_, ?_, ?_, ?_, ?_, ?_⟩ <;> (unfold State.stopDrbg; simp)

@[simp] theorem State.sendHart_frame (s : State) (i : Nat) (t : HartTx) (data : List Byte) : (s.sendHart i t data).pending =
    s.pending ∧ (s.sendHart i t data).ph = s.ph ∧ (s.sendHart i t data).ctxs = s.ctxs ∧ (s.sendHart i t data).live = s.live ∧
    (s.sendHart i t data).hp = s.hp ∧ (s.sendHart i t data).wm = s.wm ∧ (s.sendHart i t data).slices = s.slices ∧ (s.sendHart
    i t data).chans = s.chans ∧ (s.sendHart i t data).cached = s.cached ∧ (s.sendHart i t data).table = s.table ∧ (s.sendHart
    i t data).recs = s.recs ∧ (s.sendHart i t data).vpA = s.vpA ∧ (s.sendHart i t data).vpB = s.vpB ∧ (s.sendHart i t
    data).ks = s.ks ∧ (s.sendHart i t data).lanes = s.lanes ∧ (s.sendHart i t data).mult = s.mult ∧ (s.sendHart i t data).evr
    = s.evr ∧ (s.sendHart i t data).cus = s.cus ∧ (s.sendHart i t data).tam = s.tam ∧ (s.sendHart i t data).pow = s.pow ∧
    (s.sendHart i t data).drawn = s.drawn := by
  refine ⟨?_, ?_, ?_, ?_, ?_, ?_, ?_, ?_, ?_, ?_, ?_, ?_, ?_, ?_, ?_, ?_, ?_, ?_, ?_, ?_, ?_⟩ <;>
    (unfold State.sendHart; (try dsimp only); (repeat' split) <;> simp)

@[simp] theorem State.nextHart_frame (s : State) (i : Nat) : (s.nextHart i).pending = s.pending ∧ (s.nextHart i).ph = s.ph ∧
    (s.nextHart i).ctxs = s.ctxs ∧ (s.nextHart i).live = s.live ∧ (s.nextHart i).hp = s.hp ∧ (s.nextHart i).wm = s.wm ∧
    (s.nextHart i).slices = s.slices ∧ (s.nextHart i).chans = s.chans ∧ (s.nextHart i).cached = s.cached ∧ (s.nextHart
    i).table = s.table ∧ (s.nextHart i).recs = s.recs ∧ (s.nextHart i).vpA = s.vpA ∧ (s.nextHart i).vpB = s.vpB ∧ (s.nextHart
    i).ks = s.ks ∧ (s.nextHart i).lanes = s.lanes ∧ (s.nextHart i).mult = s.mult ∧ (s.nextHart i).evr = s.evr ∧ (s.nextHart
    i).cus = s.cus ∧ (s.nextHart i).tam = s.tam ∧ (s.nextHart i).pow = s.pow ∧ (s.nextHart i).drawn = s.drawn := by
  refine ⟨?_, ?_, ?_, ?_, ?_, ?_, ?_, ?_, ?_, ?_, ?_, ?_, ?_, ?_, ?_, ?_, ?_, ?_, ?_, ?_, ?_⟩ <;>
    (unfold State.nextHart; (try dsimp only); (repeat' split) <;> simp)

@[simp] theorem State.scanLoops_frame (s : State) : (s.scanLoops).pending = s.pending ∧ (s.scanLoops).ph = s.ph ∧
    (s.scanLoops).ctxs = s.ctxs ∧ (s.scanLoops).live = s.live ∧ (s.scanLoops).hp = s.hp ∧ (s.scanLoops).wm = s.wm ∧
    (s.scanLoops).slices = s.slices ∧ (s.scanLoops).chans = s.chans ∧ (s.scanLoops).cached = s.cached ∧ (s.scanLoops).table =
    s.table ∧ (s.scanLoops).recs = s.recs ∧ (s.scanLoops).vpA = s.vpA ∧ (s.scanLoops).vpB = s.vpB ∧ (s.scanLoops).ks = s.ks ∧
    (s.scanLoops).lanes = s.lanes ∧ (s.scanLoops).mult = s.mult ∧ (s.scanLoops).evr = s.evr ∧ (s.scanLoops).cus = s.cus ∧
    (s.scanLoops).tam = s.tam ∧ (s.scanLoops).pow = s.pow ∧ (s.scanLoops).drawn = s.drawn := by
  refine ⟨?_, ?_, ?_, ?_, ?_, ?_, ?_, ?_, ?_, ?_, ?_, ?_, ?_, ?_, ?_, ?_, ?_, ?_, ?_, ?_, ?_⟩ <;>
    (unfold State.scanLoops; simp)

@[simp] theorem State.dropHart_frame (s : State) : (s.dropHart).pending = s.pending ∧ (s.dropHart).ph = s.ph ∧
    (s.dropHart).hp = s.hp ∧ (s.dropHart).wm = s.wm ∧ (s.dropHart).slices = s.slices ∧ (s.dropHart).chans = s.chans ∧
    (s.dropHart).cached = s.cached ∧ (s.dropHart).table = s.table ∧ (s.dropHart).recs = s.recs ∧ (s.dropHart).ks = s.ks ∧
    (s.dropHart).lanes = s.lanes ∧ (s.dropHart).mult = s.mult ∧ (s.dropHart).evr = s.evr ∧ (s.dropHart).cus = s.cus ∧
    (s.dropHart).loops = s.loops ∧ (s.dropHart).tam = s.tam ∧ (s.dropHart).pow = s.pow ∧ (s.dropHart).drawn = s.drawn := by
  refine ⟨?_, ?_, ?_, ?_, ?_, ?_, ?_, ?_, ?_, ?_, ?_, ?_, ?_, ?_, ?_, ?_, ?_, ?_⟩ <;> (unfold State.dropHart; simp)

@[simp] theorem State.mapLoops_frame (s : State) (f : Nat → Loop → Loop) : (s.mapLoops f).pending = s.pending ∧ (s.mapLoops
    f).ph = s.ph ∧ (s.mapLoops f).ctxs = s.ctxs ∧ (s.mapLoops f).live = s.live ∧ (s.mapLoops f).hp = s.hp ∧ (s.mapLoops f).wm
    = s.wm ∧ (s.mapLoops f).slices = s.slices ∧ (s.mapLoops f).chans = s.chans ∧ (s.mapLoops f).cached = s.cached ∧
    (s.mapLoops f).table = s.table ∧ (s.mapLoops f).recs = s.recs ∧ (s.mapLoops f).vpA = s.vpA ∧ (s.mapLoops f).vpB = s.vpB ∧
    (s.mapLoops f).ks = s.ks ∧ (s.mapLoops f).lanes = s.lanes ∧ (s.mapLoops f).mult = s.mult ∧ (s.mapLoops f).evr = s.evr ∧
    (s.mapLoops f).cus = s.cus ∧ (s.mapLoops f).tam = s.tam ∧ (s.mapLoops f).pow = s.pow ∧ (s.mapLoops f).drawn = s.drawn ∧
    (s.mapLoops f).out = s.out := by
  refine ⟨?_, ?_, ?_, ?_, ?_, ?_, ?_, ?_, ?_, ?_, ?_, ?_, ?_, ?_, ?_, ?_, ?_, ?_, ?_, ?_, ?_, ?_⟩ <;>
    (unfold State.mapLoops; simp)

@[simp] theorem State.abandonWindows_frame (s : State) : (s.abandonWindows).pending = s.pending ∧ (s.abandonWindows).ph =
    s.ph ∧ (s.abandonWindows).ctxs = s.ctxs ∧ (s.abandonWindows).live = s.live ∧ (s.abandonWindows).hp = s.hp ∧
    (s.abandonWindows).wm = s.wm ∧ (s.abandonWindows).slices = s.slices ∧ (s.abandonWindows).chans = s.chans ∧
    (s.abandonWindows).cached = s.cached ∧ (s.abandonWindows).table = s.table ∧ (s.abandonWindows).recs = s.recs ∧
    (s.abandonWindows).vpA = s.vpA ∧ (s.abandonWindows).vpB = s.vpB ∧ (s.abandonWindows).ks = s.ks ∧ (s.abandonWindows).lanes
    = s.lanes ∧ (s.abandonWindows).mult = s.mult ∧ (s.abandonWindows).evr = s.evr ∧ (s.abandonWindows).cus = s.cus ∧
    (s.abandonWindows).tam = s.tam ∧ (s.abandonWindows).pow = s.pow ∧ (s.abandonWindows).drawn = s.drawn ∧
    (s.abandonWindows).out = s.out := by
  refine ⟨?_, ?_, ?_, ?_, ?_, ?_, ?_, ?_, ?_, ?_, ?_, ?_, ?_, ?_, ?_, ?_, ?_, ?_, ?_, ?_, ?_, ?_⟩ <;>
    (unfold State.abandonWindows; simp)

@[simp] theorem State.startWindows_frame (s : State) : (s.startWindows).pending = s.pending ∧ (s.startWindows).ph = s.ph ∧
    (s.startWindows).ctxs = s.ctxs ∧ (s.startWindows).live = s.live ∧ (s.startWindows).hp = s.hp ∧ (s.startWindows).wm = s.wm
    ∧ (s.startWindows).slices = s.slices ∧ (s.startWindows).chans = s.chans ∧ (s.startWindows).cached = s.cached ∧
    (s.startWindows).table = s.table ∧ (s.startWindows).recs = s.recs ∧ (s.startWindows).vpA = s.vpA ∧ (s.startWindows).vpB =
    s.vpB ∧ (s.startWindows).ks = s.ks ∧ (s.startWindows).lanes = s.lanes ∧ (s.startWindows).mult = s.mult ∧
    (s.startWindows).evr = s.evr ∧ (s.startWindows).cus = s.cus ∧ (s.startWindows).tam = s.tam ∧ (s.startWindows).pow = s.pow
    ∧ (s.startWindows).drawn = s.drawn ∧ (s.startWindows).out = s.out := by
  refine ⟨?_, ?_, ?_, ?_, ?_, ?_, ?_, ?_, ?_, ?_, ?_, ?_, ?_, ?_, ?_, ?_, ?_, ?_, ?_, ?_, ?_, ?_⟩ <;>
    (unfold State.startWindows; simp)

@[simp] theorem State.markMains_frame (s : State) : (s.markMains).pending = s.pending ∧ (s.markMains).ph = s.ph ∧
    (s.markMains).ctxs = s.ctxs ∧ (s.markMains).live = s.live ∧ (s.markMains).hp = s.hp ∧ (s.markMains).wm = s.wm ∧
    (s.markMains).slices = s.slices ∧ (s.markMains).chans = s.chans ∧ (s.markMains).cached = s.cached ∧ (s.markMains).table =
    s.table ∧ (s.markMains).recs = s.recs ∧ (s.markMains).vpA = s.vpA ∧ (s.markMains).vpB = s.vpB ∧ (s.markMains).ks = s.ks ∧
    (s.markMains).lanes = s.lanes ∧ (s.markMains).mult = s.mult ∧ (s.markMains).evr = s.evr ∧ (s.markMains).cus = s.cus ∧
    (s.markMains).tam = s.tam ∧ (s.markMains).pow = s.pow ∧ (s.markMains).drawn = s.drawn ∧ (s.markMains).out = s.out := by
  refine ⟨?_, ?_, ?_, ?_, ?_, ?_, ?_, ?_, ?_, ?_, ?_, ?_, ?_, ?_, ?_, ?_, ?_, ?_, ?_, ?_, ?_, ?_⟩ <;>
    (unfold State.markMains; (repeat' split) <;> simp)

@[simp] theorem State.loopEvent_frame (s : State) (i bitNo code : Nat) (detail : List Byte) : (s.loopEvent i bitNo code
    detail).pending = s.pending ∧ (s.loopEvent i bitNo code detail).ph = s.ph ∧ (s.loopEvent i bitNo code detail).ctxs =
    s.ctxs ∧ (s.loopEvent i bitNo code detail).live = s.live ∧ (s.loopEvent i bitNo code detail).wm = s.wm ∧ (s.loopEvent i
    bitNo code detail).slices = s.slices ∧ (s.loopEvent i bitNo code detail).chans = s.chans ∧ (s.loopEvent i bitNo code
    detail).cached = s.cached ∧ (s.loopEvent i bitNo code detail).table = s.table ∧ (s.loopEvent i bitNo code detail).recs =
    s.recs ∧ (s.loopEvent i bitNo code detail).vpA = s.vpA ∧ (s.loopEvent i bitNo code detail).vpB = s.vpB ∧ (s.loopEvent i
    bitNo code detail).ks = s.ks ∧ (s.loopEvent i bitNo code detail).lanes = s.lanes ∧ (s.loopEvent i bitNo code detail).mult
    = s.mult ∧ (s.loopEvent i bitNo code detail).cus = s.cus ∧ (s.loopEvent i bitNo code detail).tam = s.tam ∧ (s.loopEvent i
    bitNo code detail).pow = s.pow ∧ (s.loopEvent i bitNo code detail).drawn = s.drawn := by
  refine ⟨?_, ?_, ?_, ?_, ?_, ?_, ?_, ?_, ?_, ?_, ?_, ?_, ?_, ?_, ?_, ?_, ?_, ?_, ?_⟩ <;> (unfold State.loopEvent; simp)

@[simp] theorem State.closeWindow_frame (s : State) (i st : Nat) (mean : Int) (saturated : Bool) : (s.closeWindow i st mean
    saturated).pending = s.pending ∧ (s.closeWindow i st mean saturated).ph = s.ph ∧ (s.closeWindow i st mean saturated).ctxs
    = s.ctxs ∧ (s.closeWindow i st mean saturated).live = s.live ∧ (s.closeWindow i st mean saturated).hp = s.hp ∧
    (s.closeWindow i st mean saturated).wm = s.wm ∧ (s.closeWindow i st mean saturated).slices = s.slices ∧ (s.closeWindow i
    st mean saturated).chans = s.chans ∧ (s.closeWindow i st mean saturated).cached = s.cached ∧ (s.closeWindow i st mean
    saturated).table = s.table ∧ (s.closeWindow i st mean saturated).recs = s.recs ∧ (s.closeWindow i st mean saturated).vpA
    = s.vpA ∧ (s.closeWindow i st mean saturated).vpB = s.vpB ∧ (s.closeWindow i st mean saturated).ks = s.ks ∧
    (s.closeWindow i st mean saturated).lanes = s.lanes ∧ (s.closeWindow i st mean saturated).mult = s.mult ∧ (s.closeWindow
    i st mean saturated).evr = s.evr ∧ (s.closeWindow i st mean saturated).cus = s.cus ∧ (s.closeWindow i st mean
    saturated).tam = s.tam ∧ (s.closeWindow i st mean saturated).pow = s.pow ∧ (s.closeWindow i st mean saturated).drawn =
    s.drawn ∧ (s.closeWindow i st mean saturated).out = s.out := by
  refine ⟨?_, ?_, ?_, ?_, ?_, ?_, ?_, ?_, ?_, ?_, ?_, ?_, ?_, ?_, ?_, ?_, ?_, ?_, ?_, ?_, ?_, ?_⟩ <;>
    (unfold State.closeWindow; simp)

@[simp] theorem State.windowEvents_frame (s : State) (i : Nat) (l m : Loop) (mean : Int) : (s.windowEvents i l m
    mean).pending = s.pending ∧ (s.windowEvents i l m mean).ph = s.ph ∧ (s.windowEvents i l m mean).ctxs = s.ctxs ∧
    (s.windowEvents i l m mean).live = s.live ∧ (s.windowEvents i l m mean).wm = s.wm ∧ (s.windowEvents i l m mean).slices =
    s.slices ∧ (s.windowEvents i l m mean).chans = s.chans ∧ (s.windowEvents i l m mean).cached = s.cached ∧ (s.windowEvents
    i l m mean).table = s.table ∧ (s.windowEvents i l m mean).recs = s.recs ∧ (s.windowEvents i l m mean).vpA = s.vpA ∧
    (s.windowEvents i l m mean).vpB = s.vpB ∧ (s.windowEvents i l m mean).ks = s.ks ∧ (s.windowEvents i l m mean).lanes =
    s.lanes ∧ (s.windowEvents i l m mean).mult = s.mult ∧ (s.windowEvents i l m mean).cus = s.cus ∧ (s.windowEvents i l m
    mean).tam = s.tam ∧ (s.windowEvents i l m mean).pow = s.pow ∧ (s.windowEvents i l m mean).drawn = s.drawn := by
  refine ⟨?_, ?_, ?_, ?_, ?_, ?_, ?_, ?_, ?_, ?_, ?_, ?_, ?_, ?_, ?_, ?_, ?_, ?_, ?_⟩ <;>
    (unfold State.windowEvents; simp)

@[simp] theorem State.heard_frame (s : State) (i addr command : Nat) (status : Byte) (data : List Byte) : (s.heard i addr
    command status data).pending = s.pending ∧ (s.heard i addr command status data).ph = s.ph ∧ (s.heard i addr command
    status data).ctxs = s.ctxs ∧ (s.heard i addr command status data).live = s.live ∧ (s.heard i addr command status data).hp
    = s.hp ∧ (s.heard i addr command status data).wm = s.wm ∧ (s.heard i addr command status data).slices = s.slices ∧
    (s.heard i addr command status data).chans = s.chans ∧ (s.heard i addr command status data).cached = s.cached ∧ (s.heard
    i addr command status data).table = s.table ∧ (s.heard i addr command status data).recs = s.recs ∧ (s.heard i addr
    command status data).vpA = s.vpA ∧ (s.heard i addr command status data).vpB = s.vpB ∧ (s.heard i addr command status
    data).ks = s.ks ∧ (s.heard i addr command status data).lanes = s.lanes ∧ (s.heard i addr command status data).mult =
    s.mult ∧ (s.heard i addr command status data).evr = s.evr ∧ (s.heard i addr command status data).cus = s.cus ∧ (s.heard i
    addr command status data).tam = s.tam ∧ (s.heard i addr command status data).pow = s.pow ∧ (s.heard i addr command status
    data).drawn = s.drawn ∧ (s.heard i addr command status data).out = s.out := by
  refine ⟨?_, ?_, ?_, ?_, ?_, ?_, ?_, ?_, ?_, ?_, ?_, ?_, ?_, ?_, ?_, ?_, ?_, ?_, ?_, ?_, ?_, ?_⟩ <;>
    (unfold State.heard; (try dsimp only); (repeat' split) <;> simp)

@[simp] theorem State.scan_frame (s : State) (i addr command : Nat) (e : HartEnd) : (s.scan i addr command e).pending =
    s.pending ∧ (s.scan i addr command e).ph = s.ph ∧ (s.scan i addr command e).live = s.live ∧ (s.scan i addr command e).wm
    = s.wm ∧ (s.scan i addr command e).slices = s.slices ∧ (s.scan i addr command e).chans = s.chans ∧ (s.scan i addr command
    e).cached = s.cached ∧ (s.scan i addr command e).table = s.table ∧ (s.scan i addr command e).recs = s.recs ∧ (s.scan i
    addr command e).ks = s.ks ∧ (s.scan i addr command e).lanes = s.lanes ∧ (s.scan i addr command e).mult = s.mult ∧ (s.scan
    i addr command e).cus = s.cus ∧ (s.scan i addr command e).tam = s.tam ∧ (s.scan i addr command e).pow = s.pow ∧ (s.scan i
    addr command e).drawn = s.drawn := by
  refine ⟨?_, ?_, ?_, ?_, ?_, ?_, ?_, ?_, ?_, ?_, ?_, ?_, ?_, ?_, ?_, ?_⟩ <;>
    (unfold State.scan; (try dsimp only); (repeat' split) <;> simp)

@[simp] theorem State.endHart_frame (s : State) (i : Nat) (t : HartTx) (e : HartEnd) : (s.endHart i t e).pending = s.pending
    ∧ (s.endHart i t e).ph = s.ph ∧ (s.endHart i t e).wm = s.wm ∧ (s.endHart i t e).slices = s.slices ∧ (s.endHart i t
    e).chans = s.chans ∧ (s.endHart i t e).cached = s.cached ∧ (s.endHart i t e).table = s.table ∧ (s.endHart i t e).recs =
    s.recs ∧ (s.endHart i t e).ks = s.ks ∧ (s.endHart i t e).lanes = s.lanes ∧ (s.endHart i t e).mult = s.mult ∧ (s.endHart i
    t e).cus = s.cus ∧ (s.endHart i t e).tam = s.tam ∧ (s.endHart i t e).pow = s.pow ∧ (s.endHart i t e).drawn = s.drawn :=
    by
  refine ⟨?_, ?_, ?_, ?_, ?_, ?_, ?_, ?_, ?_, ?_, ?_, ?_, ?_, ?_, ?_⟩ <;>
    (unfold State.endHart; (try dsimp only); (repeat' split) <;> simp)

@[simp] theorem State.failHart_frame (s : State) : (s.failHart).pending = s.pending ∧ (s.failHart).ph = s.ph ∧
    (s.failHart).hp = s.hp ∧ (s.failHart).wm = s.wm ∧ (s.failHart).slices = s.slices ∧ (s.failHart).chans = s.chans ∧
    (s.failHart).cached = s.cached ∧ (s.failHart).table = s.table ∧ (s.failHart).recs = s.recs ∧ (s.failHart).ks = s.ks ∧
    (s.failHart).lanes = s.lanes ∧ (s.failHart).mult = s.mult ∧ (s.failHart).evr = s.evr ∧ (s.failHart).cus = s.cus ∧
    (s.failHart).tam = s.tam ∧ (s.failHart).pow = s.pow ∧ (s.failHart).drawn = s.drawn := by
  refine ⟨?_, ?_, ?_, ?_, ?_, ?_, ?_, ?_, ?_, ?_, ?_, ?_, ?_, ?_, ?_, ?_, ?_⟩ <;> (unfold State.failHart; simp)

@[simp] theorem State.frontEndFault_frame (s : State) : (s.frontEndFault).pending = s.pending ∧ (s.frontEndFault).ph = s.ph ∧
    (s.frontEndFault).wm = s.wm ∧ (s.frontEndFault).slices = s.slices ∧ (s.frontEndFault).chans = s.chans ∧
    (s.frontEndFault).cached = s.cached ∧ (s.frontEndFault).table = s.table ∧ (s.frontEndFault).recs = s.recs ∧
    (s.frontEndFault).ks = s.ks ∧ (s.frontEndFault).lanes = s.lanes ∧ (s.frontEndFault).mult = s.mult ∧ (s.frontEndFault).cus
    = s.cus ∧ (s.frontEndFault).tam = s.tam ∧ (s.frontEndFault).drawn = s.drawn := by
  refine ⟨?_, ?_, ?_, ?_, ?_, ?_, ?_, ?_, ?_, ?_, ?_, ?_, ?_, ?_⟩ <;> (unfold State.frontEndFault; simp)

@[simp] theorem State.unassign_frame (s : State) (n : Nat) : (s.unassign n).pending = s.pending ∧ (s.unassign n).ph = s.ph ∧
    (s.unassign n).ctxs = s.ctxs ∧ (s.unassign n).live = s.live ∧ (s.unassign n).hp = s.hp ∧ (s.unassign n).wm = s.wm ∧
    (s.unassign n).slices = s.slices ∧ (s.unassign n).chans = s.chans ∧ (s.unassign n).cached = s.cached ∧ (s.unassign
    n).table = s.table ∧ (s.unassign n).recs = s.recs ∧ (s.unassign n).vpA = s.vpA ∧ (s.unassign n).vpB = s.vpB ∧ (s.unassign
    n).ks = s.ks ∧ (s.unassign n).lanes = s.lanes ∧ (s.unassign n).mult = s.mult ∧ (s.unassign n).evr = s.evr ∧ (s.unassign
    n).cus = s.cus ∧ (s.unassign n).tam = s.tam ∧ (s.unassign n).pow = s.pow ∧ (s.unassign n).drawn = s.drawn ∧ (s.unassign
    n).out = s.out := by
  refine ⟨?_, ?_, ?_, ?_, ?_, ?_, ?_, ?_, ?_, ?_, ?_, ?_, ?_, ?_, ?_, ?_, ?_, ?_, ?_, ?_, ?_, ?_⟩ <;>
    (unfold State.unassign; simp)

@[simp] theorem State.zeroGiven_frame (s : State) (old new : Option Part) : (s.zeroGiven old new).pending = s.pending ∧
    (s.zeroGiven old new).ph = s.ph ∧ (s.zeroGiven old new).ctxs = s.ctxs ∧ (s.zeroGiven old new).live = s.live ∧
    (s.zeroGiven old new).hp = s.hp ∧ (s.zeroGiven old new).slices = s.slices ∧ (s.zeroGiven old new).chans = s.chans ∧
    (s.zeroGiven old new).cached = s.cached ∧ (s.zeroGiven old new).table = s.table ∧ (s.zeroGiven old new).recs = s.recs ∧
    (s.zeroGiven old new).vpA = s.vpA ∧ (s.zeroGiven old new).vpB = s.vpB ∧ (s.zeroGiven old new).ks = s.ks ∧ (s.zeroGiven
    old new).lanes = s.lanes ∧ (s.zeroGiven old new).mult = s.mult ∧ (s.zeroGiven old new).evr = s.evr ∧ (s.zeroGiven old
    new).cus = s.cus ∧ (s.zeroGiven old new).loops = s.loops ∧ (s.zeroGiven old new).tam = s.tam ∧ (s.zeroGiven old new).pow
    = s.pow ∧ (s.zeroGiven old new).drawn = s.drawn ∧ (s.zeroGiven old new).out = s.out := by
  refine ⟨?_, ?_, ?_, ?_, ?_, ?_, ?_, ?_, ?_, ?_, ?_, ?_, ?_, ?_, ?_, ?_, ?_, ?_, ?_, ?_, ?_, ?_⟩ <;>
    (unfold State.zeroGiven; (try dsimp only); (repeat' split) <;> simp)

@[simp] theorem State.setRun_frame (s : State) (n : Nat) (old new : Run) : (s.setRun n old new).pending = s.pending ∧
    (s.setRun n old new).ph = s.ph ∧ (s.setRun n old new).ctxs = s.ctxs ∧ (s.setRun n old new).live = s.live ∧ (s.setRun n
    old new).hp = s.hp ∧ (s.setRun n old new).chans = s.chans ∧ (s.setRun n old new).cached = s.cached ∧ (s.setRun n old
    new).table = s.table ∧ (s.setRun n old new).recs = s.recs ∧ (s.setRun n old new).vpA = s.vpA ∧ (s.setRun n old new).vpB =
    s.vpB ∧ (s.setRun n old new).ks = s.ks ∧ (s.setRun n old new).lanes = s.lanes ∧ (s.setRun n old new).mult = s.mult ∧
    (s.setRun n old new).evr = s.evr ∧ (s.setRun n old new).cus = s.cus ∧ (s.setRun n old new).loops = s.loops ∧ (s.setRun n
    old new).tam = s.tam ∧ (s.setRun n old new).pow = s.pow ∧ (s.setRun n old new).drawn = s.drawn ∧ (s.setRun n old new).out
    = s.out := by
  refine ⟨?_, ?_, ?_, ?_, ?_, ?_, ?_, ?_, ?_, ?_, ?_, ?_, ?_, ?_, ?_, ?_, ?_, ?_, ?_, ?_, ?_⟩ <;>
    (unfold State.setRun; simp)

@[simp] theorem State.sliceEvent_frame (s : State) (n action origin : Nat) : (s.sliceEvent n action origin).pending =
    s.pending ∧ (s.sliceEvent n action origin).ph = s.ph ∧ (s.sliceEvent n action origin).ctxs = s.ctxs ∧ (s.sliceEvent n
    action origin).live = s.live ∧ (s.sliceEvent n action origin).wm = s.wm ∧ (s.sliceEvent n action origin).slices =
    s.slices ∧ (s.sliceEvent n action origin).chans = s.chans ∧ (s.sliceEvent n action origin).cached = s.cached ∧
    (s.sliceEvent n action origin).table = s.table ∧ (s.sliceEvent n action origin).recs = s.recs ∧ (s.sliceEvent n action
    origin).vpA = s.vpA ∧ (s.sliceEvent n action origin).vpB = s.vpB ∧ (s.sliceEvent n action origin).ks = s.ks ∧
    (s.sliceEvent n action origin).lanes = s.lanes ∧ (s.sliceEvent n action origin).mult = s.mult ∧ (s.sliceEvent n action
    origin).cus = s.cus ∧ (s.sliceEvent n action origin).loops = s.loops ∧ (s.sliceEvent n action origin).tam = s.tam ∧
    (s.sliceEvent n action origin).pow = s.pow ∧ (s.sliceEvent n action origin).drawn = s.drawn := by
  refine ⟨?_, ?_, ?_, ?_, ?_, ?_, ?_, ?_, ?_, ?_, ?_, ?_, ?_, ?_, ?_, ?_, ?_, ?_, ?_, ?_⟩ <;>
    (unfold State.sliceEvent; simp)

@[simp] theorem State.endQuiesce_frame (s : State) (n : Nat) : (s.endQuiesce n).pending = s.pending ∧ (s.endQuiesce n).ph =
    s.ph ∧ (s.endQuiesce n).hp = s.hp ∧ (s.endQuiesce n).wm = s.wm ∧ (s.endQuiesce n).slices = s.slices ∧ (s.endQuiesce
    n).chans = s.chans ∧ (s.endQuiesce n).cached = s.cached ∧ (s.endQuiesce n).table = s.table ∧ (s.endQuiesce n).recs =
    s.recs ∧ (s.endQuiesce n).ks = s.ks ∧ (s.endQuiesce n).lanes = s.lanes ∧ (s.endQuiesce n).mult = s.mult ∧ (s.endQuiesce
    n).evr = s.evr ∧ (s.endQuiesce n).cus = s.cus ∧ (s.endQuiesce n).loops = s.loops ∧ (s.endQuiesce n).tam = s.tam ∧
    (s.endQuiesce n).pow = s.pow ∧ (s.endQuiesce n).drawn = s.drawn := by
  refine ⟨?_, ?_, ?_, ?_, ?_, ?_, ?_, ?_, ?_, ?_, ?_, ?_, ?_, ?_, ?_, ?_, ?_, ?_⟩ <;> (unfold State.endQuiesce; simp)

@[simp] theorem State.resetSlice_frame (s : State) (n origin : Nat) : (s.resetSlice n origin).pending = s.pending ∧
    (s.resetSlice n origin).live = s.live ∧ (s.resetSlice n origin).slices = s.slices ∧ (s.resetSlice n origin).chans =
    s.chans ∧ (s.resetSlice n origin).cached = s.cached ∧ (s.resetSlice n origin).table = s.table ∧ (s.resetSlice n
    origin).recs = s.recs ∧ (s.resetSlice n origin).vpA = s.vpA ∧ (s.resetSlice n origin).vpB = s.vpB ∧ (s.resetSlice n
    origin).ks = s.ks ∧ (s.resetSlice n origin).lanes = s.lanes ∧ (s.resetSlice n origin).mult = s.mult ∧ (s.resetSlice n
    origin).cus = s.cus ∧ (s.resetSlice n origin).loops = s.loops ∧ (s.resetSlice n origin).tam = s.tam ∧ (s.resetSlice n
    origin).pow = s.pow ∧ (s.resetSlice n origin).drawn = s.drawn := by
  refine ⟨?_, ?_, ?_, ?_, ?_, ?_, ?_, ?_, ?_, ?_, ?_, ?_, ?_, ?_, ?_, ?_, ?_⟩ <;>
    (unfold State.resetSlice; (try dsimp only); (repeat' split) <;> simp)

@[simp] theorem State.dropKeys_frame (s : State) (owner origin : Nat) : (s.dropKeys owner origin).pending = s.pending ∧
    (s.dropKeys owner origin).ph = s.ph ∧ (s.dropKeys owner origin).live = s.live ∧ (s.dropKeys owner origin).wm = s.wm ∧
    (s.dropKeys owner origin).chans = s.chans ∧ (s.dropKeys owner origin).cached = s.cached ∧ (s.dropKeys owner origin).table
    = s.table ∧ (s.dropKeys owner origin).recs = s.recs ∧ (s.dropKeys owner origin).vpA = s.vpA ∧ (s.dropKeys owner
    origin).vpB = s.vpB ∧ (s.dropKeys owner origin).lanes = s.lanes ∧ (s.dropKeys owner origin).mult = s.mult ∧ (s.dropKeys
    owner origin).cus = s.cus ∧ (s.dropKeys owner origin).loops = s.loops ∧ (s.dropKeys owner origin).tam = s.tam ∧
    (s.dropKeys owner origin).pow = s.pow ∧ (s.dropKeys owner origin).drawn = s.drawn := by
  refine ⟨?_, ?_, ?_, ?_, ?_, ?_, ?_, ?_, ?_, ?_, ?_, ?_, ?_, ?_, ?_, ?_, ?_⟩ <;> (unfold State.dropKeys; simp)

@[simp] theorem State.removeSlice_frame (s : State) (n origin : Nat) : (s.removeSlice n origin).pending = s.pending ∧
    (s.removeSlice n origin).ph = s.ph ∧ (s.removeSlice n origin).live = s.live ∧ (s.removeSlice n origin).chans = s.chans ∧
    (s.removeSlice n origin).cached = s.cached ∧ (s.removeSlice n origin).table = s.table ∧ (s.removeSlice n origin).recs =
    s.recs ∧ (s.removeSlice n origin).vpA = s.vpA ∧ (s.removeSlice n origin).vpB = s.vpB ∧ (s.removeSlice n origin).lanes =
    s.lanes ∧ (s.removeSlice n origin).mult = s.mult ∧ (s.removeSlice n origin).cus = s.cus ∧ (s.removeSlice n origin).tam =
    s.tam ∧ (s.removeSlice n origin).pow = s.pow ∧ (s.removeSlice n origin).drawn = s.drawn := by
  refine ⟨?_, ?_, ?_, ?_, ?_, ?_, ?_, ?_, ?_, ?_, ?_, ?_, ?_, ?_, ?_⟩ <;>
    (unfold State.removeSlice; (try dsimp only); (repeat' split) <;> simp)

@[simp] theorem State.invalidate_frame (s : State) (addr first count : Nat) : (s.invalidate addr first count).pending =
    s.pending ∧ (s.invalidate addr first count).ph = s.ph ∧ (s.invalidate addr first count).ctxs = s.ctxs ∧ (s.invalidate
    addr first count).live = s.live ∧ (s.invalidate addr first count).hp = s.hp ∧ (s.invalidate addr first count).wm = s.wm ∧
    (s.invalidate addr first count).slices = s.slices ∧ (s.invalidate addr first count).recs = s.recs ∧ (s.invalidate addr
    first count).vpA = s.vpA ∧ (s.invalidate addr first count).vpB = s.vpB ∧ (s.invalidate addr first count).ks = s.ks ∧
    (s.invalidate addr first count).lanes = s.lanes ∧ (s.invalidate addr first count).mult = s.mult ∧ (s.invalidate addr
    first count).evr = s.evr ∧ (s.invalidate addr first count).cus = s.cus ∧ (s.invalidate addr first count).loops = s.loops
    ∧ (s.invalidate addr first count).tam = s.tam ∧ (s.invalidate addr first count).pow = s.pow ∧ (s.invalidate addr first
    count).drawn = s.drawn ∧ (s.invalidate addr first count).out = s.out := by
  refine ⟨?_, ?_, ?_, ?_, ?_, ?_, ?_, ?_, ?_, ?_, ?_, ?_, ?_, ?_, ?_, ?_, ?_, ?_, ?_, ?_⟩ <;>
    (unfold State.invalidate; simp)

@[simp] theorem State.endInvalidate_frame (s : State) : (s.endInvalidate).pending = s.pending ∧ (s.endInvalidate).ph = s.ph ∧
    (s.endInvalidate).wm = s.wm ∧ (s.endInvalidate).slices = s.slices ∧ (s.endInvalidate).recs = s.recs ∧
    (s.endInvalidate).ks = s.ks ∧ (s.endInvalidate).lanes = s.lanes ∧ (s.endInvalidate).mult = s.mult ∧ (s.endInvalidate).cus
    = s.cus ∧ (s.endInvalidate).loops = s.loops ∧ (s.endInvalidate).tam = s.tam ∧ (s.endInvalidate).pow = s.pow ∧
    (s.endInvalidate).drawn = s.drawn := by
  refine ⟨?_, ?_, ?_, ?_, ?_, ?_, ?_, ?_, ?_, ?_, ?_, ?_, ?_⟩ <;> (unfold State.endInvalidate; simp)

@[simp] theorem State.ceremonyDone_frame (s : State) (origin : Nat) : (s.ceremonyDone origin).pending = s.pending ∧
    (s.ceremonyDone origin).ph = s.ph ∧ (s.ceremonyDone origin).ctxs = s.ctxs ∧ (s.ceremonyDone origin).live = s.live ∧
    (s.ceremonyDone origin).wm = s.wm ∧ (s.ceremonyDone origin).slices = s.slices ∧ (s.ceremonyDone origin).chans = s.chans ∧
    (s.ceremonyDone origin).cached = s.cached ∧ (s.ceremonyDone origin).table = s.table ∧ (s.ceremonyDone origin).recs =
    s.recs ∧ (s.ceremonyDone origin).vpA = s.vpA ∧ (s.ceremonyDone origin).vpB = s.vpB ∧ (s.ceremonyDone origin).ks = s.ks ∧
    (s.ceremonyDone origin).lanes = s.lanes ∧ (s.ceremonyDone origin).mult = s.mult ∧ (s.ceremonyDone origin).loops = s.loops
    ∧ (s.ceremonyDone origin).tam = s.tam ∧ (s.ceremonyDone origin).pow = s.pow ∧ (s.ceremonyDone origin).drawn = s.drawn :=
    by
  refine ⟨?_, ?_, ?_, ?_, ?_, ?_, ?_, ?_, ?_, ?_, ?_, ?_, ?_, ?_, ?_, ?_, ?_, ?_, ?_⟩ <;>
    (unfold State.ceremonyDone; (repeat' split) <;> simp)

@[simp] theorem State.dropPair_frame (s : State) (origin : Nat) : (s.dropPair origin).pending = s.pending ∧ (s.dropPair
    origin).ph = s.ph ∧ (s.dropPair origin).ctxs = s.ctxs ∧ (s.dropPair origin).live = s.live ∧ (s.dropPair origin).wm = s.wm
    ∧ (s.dropPair origin).slices = s.slices ∧ (s.dropPair origin).chans = s.chans ∧ (s.dropPair origin).cached = s.cached ∧
    (s.dropPair origin).table = s.table ∧ (s.dropPair origin).recs = s.recs ∧ (s.dropPair origin).vpA = s.vpA ∧ (s.dropPair
    origin).vpB = s.vpB ∧ (s.dropPair origin).lanes = s.lanes ∧ (s.dropPair origin).mult = s.mult ∧ (s.dropPair origin).cus =
    s.cus ∧ (s.dropPair origin).loops = s.loops ∧ (s.dropPair origin).tam = s.tam ∧ (s.dropPair origin).pow = s.pow ∧
    (s.dropPair origin).drawn = s.drawn := by
  refine ⟨?_, ?_, ?_, ?_, ?_, ?_, ?_, ?_, ?_, ?_, ?_, ?_, ?_, ?_, ?_, ?_, ?_, ?_, ?_⟩ <;>
    (unfold State.dropPair; (repeat' split) <;> simp)

@[simp] theorem State.paired_frame (s : State) (key : List Byte) (k : PeerKeys) (origin : Nat) : (s.paired key k
    origin).pending = s.pending ∧ (s.paired key k origin).ph = s.ph ∧ (s.paired key k origin).ctxs = s.ctxs ∧ (s.paired key k
    origin).live = s.live ∧ (s.paired key k origin).wm = s.wm ∧ (s.paired key k origin).slices = s.slices ∧ (s.paired key k
    origin).chans = s.chans ∧ (s.paired key k origin).cached = s.cached ∧ (s.paired key k origin).table = s.table ∧ (s.paired
    key k origin).recs = s.recs ∧ (s.paired key k origin).vpA = s.vpA ∧ (s.paired key k origin).vpB = s.vpB ∧ (s.paired key k
    origin).lanes = s.lanes ∧ (s.paired key k origin).mult = s.mult ∧ (s.paired key k origin).loops = s.loops ∧ (s.paired key
    k origin).tam = s.tam ∧ (s.paired key k origin).pow = s.pow ∧ (s.paired key k origin).drawn = s.drawn := by
  refine ⟨?_, ?_, ?_, ?_, ?_, ?_, ?_, ?_, ?_, ?_, ?_, ?_, ?_, ?_, ?_, ?_, ?_, ?_⟩ <;> (unfold State.paired; simp)

@[simp] theorem State.mapKeys_frame (s : State) (n : Nat) (f : Key → Key) : (s.mapKeys n f).pending = s.pending ∧ (s.mapKeys
    n f).ph = s.ph ∧ (s.mapKeys n f).ctxs = s.ctxs ∧ (s.mapKeys n f).live = s.live ∧ (s.mapKeys n f).hp = s.hp ∧ (s.mapKeys n
    f).wm = s.wm ∧ (s.mapKeys n f).slices = s.slices ∧ (s.mapKeys n f).chans = s.chans ∧ (s.mapKeys n f).cached = s.cached ∧
    (s.mapKeys n f).table = s.table ∧ (s.mapKeys n f).recs = s.recs ∧ (s.mapKeys n f).vpA = s.vpA ∧ (s.mapKeys n f).vpB =
    s.vpB ∧ (s.mapKeys n f).lanes = s.lanes ∧ (s.mapKeys n f).mult = s.mult ∧ (s.mapKeys n f).evr = s.evr ∧ (s.mapKeys n
    f).cus = s.cus ∧ (s.mapKeys n f).loops = s.loops ∧ (s.mapKeys n f).tam = s.tam ∧ (s.mapKeys n f).pow = s.pow ∧ (s.mapKeys
    n f).drawn = s.drawn ∧ (s.mapKeys n f).out = s.out := by
  refine ⟨?_, ?_, ?_, ?_, ?_, ?_, ?_, ?_, ?_, ?_, ?_, ?_, ?_, ?_, ?_, ?_, ?_, ?_, ?_, ?_, ?_, ?_⟩ <;>
    (unfold State.mapKeys; simp)

@[simp] theorem State.freeze_frame (s : State) (n number : Nat) (pkg : List Byte) (keys : Nat) : (s.freeze n number pkg
    keys).pending = s.pending ∧ (s.freeze n number pkg keys).ph = s.ph ∧ (s.freeze n number pkg keys).live = s.live ∧
    (s.freeze n number pkg keys).hp = s.hp ∧ (s.freeze n number pkg keys).wm = s.wm ∧ (s.freeze n number pkg keys).chans =
    s.chans ∧ (s.freeze n number pkg keys).cached = s.cached ∧ (s.freeze n number pkg keys).table = s.table ∧ (s.freeze n
    number pkg keys).recs = s.recs ∧ (s.freeze n number pkg keys).vpA = s.vpA ∧ (s.freeze n number pkg keys).vpB = s.vpB ∧
    (s.freeze n number pkg keys).lanes = s.lanes ∧ (s.freeze n number pkg keys).mult = s.mult ∧ (s.freeze n number pkg
    keys).evr = s.evr ∧ (s.freeze n number pkg keys).cus = s.cus ∧ (s.freeze n number pkg keys).tam = s.tam ∧ (s.freeze n
    number pkg keys).pow = s.pow ∧ (s.freeze n number pkg keys).drawn = s.drawn := by
  refine ⟨?_, ?_, ?_, ?_, ?_, ?_, ?_, ?_, ?_, ?_, ?_, ?_, ?_, ?_, ?_, ?_, ?_, ?_⟩ <;> (unfold State.freeze; simp)

@[simp] theorem State.undoTransfer_frame (s : State) (reason origin : Nat) : (s.undoTransfer reason origin).pending =
    s.pending ∧ (s.undoTransfer reason origin).ph = s.ph ∧ (s.undoTransfer reason origin).ctxs = s.ctxs ∧ (s.undoTransfer
    reason origin).live = s.live ∧ (s.undoTransfer reason origin).wm = s.wm ∧ (s.undoTransfer reason origin).chans = s.chans
    ∧ (s.undoTransfer reason origin).cached = s.cached ∧ (s.undoTransfer reason origin).table = s.table ∧ (s.undoTransfer
    reason origin).recs = s.recs ∧ (s.undoTransfer reason origin).vpA = s.vpA ∧ (s.undoTransfer reason origin).vpB = s.vpB ∧
    (s.undoTransfer reason origin).lanes = s.lanes ∧ (s.undoTransfer reason origin).mult = s.mult ∧ (s.undoTransfer reason
    origin).cus = s.cus ∧ (s.undoTransfer reason origin).loops = s.loops ∧ (s.undoTransfer reason origin).tam = s.tam ∧
    (s.undoTransfer reason origin).pow = s.pow ∧ (s.undoTransfer reason origin).drawn = s.drawn := by
  refine ⟨?_, ?_, ?_, ?_, ?_, ?_, ?_, ?_, ?_, ?_, ?_, ?_, ?_, ?_, ?_, ?_, ?_, ?_⟩ <;>
    (unfold State.undoTransfer; (try dsimp only); (repeat' split) <;> simp)

@[simp] theorem State.settle_frame (s : State) (origin : Nat) : (s.settle origin).pending = s.pending ∧ (s.settle origin).ph
    = s.ph ∧ (s.settle origin).live = s.live ∧ (s.settle origin).chans = s.chans ∧ (s.settle origin).cached = s.cached ∧
    (s.settle origin).table = s.table ∧ (s.settle origin).recs = s.recs ∧ (s.settle origin).vpA = s.vpA ∧ (s.settle
    origin).vpB = s.vpB ∧ (s.settle origin).lanes = s.lanes ∧ (s.settle origin).mult = s.mult ∧ (s.settle origin).cus = s.cus
    ∧ (s.settle origin).tam = s.tam ∧ (s.settle origin).pow = s.pow ∧ (s.settle origin).drawn = s.drawn := by
  refine ⟨?_, ?_, ?_, ?_, ?_, ?_, ?_, ?_, ?_, ?_, ?_, ?_, ?_, ?_, ?_⟩ <;>
    (unfold State.settle; (try dsimp only); (repeat' split) <;> simp)

@[simp] theorem State.raiseChannels_frame (s : State) (cs : List (List Byte)) : (s.raiseChannels cs).pending = s.pending ∧
    (s.raiseChannels cs).ph = s.ph ∧ (s.raiseChannels cs).ctxs = s.ctxs ∧ (s.raiseChannels cs).live = s.live ∧
    (s.raiseChannels cs).hp = s.hp ∧ (s.raiseChannels cs).wm = s.wm ∧ (s.raiseChannels cs).slices = s.slices ∧
    (s.raiseChannels cs).cached = s.cached ∧ (s.raiseChannels cs).table = s.table ∧ (s.raiseChannels cs).recs = s.recs ∧
    (s.raiseChannels cs).vpA = s.vpA ∧ (s.raiseChannels cs).vpB = s.vpB ∧ (s.raiseChannels cs).ks = s.ks ∧ (s.raiseChannels
    cs).lanes = s.lanes ∧ (s.raiseChannels cs).mult = s.mult ∧ (s.raiseChannels cs).evr = s.evr ∧ (s.raiseChannels cs).cus =
    s.cus ∧ (s.raiseChannels cs).loops = s.loops ∧ (s.raiseChannels cs).tam = s.tam ∧ (s.raiseChannels cs).pow = s.pow ∧
    (s.raiseChannels cs).drawn = s.drawn ∧ (s.raiseChannels cs).out = s.out := by
  refine ⟨?_, ?_, ?_, ?_, ?_, ?_, ?_, ?_, ?_, ?_, ?_, ?_, ?_, ?_, ?_, ?_, ?_, ?_, ?_, ?_, ?_, ?_⟩ <;>
    (unfold State.raiseChannels; simp)

@[simp] theorem State.setSlcSt_frame (s : State) (n : Nat) (st : SlSt) : (s.setSlcSt n st).pending = s.pending ∧ (s.setSlcSt
    n st).ph = s.ph ∧ (s.setSlcSt n st).ctxs = s.ctxs ∧ (s.setSlcSt n st).live = s.live ∧ (s.setSlcSt n st).hp = s.hp ∧
    (s.setSlcSt n st).wm = s.wm ∧ (s.setSlcSt n st).chans = s.chans ∧ (s.setSlcSt n st).cached = s.cached ∧ (s.setSlcSt n
    st).table = s.table ∧ (s.setSlcSt n st).recs = s.recs ∧ (s.setSlcSt n st).vpA = s.vpA ∧ (s.setSlcSt n st).vpB = s.vpB ∧
    (s.setSlcSt n st).ks = s.ks ∧ (s.setSlcSt n st).lanes = s.lanes ∧ (s.setSlcSt n st).mult = s.mult ∧ (s.setSlcSt n st).evr
    = s.evr ∧ (s.setSlcSt n st).cus = s.cus ∧ (s.setSlcSt n st).loops = s.loops ∧ (s.setSlcSt n st).tam = s.tam ∧ (s.setSlcSt
    n st).pow = s.pow ∧ (s.setSlcSt n st).drawn = s.drawn ∧ (s.setSlcSt n st).out = s.out := by
  refine ⟨?_, ?_, ?_, ?_, ?_, ?_, ?_, ?_, ?_, ?_, ?_, ?_, ?_, ?_, ?_, ?_, ?_, ?_, ?_, ?_, ?_, ?_⟩ <;>
    (unfold State.setSlcSt; simp)

@[simp] theorem State.fireUnpowered_frame (s : State) (i : Nat) : (s.fireUnpowered i).pending = s.pending := by
  (unfold State.fireUnpowered; (try dsimp only); (repeat' split) <;> simp)

@[simp] theorem State.tick_frame (s : State) (n : Nat) : (s.tick n).pending = s.pending ∧ (s.tick n).ctxs = s.ctxs ∧ (s.tick
    n).live = s.live ∧ (s.tick n).hp = s.hp ∧ (s.tick n).wm = s.wm ∧ (s.tick n).slices = s.slices ∧ (s.tick n).chans =
    s.chans ∧ (s.tick n).cached = s.cached ∧ (s.tick n).table = s.table ∧ (s.tick n).recs = s.recs ∧ (s.tick n).vpA = s.vpA ∧
    (s.tick n).vpB = s.vpB ∧ (s.tick n).ks = s.ks ∧ (s.tick n).lanes = s.lanes ∧ (s.tick n).mult = s.mult ∧ (s.tick n).evr =
    s.evr ∧ (s.tick n).cus = s.cus ∧ (s.tick n).loops = s.loops ∧ (s.tick n).tam = s.tam ∧ (s.tick n).pow = s.pow ∧ (s.tick
    n).drawn = s.drawn ∧ (s.tick n).out = s.out := by
  refine ⟨?_, ?_, ?_, ?_, ?_, ?_, ?_, ?_, ?_, ?_, ?_, ?_, ?_, ?_, ?_, ?_, ?_, ?_, ?_, ?_, ?_, ?_⟩ <;>
    (unfold State.tick; simp)

@[simp] theorem State.answerLocked_frame (s : State) (l : Live) : (s.answerLocked l).pending = s.pending ∧ (s.answerLocked
    l).ph = s.ph ∧ (s.answerLocked l).hp = s.hp ∧ (s.answerLocked l).wm = s.wm ∧ (s.answerLocked l).slices = s.slices ∧
    (s.answerLocked l).chans = s.chans ∧ (s.answerLocked l).cached = s.cached ∧ (s.answerLocked l).table = s.table ∧
    (s.answerLocked l).recs = s.recs ∧ (s.answerLocked l).ks = s.ks ∧ (s.answerLocked l).lanes = s.lanes ∧ (s.answerLocked
    l).mult = s.mult ∧ (s.answerLocked l).evr = s.evr ∧ (s.answerLocked l).cus = s.cus ∧ (s.answerLocked l).loops = s.loops ∧
    (s.answerLocked l).tam = s.tam ∧ (s.answerLocked l).pow = s.pow ∧ (s.answerLocked l).drawn = s.drawn := by
  refine ⟨?_, ?_, ?_, ?_, ?_, ?_, ?_, ?_, ?_, ?_, ?_, ?_, ?_, ?_, ?_, ?_, ?_, ?_⟩ <;> (unfold State.answerLocked; simp)

@[simp] theorem State.enterPh_frame (s : State) (st : PhSt) : (s.enterPh st).pending = s.pending ∧ (s.enterPh st).ctxs =
    s.ctxs ∧ (s.enterPh st).live = s.live ∧ (s.enterPh st).wm = s.wm ∧ (s.enterPh st).slices = s.slices ∧ (s.enterPh
    st).chans = s.chans ∧ (s.enterPh st).cached = s.cached ∧ (s.enterPh st).table = s.table ∧ (s.enterPh st).recs = s.recs ∧
    (s.enterPh st).vpA = s.vpA ∧ (s.enterPh st).vpB = s.vpB ∧ (s.enterPh st).ks = s.ks ∧ (s.enterPh st).lanes = s.lanes ∧
    (s.enterPh st).mult = s.mult ∧ (s.enterPh st).evr = s.evr ∧ (s.enterPh st).cus = s.cus ∧ (s.enterPh st).tam = s.tam ∧
    (s.enterPh st).pow = s.pow ∧ (s.enterPh st).drawn = s.drawn := by
  refine ⟨?_, ?_, ?_, ?_, ?_, ?_, ?_, ?_, ?_, ?_, ?_, ?_, ?_, ?_, ?_, ?_, ?_, ?_, ?_⟩ <;>
    (unfold State.enterPh; (try dsimp only); (repeat' split) <;> simp)

@[simp] theorem State.enterLock_frame (s : State) (err : Int) : (s.enterLock err).pending = s.pending ∧ (s.enterLock
    err).ctxs = s.ctxs ∧ (s.enterLock err).live = s.live ∧ (s.enterLock err).wm = s.wm ∧ (s.enterLock err).slices = s.slices
    ∧ (s.enterLock err).chans = s.chans ∧ (s.enterLock err).cached = s.cached ∧ (s.enterLock err).table = s.table ∧
    (s.enterLock err).recs = s.recs ∧ (s.enterLock err).vpA = s.vpA ∧ (s.enterLock err).vpB = s.vpB ∧ (s.enterLock err).ks =
    s.ks ∧ (s.enterLock err).lanes = s.lanes ∧ (s.enterLock err).mult = s.mult ∧ (s.enterLock err).cus = s.cus ∧ (s.enterLock
    err).tam = s.tam ∧ (s.enterLock err).pow = s.pow ∧ (s.enterLock err).drawn = s.drawn := by
  refine ⟨?_, ?_, ?_, ?_, ?_, ?_, ?_, ?_, ?_, ?_, ?_, ?_, ?_, ?_, ?_, ?_, ?_, ?_⟩ <;> (unfold State.enterLock; simp)

@[simp] theorem State.enterCoast_frame (s : State) : (s.enterCoast).pending = s.pending ∧ (s.enterCoast).ctxs = s.ctxs ∧
    (s.enterCoast).live = s.live ∧ (s.enterCoast).wm = s.wm ∧ (s.enterCoast).slices = s.slices ∧ (s.enterCoast).chans =
    s.chans ∧ (s.enterCoast).cached = s.cached ∧ (s.enterCoast).table = s.table ∧ (s.enterCoast).recs = s.recs ∧
    (s.enterCoast).vpA = s.vpA ∧ (s.enterCoast).vpB = s.vpB ∧ (s.enterCoast).ks = s.ks ∧ (s.enterCoast).lanes = s.lanes ∧
    (s.enterCoast).mult = s.mult ∧ (s.enterCoast).cus = s.cus ∧ (s.enterCoast).tam = s.tam ∧ (s.enterCoast).pow = s.pow ∧
    (s.enterCoast).drawn = s.drawn := by
  refine ⟨?_, ?_, ?_, ?_, ?_, ?_, ?_, ?_, ?_, ?_, ?_, ?_, ?_, ?_, ?_, ?_, ?_, ?_⟩ <;> (unfold State.enterCoast; simp)

@[simp] theorem State.enterSlew_frame (s : State) (err : Int) : (s.enterSlew err).pending = s.pending ∧ (s.enterSlew
    err).ctxs = s.ctxs ∧ (s.enterSlew err).live = s.live ∧ (s.enterSlew err).wm = s.wm ∧ (s.enterSlew err).slices = s.slices
    ∧ (s.enterSlew err).chans = s.chans ∧ (s.enterSlew err).cached = s.cached ∧ (s.enterSlew err).table = s.table ∧
    (s.enterSlew err).recs = s.recs ∧ (s.enterSlew err).vpA = s.vpA ∧ (s.enterSlew err).vpB = s.vpB ∧ (s.enterSlew err).ks =
    s.ks ∧ (s.enterSlew err).lanes = s.lanes ∧ (s.enterSlew err).mult = s.mult ∧ (s.enterSlew err).cus = s.cus ∧ (s.enterSlew
    err).tam = s.tam ∧ (s.enterSlew err).pow = s.pow ∧ (s.enterSlew err).drawn = s.drawn := by
  refine ⟨?_, ?_, ?_, ?_, ?_, ?_, ?_, ?_, ?_, ?_, ?_, ?_, ?_, ?_, ?_, ?_, ?_, ?_⟩ <;> (unfold State.enterSlew; simp)

@[simp] theorem State.measure_frame (s : State) (m : MainsCycle) (g : Bool) : (s.measure m g).pending = s.pending ∧
    (s.measure m g).ctxs = s.ctxs ∧ (s.measure m g).live = s.live ∧ (s.measure m g).wm = s.wm ∧ (s.measure m g).slices =
    s.slices ∧ (s.measure m g).chans = s.chans ∧ (s.measure m g).cached = s.cached ∧ (s.measure m g).table = s.table ∧
    (s.measure m g).recs = s.recs ∧ (s.measure m g).vpA = s.vpA ∧ (s.measure m g).vpB = s.vpB ∧ (s.measure m g).ks = s.ks ∧
    (s.measure m g).lanes = s.lanes ∧ (s.measure m g).mult = s.mult ∧ (s.measure m g).cus = s.cus ∧ (s.measure m g).loops =
    s.loops ∧ (s.measure m g).tam = s.tam ∧ (s.measure m g).pow = s.pow ∧ (s.measure m g).drawn = s.drawn := by
  refine ⟨?_, ?_, ?_, ?_, ?_, ?_, ?_, ?_, ?_, ?_, ?_, ?_, ?_, ?_, ?_, ?_, ?_, ?_, ?_⟩ <;>
    (unfold State.measure; (try dsimp only); (repeat' split) <;> simp)

@[simp] theorem State.onCrossing_frame (s : State) : (s.onCrossing).pending = s.pending ∧ (s.onCrossing).ctxs = s.ctxs ∧
    (s.onCrossing).wm = s.wm ∧ (s.onCrossing).slices = s.slices ∧ (s.onCrossing).chans = s.chans ∧ (s.onCrossing).cached =
    s.cached ∧ (s.onCrossing).table = s.table ∧ (s.onCrossing).recs = s.recs ∧ (s.onCrossing).vpA = s.vpA ∧
    (s.onCrossing).vpB = s.vpB ∧ (s.onCrossing).ks = s.ks ∧ (s.onCrossing).lanes = s.lanes ∧ (s.onCrossing).mult = s.mult ∧
    (s.onCrossing).cus = s.cus ∧ (s.onCrossing).tam = s.tam ∧ (s.onCrossing).pow = s.pow ∧ (s.onCrossing).drawn = s.drawn :=
    by
  refine ⟨?_, ?_, ?_, ?_, ?_, ?_, ?_, ?_, ?_, ?_, ?_, ?_, ?_, ?_, ?_, ?_, ?_⟩ <;>
    (unfold State.onCrossing; (try dsimp only); (repeat' split) <;> simp)

@[simp] theorem State.nextPhi_frame (s : State) : (s.nextPhi).pending = s.pending ∧ (s.nextPhi).ctxs = s.ctxs ∧
    (s.nextPhi).live = s.live ∧ (s.nextPhi).hp = s.hp ∧ (s.nextPhi).wm = s.wm ∧ (s.nextPhi).slices = s.slices ∧
    (s.nextPhi).chans = s.chans ∧ (s.nextPhi).cached = s.cached ∧ (s.nextPhi).table = s.table ∧ (s.nextPhi).recs = s.recs ∧
    (s.nextPhi).vpA = s.vpA ∧ (s.nextPhi).vpB = s.vpB ∧ (s.nextPhi).ks = s.ks ∧ (s.nextPhi).lanes = s.lanes ∧
    (s.nextPhi).mult = s.mult ∧ (s.nextPhi).evr = s.evr ∧ (s.nextPhi).cus = s.cus ∧ (s.nextPhi).loops = s.loops ∧
    (s.nextPhi).tam = s.tam ∧ (s.nextPhi).pow = s.pow ∧ (s.nextPhi).drawn = s.drawn ∧ (s.nextPhi).out = s.out := by
  refine ⟨?_, ?_, ?_, ?_, ?_, ?_, ?_, ?_, ?_, ?_, ?_, ?_, ?_, ?_, ?_, ?_, ?_, ?_, ?_, ?_, ?_, ?_⟩ <;>
    (unfold State.nextPhi; (repeat' split) <;> simp)

@[simp] theorem State.takeBand_frame (s : State) (band : Nat) : (s.takeBand band).pending = s.pending ∧ (s.takeBand
    band).ctxs = s.ctxs ∧ (s.takeBand band).live = s.live ∧ (s.takeBand band).wm = s.wm ∧ (s.takeBand band).slices = s.slices
    ∧ (s.takeBand band).chans = s.chans ∧ (s.takeBand band).cached = s.cached ∧ (s.takeBand band).table = s.table ∧
    (s.takeBand band).recs = s.recs ∧ (s.takeBand band).vpA = s.vpA ∧ (s.takeBand band).vpB = s.vpB ∧ (s.takeBand band).ks =
    s.ks ∧ (s.takeBand band).lanes = s.lanes ∧ (s.takeBand band).mult = s.mult ∧ (s.takeBand band).cus = s.cus ∧ (s.takeBand
    band).tam = s.tam ∧ (s.takeBand band).pow = s.pow ∧ (s.takeBand band).drawn = s.drawn := by
  refine ⟨?_, ?_, ?_, ?_, ?_, ?_, ?_, ?_, ?_, ?_, ?_, ?_, ?_, ?_, ?_, ?_, ?_, ?_⟩ <;>
    (unfold State.takeBand; (try dsimp only); (repeat' split) <;> simp)

@[simp] theorem State.apdu_frame (s : State) (card : Serial) (stage : Stage) (bytes : List Byte) : (s.apdu card stage
    bytes).pending = s.pending ∧ (s.apdu card stage bytes).ph = s.ph ∧ (s.apdu card stage bytes).ctxs = s.ctxs ∧ (s.apdu card
    stage bytes).live = s.live ∧ (s.apdu card stage bytes).hp = s.hp ∧ (s.apdu card stage bytes).wm = s.wm ∧ (s.apdu card
    stage bytes).slices = s.slices ∧ (s.apdu card stage bytes).chans = s.chans ∧ (s.apdu card stage bytes).cached = s.cached
    ∧ (s.apdu card stage bytes).table = s.table ∧ (s.apdu card stage bytes).recs = s.recs ∧ (s.apdu card stage bytes).vpA =
    s.vpA ∧ (s.apdu card stage bytes).vpB = s.vpB ∧ (s.apdu card stage bytes).ks = s.ks ∧ (s.apdu card stage bytes).lanes =
    s.lanes ∧ (s.apdu card stage bytes).mult = s.mult ∧ (s.apdu card stage bytes).evr = s.evr ∧ (s.apdu card stage
    bytes).loops = s.loops ∧ (s.apdu card stage bytes).tam = s.tam ∧ (s.apdu card stage bytes).pow = s.pow ∧ (s.apdu card
    stage bytes).drawn = s.drawn := by
  refine ⟨?_, ?_, ?_, ?_, ?_, ?_, ?_, ?_, ?_, ?_, ?_, ?_, ?_, ?_, ?_, ?_, ?_, ?_, ?_, ?_, ?_⟩ <;>
    (unfold State.apdu; simp)

@[simp] theorem State.setReg_frame (s : State) (i : Nat) (r : Option Reg) (origin : Nat) : (s.setReg i r origin).pending =
    s.pending ∧ (s.setReg i r origin).ph = s.ph ∧ (s.setReg i r origin).ctxs = s.ctxs ∧ (s.setReg i r origin).live = s.live ∧
    (s.setReg i r origin).wm = s.wm ∧ (s.setReg i r origin).slices = s.slices ∧ (s.setReg i r origin).chans = s.chans ∧
    (s.setReg i r origin).cached = s.cached ∧ (s.setReg i r origin).table = s.table ∧ (s.setReg i r origin).recs = s.recs ∧
    (s.setReg i r origin).vpA = s.vpA ∧ (s.setReg i r origin).vpB = s.vpB ∧ (s.setReg i r origin).lanes = s.lanes ∧ (s.setReg
    i r origin).mult = s.mult ∧ (s.setReg i r origin).cus = s.cus ∧ (s.setReg i r origin).loops = s.loops ∧ (s.setReg i r
    origin).tam = s.tam ∧ (s.setReg i r origin).pow = s.pow ∧ (s.setReg i r origin).drawn = s.drawn := by
  refine ⟨?_, ?_, ?_, ?_, ?_, ?_, ?_, ?_, ?_, ?_, ?_, ?_, ?_, ?_, ?_, ?_, ?_, ?_, ?_⟩ <;>
    (unfold State.setReg; (try dsimp only); (repeat' split) <;> simp)

@[simp] theorem State.dropPortKey_frame (s : State) (p : Port) (origin : Nat) : (s.dropPortKey p origin).pending = s.pending
    ∧ (s.dropPortKey p origin).ph = s.ph ∧ (s.dropPortKey p origin).ctxs = s.ctxs ∧ (s.dropPortKey p origin).live = s.live ∧
    (s.dropPortKey p origin).wm = s.wm ∧ (s.dropPortKey p origin).slices = s.slices ∧ (s.dropPortKey p origin).chans =
    s.chans ∧ (s.dropPortKey p origin).cached = s.cached ∧ (s.dropPortKey p origin).table = s.table ∧ (s.dropPortKey p
    origin).recs = s.recs ∧ (s.dropPortKey p origin).vpA = s.vpA ∧ (s.dropPortKey p origin).vpB = s.vpB ∧ (s.dropPortKey p
    origin).lanes = s.lanes ∧ (s.dropPortKey p origin).mult = s.mult ∧ (s.dropPortKey p origin).cus = s.cus ∧ (s.dropPortKey
    p origin).loops = s.loops ∧ (s.dropPortKey p origin).tam = s.tam ∧ (s.dropPortKey p origin).pow = s.pow ∧ (s.dropPortKey
    p origin).drawn = s.drawn := by
  refine ⟨?_, ?_, ?_, ?_, ?_, ?_, ?_, ?_, ?_, ?_, ?_, ?_, ?_, ?_, ?_, ?_, ?_, ?_, ?_⟩ <;>
    (unfold State.dropPortKey; (repeat' split) <;> simp)

@[simp] theorem State.blow_frame (s : State) (origin i : Nat) : (s.blow origin i).pending = s.pending ∧ (s.blow origin i).ph
    = s.ph ∧ (s.blow origin i).ctxs = s.ctxs ∧ (s.blow origin i).live = s.live ∧ (s.blow origin i).wm = s.wm ∧ (s.blow origin
    i).slices = s.slices ∧ (s.blow origin i).chans = s.chans ∧ (s.blow origin i).cached = s.cached ∧ (s.blow origin i).table
    = s.table ∧ (s.blow origin i).recs = s.recs ∧ (s.blow origin i).vpA = s.vpA ∧ (s.blow origin i).vpB = s.vpB ∧ (s.blow
    origin i).ks = s.ks ∧ (s.blow origin i).lanes = s.lanes ∧ (s.blow origin i).mult = s.mult ∧ (s.blow origin i).cus = s.cus
    ∧ (s.blow origin i).loops = s.loops ∧ (s.blow origin i).pow = s.pow ∧ (s.blow origin i).drawn = s.drawn := by
  refine ⟨?_, ?_, ?_, ?_, ?_, ?_, ?_, ?_, ?_, ?_, ?_, ?_, ?_, ?_, ?_, ?_, ?_, ?_, ?_⟩ <;> (unfold State.blow; simp)

@[simp] theorem State.emptyQueue_frame (s : State) (card : Serial) : (s.emptyQueue card).pending = s.pending ∧ (s.emptyQueue
    card).ph = s.ph ∧ (s.emptyQueue card).ctxs = s.ctxs ∧ (s.emptyQueue card).live = s.live ∧ (s.emptyQueue card).hp = s.hp ∧
    (s.emptyQueue card).wm = s.wm ∧ (s.emptyQueue card).slices = s.slices ∧ (s.emptyQueue card).chans = s.chans ∧
    (s.emptyQueue card).cached = s.cached ∧ (s.emptyQueue card).table = s.table ∧ (s.emptyQueue card).recs = s.recs ∧
    (s.emptyQueue card).vpA = s.vpA ∧ (s.emptyQueue card).vpB = s.vpB ∧ (s.emptyQueue card).ks = s.ks ∧ (s.emptyQueue
    card).lanes = s.lanes ∧ (s.emptyQueue card).mult = s.mult ∧ (s.emptyQueue card).evr = s.evr ∧ (s.emptyQueue card).loops =
    s.loops ∧ (s.emptyQueue card).tam = s.tam ∧ (s.emptyQueue card).pow = s.pow ∧ (s.emptyQueue card).drawn = s.drawn ∧
    (s.emptyQueue card).out = s.out := by
  refine ⟨?_, ?_, ?_, ?_, ?_, ?_, ?_, ?_, ?_, ?_, ?_, ?_, ?_, ?_, ?_, ?_, ?_, ?_, ?_, ?_, ?_, ?_⟩ <;>
    (unfold State.emptyQueue; simp)

@[simp] theorem State.goodBlock_frame (s : State) : (s.goodBlock).pending = s.pending ∧ (s.goodBlock).ph = s.ph ∧
    (s.goodBlock).ctxs = s.ctxs ∧ (s.goodBlock).live = s.live ∧ (s.goodBlock).hp = s.hp ∧ (s.goodBlock).wm = s.wm ∧
    (s.goodBlock).slices = s.slices ∧ (s.goodBlock).chans = s.chans ∧ (s.goodBlock).cached = s.cached ∧ (s.goodBlock).table =
    s.table ∧ (s.goodBlock).recs = s.recs ∧ (s.goodBlock).vpA = s.vpA ∧ (s.goodBlock).vpB = s.vpB ∧ (s.goodBlock).ks = s.ks ∧
    (s.goodBlock).lanes = s.lanes ∧ (s.goodBlock).mult = s.mult ∧ (s.goodBlock).evr = s.evr ∧ (s.goodBlock).loops = s.loops ∧
    (s.goodBlock).tam = s.tam ∧ (s.goodBlock).pow = s.pow ∧ (s.goodBlock).drawn = s.drawn ∧ (s.goodBlock).out = s.out := by
  refine ⟨?_, ?_, ?_, ?_, ?_, ?_, ?_, ?_, ?_, ?_, ?_, ?_, ?_, ?_, ?_, ?_, ?_, ?_, ?_, ?_, ?_, ?_⟩ <;>
    (unfold State.goodBlock; simp)

@[simp] theorem State.hostCtx_frame (s : State) (o : Owner) (f : Ctx → Ctx) : (s.hostCtx o f).pending = s.pending ∧
    (s.hostCtx o f).ph = s.ph ∧ (s.hostCtx o f).live = s.live ∧ (s.hostCtx o f).hp = s.hp ∧ (s.hostCtx o f).wm = s.wm ∧
    (s.hostCtx o f).slices = s.slices ∧ (s.hostCtx o f).chans = s.chans ∧ (s.hostCtx o f).cached = s.cached ∧ (s.hostCtx o
    f).table = s.table ∧ (s.hostCtx o f).recs = s.recs ∧ (s.hostCtx o f).vpA = s.vpA ∧ (s.hostCtx o f).vpB = s.vpB ∧
    (s.hostCtx o f).ks = s.ks ∧ (s.hostCtx o f).lanes = s.lanes ∧ (s.hostCtx o f).mult = s.mult ∧ (s.hostCtx o f).evr = s.evr
    ∧ (s.hostCtx o f).cus = s.cus ∧ (s.hostCtx o f).loops = s.loops ∧ (s.hostCtx o f).tam = s.tam ∧ (s.hostCtx o f).pow =
    s.pow ∧ (s.hostCtx o f).drawn = s.drawn ∧ (s.hostCtx o f).out = s.out := by
  refine ⟨?_, ?_, ?_, ?_, ?_, ?_, ?_, ?_, ?_, ?_, ?_, ?_, ?_, ?_, ?_, ?_, ?_, ?_, ?_, ?_, ?_, ?_⟩ <;>
    (unfold State.hostCtx; (repeat' split) <;> simp)

@[simp] theorem State.ringCfg_frame (s : State) (o : Owner) (reply : Bool) (v : BitVec 64) : (s.ringCfg o reply v).pending =
    s.pending ∧ (s.ringCfg o reply v).ph = s.ph ∧ (s.ringCfg o reply v).live = s.live ∧ (s.ringCfg o reply v).hp = s.hp ∧
    (s.ringCfg o reply v).wm = s.wm ∧ (s.ringCfg o reply v).slices = s.slices ∧ (s.ringCfg o reply v).chans = s.chans ∧
    (s.ringCfg o reply v).cached = s.cached ∧ (s.ringCfg o reply v).table = s.table ∧ (s.ringCfg o reply v).recs = s.recs ∧
    (s.ringCfg o reply v).vpA = s.vpA ∧ (s.ringCfg o reply v).vpB = s.vpB ∧ (s.ringCfg o reply v).ks = s.ks ∧ (s.ringCfg o
    reply v).lanes = s.lanes ∧ (s.ringCfg o reply v).mult = s.mult ∧ (s.ringCfg o reply v).evr = s.evr ∧ (s.ringCfg o reply
    v).cus = s.cus ∧ (s.ringCfg o reply v).loops = s.loops ∧ (s.ringCfg o reply v).tam = s.tam ∧ (s.ringCfg o reply v).pow =
    s.pow ∧ (s.ringCfg o reply v).drawn = s.drawn ∧ (s.ringCfg o reply v).out = s.out := by
  refine ⟨?_, ?_, ?_, ?_, ?_, ?_, ?_, ?_, ?_, ?_, ?_, ?_, ?_, ?_, ?_, ?_, ?_, ?_, ?_, ?_, ?_, ?_⟩ <;>
    (unfold State.ringCfg; (try dsimp only); (repeat' split) <;> simp)

@[simp] theorem State.haltRing_frame (s : State) (o : Owner) (completion : Nat) : (s.haltRing o completion).pending =
    s.pending ∧ (s.haltRing o completion).ph = s.ph ∧ (s.haltRing o completion).live = s.live ∧ (s.haltRing o completion).wm
    = s.wm ∧ (s.haltRing o completion).slices = s.slices ∧ (s.haltRing o completion).chans = s.chans ∧ (s.haltRing o
    completion).cached = s.cached ∧ (s.haltRing o completion).table = s.table ∧ (s.haltRing o completion).recs = s.recs ∧
    (s.haltRing o completion).vpA = s.vpA ∧ (s.haltRing o completion).vpB = s.vpB ∧ (s.haltRing o completion).ks = s.ks ∧
    (s.haltRing o completion).lanes = s.lanes ∧ (s.haltRing o completion).mult = s.mult ∧ (s.haltRing o completion).cus =
    s.cus ∧ (s.haltRing o completion).loops = s.loops ∧ (s.haltRing o completion).tam = s.tam ∧ (s.haltRing o completion).pow
    = s.pow ∧ (s.haltRing o completion).drawn = s.drawn := by
  refine ⟨?_, ?_, ?_, ?_, ?_, ?_, ?_, ?_, ?_, ?_, ?_, ?_, ?_, ?_, ?_, ?_, ?_, ?_, ?_⟩ <;> (unfold State.haltRing; simp)

@[simp] theorem State.unreadable_frame (s : State) (o : Owner) (index : Nat) (ev : Bool) (st : Status) (detail : Nat) :
    (s.unreadable o index ev st detail).pending = s.pending ∧ (s.unreadable o index ev st detail).ph = s.ph ∧ (s.unreadable o
    index ev st detail).live = s.live ∧ (s.unreadable o index ev st detail).hp = s.hp ∧ (s.unreadable o index ev st
    detail).wm = s.wm ∧ (s.unreadable o index ev st detail).slices = s.slices ∧ (s.unreadable o index ev st detail).chans =
    s.chans ∧ (s.unreadable o index ev st detail).cached = s.cached ∧ (s.unreadable o index ev st detail).table = s.table ∧
    (s.unreadable o index ev st detail).recs = s.recs ∧ (s.unreadable o index ev st detail).vpA = s.vpA ∧ (s.unreadable o
    index ev st detail).vpB = s.vpB ∧ (s.unreadable o index ev st detail).ks = s.ks ∧ (s.unreadable o index ev st
    detail).lanes = s.lanes ∧ (s.unreadable o index ev st detail).mult = s.mult ∧ (s.unreadable o index ev st detail).evr =
    s.evr ∧ (s.unreadable o index ev st detail).cus = s.cus ∧ (s.unreadable o index ev st detail).loops = s.loops ∧
    (s.unreadable o index ev st detail).tam = s.tam ∧ (s.unreadable o index ev st detail).pow = s.pow ∧ (s.unreadable o index
    ev st detail).drawn = s.drawn := by
  refine ⟨?_, ?_, ?_, ?_, ?_, ?_, ?_, ?_, ?_, ?_, ?_, ?_, ?_, ?_, ?_, ?_, ?_, ?_, ?_, ?_, ?_⟩ <;>
    (unfold State.unreadable; simp)

@[simp] theorem State.takePacket_frame (s : State) (o : Owner) (index : Nat) (e : List Byte) (packet : Except Nat (List
    Byte)) : (s.takePacket o index e packet).pending = s.pending ∧ (s.takePacket o index e packet).ph = s.ph ∧ (s.takePacket
    o index e packet).live = s.live ∧ (s.takePacket o index e packet).wm = s.wm ∧ (s.takePacket o index e packet).slices =
    s.slices ∧ (s.takePacket o index e packet).chans = s.chans ∧ (s.takePacket o index e packet).cached = s.cached ∧
    (s.takePacket o index e packet).table = s.table ∧ (s.takePacket o index e packet).recs = s.recs ∧ (s.takePacket o index e
    packet).vpA = s.vpA ∧ (s.takePacket o index e packet).vpB = s.vpB ∧ (s.takePacket o index e packet).ks = s.ks ∧
    (s.takePacket o index e packet).lanes = s.lanes ∧ (s.takePacket o index e packet).mult = s.mult ∧ (s.takePacket o index e
    packet).cus = s.cus ∧ (s.takePacket o index e packet).loops = s.loops ∧ (s.takePacket o index e packet).tam = s.tam ∧
    (s.takePacket o index e packet).pow = s.pow := by
  refine ⟨?_, ?_, ?_, ?_, ?_, ?_, ?_, ?_, ?_, ?_, ?_, ?_, ?_, ?_, ?_, ?_, ?_, ?_⟩ <;>
    (unfold State.takePacket; (try dsimp only); (repeat' split) <;> simp)

@[simp] theorem State.takeEntry_frame (s : State) (o : Owner) (e : List Byte) (packet : Except Nat (List Byte)) :
    (s.takeEntry o e packet).pending = s.pending ∧ (s.takeEntry o e packet).ph = s.ph ∧ (s.takeEntry o e packet).live =
    s.live ∧ (s.takeEntry o e packet).wm = s.wm ∧ (s.takeEntry o e packet).slices = s.slices ∧ (s.takeEntry o e packet).chans
    = s.chans ∧ (s.takeEntry o e packet).cached = s.cached ∧ (s.takeEntry o e packet).table = s.table ∧ (s.takeEntry o e
    packet).recs = s.recs ∧ (s.takeEntry o e packet).vpA = s.vpA ∧ (s.takeEntry o e packet).vpB = s.vpB ∧ (s.takeEntry o e
    packet).ks = s.ks ∧ (s.takeEntry o e packet).lanes = s.lanes ∧ (s.takeEntry o e packet).mult = s.mult ∧ (s.takeEntry o e
    packet).cus = s.cus ∧ (s.takeEntry o e packet).loops = s.loops ∧ (s.takeEntry o e packet).tam = s.tam ∧ (s.takeEntry o e
    packet).pow = s.pow := by
  refine ⟨?_, ?_, ?_, ?_, ?_, ?_, ?_, ?_, ?_, ?_, ?_, ?_, ?_, ?_, ?_, ?_, ?_, ?_⟩ <;>
    (unfold State.takeEntry; (try dsimp only); (repeat' split) <;> simp)

@[simp] theorem State.ringFetch_frame (s : State) (o : Owner) (entry : List Byte) (packet : Except Nat (List Byte)) :
    (s.ringFetch o entry packet).pending = s.pending ∧ (s.ringFetch o entry packet).ph = s.ph ∧ (s.ringFetch o entry
    packet).live = s.live ∧ (s.ringFetch o entry packet).wm = s.wm ∧ (s.ringFetch o entry packet).slices = s.slices ∧
    (s.ringFetch o entry packet).chans = s.chans ∧ (s.ringFetch o entry packet).cached = s.cached ∧ (s.ringFetch o entry
    packet).table = s.table ∧ (s.ringFetch o entry packet).recs = s.recs ∧ (s.ringFetch o entry packet).vpA = s.vpA ∧
    (s.ringFetch o entry packet).vpB = s.vpB ∧ (s.ringFetch o entry packet).ks = s.ks ∧ (s.ringFetch o entry packet).lanes =
    s.lanes ∧ (s.ringFetch o entry packet).mult = s.mult ∧ (s.ringFetch o entry packet).cus = s.cus ∧ (s.ringFetch o entry
    packet).loops = s.loops ∧ (s.ringFetch o entry packet).tam = s.tam ∧ (s.ringFetch o entry packet).pow = s.pow := by
  refine ⟨?_, ?_, ?_, ?_, ?_, ?_, ?_, ?_, ?_, ?_, ?_, ?_, ?_, ?_, ?_, ?_, ?_, ?_⟩ <;>
    (unfold State.ringFetch; (try dsimp only); (repeat' split) <;> simp)

@[simp] theorem State.mapFails_frame (s : State) (n completion : Nat) : (s.mapFails n completion).pending = s.pending ∧
    (s.mapFails n completion).ph = s.ph ∧ (s.mapFails n completion).live = s.live ∧ (s.mapFails n completion).wm = s.wm ∧
    (s.mapFails n completion).slices = s.slices ∧ (s.mapFails n completion).chans = s.chans ∧ (s.mapFails n
    completion).cached = s.cached ∧ (s.mapFails n completion).table = s.table ∧ (s.mapFails n completion).recs = s.recs ∧
    (s.mapFails n completion).vpA = s.vpA ∧ (s.mapFails n completion).vpB = s.vpB ∧ (s.mapFails n completion).ks = s.ks ∧
    (s.mapFails n completion).lanes = s.lanes ∧ (s.mapFails n completion).mult = s.mult ∧ (s.mapFails n completion).cus =
    s.cus ∧ (s.mapFails n completion).loops = s.loops ∧ (s.mapFails n completion).tam = s.tam ∧ (s.mapFails n completion).pow
    = s.pow ∧ (s.mapFails n completion).drawn = s.drawn := by
  refine ⟨?_, ?_, ?_, ?_, ?_, ?_, ?_, ?_, ?_, ?_, ?_, ?_, ?_, ?_, ?_, ?_, ?_, ?_, ?_⟩ <;> (unfold State.mapFails; simp)

@[simp] theorem State.flushWord_frame (s : State) (n w : Nat) (got : Dma) : (s.flushWord n w got).pending = s.pending ∧
    (s.flushWord n w got).ph = s.ph ∧ (s.flushWord n w got).live = s.live ∧ (s.flushWord n w got).wm = s.wm ∧ (s.flushWord n
    w got).slices = s.slices ∧ (s.flushWord n w got).chans = s.chans ∧ (s.flushWord n w got).cached = s.cached ∧ (s.flushWord
    n w got).table = s.table ∧ (s.flushWord n w got).recs = s.recs ∧ (s.flushWord n w got).vpA = s.vpA ∧ (s.flushWord n w
    got).vpB = s.vpB ∧ (s.flushWord n w got).ks = s.ks ∧ (s.flushWord n w got).lanes = s.lanes ∧ (s.flushWord n w got).mult =
    s.mult ∧ (s.flushWord n w got).cus = s.cus ∧ (s.flushWord n w got).loops = s.loops ∧ (s.flushWord n w got).tam = s.tam ∧
    (s.flushWord n w got).pow = s.pow := by
  refine ⟨?_, ?_, ?_, ?_, ?_, ?_, ?_, ?_, ?_, ?_, ?_, ?_, ?_, ?_, ?_, ?_, ?_, ?_⟩ <;>
    (unfold State.flushWord; (try dsimp only); (repeat' split) <;> simp)

@[simp] theorem State.flushMarks_frame (s : State) (n : Nat) (reads : List Dma) : (s.flushMarks n reads).pending = s.pending
    ∧ (s.flushMarks n reads).ph = s.ph ∧ (s.flushMarks n reads).live = s.live ∧ (s.flushMarks n reads).wm = s.wm ∧
    (s.flushMarks n reads).slices = s.slices ∧ (s.flushMarks n reads).chans = s.chans ∧ (s.flushMarks n reads).cached =
    s.cached ∧ (s.flushMarks n reads).table = s.table ∧ (s.flushMarks n reads).recs = s.recs ∧ (s.flushMarks n reads).vpA =
    s.vpA ∧ (s.flushMarks n reads).vpB = s.vpB ∧ (s.flushMarks n reads).ks = s.ks ∧ (s.flushMarks n reads).lanes = s.lanes ∧
    (s.flushMarks n reads).mult = s.mult ∧ (s.flushMarks n reads).cus = s.cus ∧ (s.flushMarks n reads).loops = s.loops ∧
    (s.flushMarks n reads).tam = s.tam ∧ (s.flushMarks n reads).pow = s.pow := by
  refine ⟨?_, ?_, ?_, ?_, ?_, ?_, ?_, ?_, ?_, ?_, ?_, ?_, ?_, ?_, ?_, ?_, ?_, ?_⟩ <;> (unfold State.flushMarks; simp)

@[simp] theorem State.writeEntry_frame (s : State) (i : Nat) (d : Done) (full : Bool) : (s.writeEntry i d full).pending =
    s.pending ∧ (s.writeEntry i d full).ph = s.ph ∧ (s.writeEntry i d full).live = s.live ∧ (s.writeEntry i d full).wm = s.wm
    ∧ (s.writeEntry i d full).slices = s.slices ∧ (s.writeEntry i d full).chans = s.chans ∧ (s.writeEntry i d full).cached =
    s.cached ∧ (s.writeEntry i d full).table = s.table ∧ (s.writeEntry i d full).recs = s.recs ∧ (s.writeEntry i d full).vpA
    = s.vpA ∧ (s.writeEntry i d full).vpB = s.vpB ∧ (s.writeEntry i d full).ks = s.ks ∧ (s.writeEntry i d full).lanes =
    s.lanes ∧ (s.writeEntry i d full).mult = s.mult ∧ (s.writeEntry i d full).evr = s.evr ∧ (s.writeEntry i d full).cus =
    s.cus ∧ (s.writeEntry i d full).loops = s.loops ∧ (s.writeEntry i d full).tam = s.tam ∧ (s.writeEntry i d full).pow =
    s.pow ∧ (s.writeEntry i d full).drawn = s.drawn := by
  refine ⟨?_, ?_, ?_, ?_, ?_, ?_, ?_, ?_, ?_, ?_, ?_, ?_, ?_, ?_, ?_, ?_, ?_, ?_, ?_, ?_⟩ <;>
    (unfold State.writeEntry; (try dsimp only); (repeat' split) <;> simp)

@[simp] theorem State.clearCause_frame (s : State) (i : Nat) : (s.clearCause i).pending = s.pending ∧ (s.clearCause i).ph =
    s.ph ∧ (s.clearCause i).ctxs = s.ctxs ∧ (s.clearCause i).live = s.live ∧ (s.clearCause i).wm = s.wm ∧ (s.clearCause
    i).slices = s.slices ∧ (s.clearCause i).chans = s.chans ∧ (s.clearCause i).cached = s.cached ∧ (s.clearCause i).table =
    s.table ∧ (s.clearCause i).recs = s.recs ∧ (s.clearCause i).vpA = s.vpA ∧ (s.clearCause i).vpB = s.vpB ∧ (s.clearCause
    i).ks = s.ks ∧ (s.clearCause i).lanes = s.lanes ∧ (s.clearCause i).mult = s.mult ∧ (s.clearCause i).evr = s.evr ∧
    (s.clearCause i).cus = s.cus ∧ (s.clearCause i).loops = s.loops ∧ (s.clearCause i).tam = s.tam ∧ (s.clearCause i).pow =
    s.pow ∧ (s.clearCause i).drawn = s.drawn := by
  refine ⟨?_, ?_, ?_, ?_, ?_, ?_, ?_, ?_, ?_, ?_, ?_, ?_, ?_, ?_, ?_, ?_, ?_, ?_, ?_, ?_, ?_⟩ <;>
    (unfold State.clearCause; (try dsimp only); (repeat' split) <;> simp)

@[simp] theorem State.writeEvent_frame (s : State) (v : BitVec 64) : (s.writeEvent v).pending = s.pending ∧ (s.writeEvent
    v).ph = s.ph ∧ (s.writeEvent v).ctxs = s.ctxs ∧ (s.writeEvent v).live = s.live ∧ (s.writeEvent v).wm = s.wm ∧
    (s.writeEvent v).slices = s.slices ∧ (s.writeEvent v).chans = s.chans ∧ (s.writeEvent v).cached = s.cached ∧
    (s.writeEvent v).table = s.table ∧ (s.writeEvent v).recs = s.recs ∧ (s.writeEvent v).vpA = s.vpA ∧ (s.writeEvent v).vpB =
    s.vpB ∧ (s.writeEvent v).ks = s.ks ∧ (s.writeEvent v).lanes = s.lanes ∧ (s.writeEvent v).mult = s.mult ∧ (s.writeEvent
    v).evr = s.evr ∧ (s.writeEvent v).cus = s.cus ∧ (s.writeEvent v).loops = s.loops ∧ (s.writeEvent v).tam = s.tam ∧
    (s.writeEvent v).pow = s.pow ∧ (s.writeEvent v).drawn = s.drawn := by
  refine ⟨?_, ?_, ?_, ?_, ?_, ?_, ?_, ?_, ?_, ?_, ?_, ?_, ?_, ?_, ?_, ?_, ?_, ?_, ?_, ?_, ?_⟩ <;>
    (unfold State.writeEvent; simp)

@[simp] theorem State.unmask_frame (s : State) (v : Nat) : (s.unmask v).pending = s.pending ∧ (s.unmask v).ph = s.ph ∧
    (s.unmask v).ctxs = s.ctxs ∧ (s.unmask v).live = s.live ∧ (s.unmask v).wm = s.wm ∧ (s.unmask v).slices = s.slices ∧
    (s.unmask v).chans = s.chans ∧ (s.unmask v).cached = s.cached ∧ (s.unmask v).table = s.table ∧ (s.unmask v).recs = s.recs
    ∧ (s.unmask v).vpA = s.vpA ∧ (s.unmask v).vpB = s.vpB ∧ (s.unmask v).ks = s.ks ∧ (s.unmask v).lanes = s.lanes ∧ (s.unmask
    v).mult = s.mult ∧ (s.unmask v).evr = s.evr ∧ (s.unmask v).cus = s.cus ∧ (s.unmask v).loops = s.loops ∧ (s.unmask v).tam
    = s.tam ∧ (s.unmask v).pow = s.pow ∧ (s.unmask v).drawn = s.drawn := by
  refine ⟨?_, ?_, ?_, ?_, ?_, ?_, ?_, ?_, ?_, ?_, ?_, ?_, ?_, ?_, ?_, ?_, ?_, ?_, ?_, ?_, ?_⟩ <;>
    (unfold State.unmask; (try dsimp only); (repeat' split) <;> simp)

@[simp] theorem State.requestSwap_frame (s : State) (n : Nat) : (s.requestSwap n).pending = s.pending ∧ (s.requestSwap n).ph
    = s.ph ∧ (s.requestSwap n).live = s.live ∧ (s.requestSwap n).wm = s.wm ∧ (s.requestSwap n).slices = s.slices ∧
    (s.requestSwap n).chans = s.chans ∧ (s.requestSwap n).cached = s.cached ∧ (s.requestSwap n).table = s.table ∧
    (s.requestSwap n).recs = s.recs ∧ (s.requestSwap n).vpA = s.vpA ∧ (s.requestSwap n).vpB = s.vpB ∧ (s.requestSwap n).ks =
    s.ks ∧ (s.requestSwap n).lanes = s.lanes ∧ (s.requestSwap n).mult = s.mult ∧ (s.requestSwap n).evr = s.evr ∧
    (s.requestSwap n).cus = s.cus ∧ (s.requestSwap n).loops = s.loops ∧ (s.requestSwap n).tam = s.tam ∧ (s.requestSwap n).pow
    = s.pow ∧ (s.requestSwap n).drawn = s.drawn ∧ (s.requestSwap n).out = s.out := by
  refine ⟨?_, ?_, ?_, ?_, ?_, ?_, ?_, ?_, ?_, ?_, ?_, ?_, ?_, ?_, ?_, ?_, ?_, ?_, ?_, ?_, ?_⟩ <;>
    (unfold State.requestSwap; (try dsimp only); (repeat' split) <;> simp)

@[simp] theorem State.writeDpmCtrl_frame (s : State) (n : Nat) (v : BitVec 64) : (s.writeDpmCtrl n v).pending = s.pending ∧
    (s.writeDpmCtrl n v).ph = s.ph ∧ (s.writeDpmCtrl n v).live = s.live ∧ (s.writeDpmCtrl n v).wm = s.wm ∧ (s.writeDpmCtrl n
    v).slices = s.slices ∧ (s.writeDpmCtrl n v).chans = s.chans ∧ (s.writeDpmCtrl n v).cached = s.cached ∧ (s.writeDpmCtrl n
    v).table = s.table ∧ (s.writeDpmCtrl n v).recs = s.recs ∧ (s.writeDpmCtrl n v).vpA = s.vpA ∧ (s.writeDpmCtrl n v).vpB =
    s.vpB ∧ (s.writeDpmCtrl n v).ks = s.ks ∧ (s.writeDpmCtrl n v).lanes = s.lanes ∧ (s.writeDpmCtrl n v).mult = s.mult ∧
    (s.writeDpmCtrl n v).evr = s.evr ∧ (s.writeDpmCtrl n v).cus = s.cus ∧ (s.writeDpmCtrl n v).loops = s.loops ∧
    (s.writeDpmCtrl n v).tam = s.tam ∧ (s.writeDpmCtrl n v).pow = s.pow ∧ (s.writeDpmCtrl n v).drawn = s.drawn ∧
    (s.writeDpmCtrl n v).out = s.out := by
  refine ⟨?_, ?_, ?_, ?_, ?_, ?_, ?_, ?_, ?_, ?_, ?_, ?_, ?_, ?_, ?_, ?_, ?_, ?_, ?_, ?_, ?_⟩ <;>
    (unfold State.writeDpmCtrl; (try dsimp only); (repeat' split) <;> simp)

@[simp] theorem State.sendPending_frame (s : State) : (s.sendPending).pending = s.pending ∧ (s.sendPending).ph = s.ph ∧
    (s.sendPending).ctxs = s.ctxs ∧ (s.sendPending).live = s.live ∧ (s.sendPending).wm = s.wm ∧ (s.sendPending).slices =
    s.slices ∧ (s.sendPending).chans = s.chans ∧ (s.sendPending).cached = s.cached ∧ (s.sendPending).table = s.table ∧
    (s.sendPending).recs = s.recs ∧ (s.sendPending).vpA = s.vpA ∧ (s.sendPending).vpB = s.vpB ∧ (s.sendPending).ks = s.ks ∧
    (s.sendPending).lanes = s.lanes ∧ (s.sendPending).mult = s.mult ∧ (s.sendPending).evr = s.evr ∧ (s.sendPending).cus =
    s.cus ∧ (s.sendPending).loops = s.loops ∧ (s.sendPending).tam = s.tam ∧ (s.sendPending).pow = s.pow ∧
    (s.sendPending).drawn = s.drawn := by
  refine ⟨?_, ?_, ?_, ?_, ?_, ?_, ?_, ?_, ?_, ?_, ?_, ?_, ?_, ?_, ?_, ?_, ?_, ?_, ?_, ?_, ?_⟩ <;>
    (unfold State.sendPending; (try dsimp only); (repeat' split) <;> simp)

@[simp] theorem State.laneRetired_frame (s : State) (i origin : Nat) : (s.laneRetired i origin).pending = s.pending ∧
    (s.laneRetired i origin).ph = s.ph ∧ (s.laneRetired i origin).ctxs = s.ctxs ∧ (s.laneRetired i origin).live = s.live ∧
    (s.laneRetired i origin).wm = s.wm ∧ (s.laneRetired i origin).slices = s.slices ∧ (s.laneRetired i origin).chans =
    s.chans ∧ (s.laneRetired i origin).cached = s.cached ∧ (s.laneRetired i origin).table = s.table ∧ (s.laneRetired i
    origin).recs = s.recs ∧ (s.laneRetired i origin).vpA = s.vpA ∧ (s.laneRetired i origin).vpB = s.vpB ∧ (s.laneRetired i
    origin).ks = s.ks ∧ (s.laneRetired i origin).mult = s.mult ∧ (s.laneRetired i origin).cus = s.cus ∧ (s.laneRetired i
    origin).loops = s.loops ∧ (s.laneRetired i origin).tam = s.tam ∧ (s.laneRetired i origin).pow = s.pow ∧ (s.laneRetired i
    origin).drawn = s.drawn := by
  refine ⟨?_, ?_, ?_, ?_, ?_, ?_, ?_, ?_, ?_, ?_, ?_, ?_, ?_, ?_, ?_, ?_, ?_, ?_, ?_⟩ <;>
    (unfold State.laneRetired; simp)

@[simp] theorem State.flushOne_frame (s : State) (written : Bool) : (s.flushOne written).pending = s.pending ∧ (s.flushOne
    written).ph = s.ph ∧ (s.flushOne written).ctxs = s.ctxs ∧ (s.flushOne written).live = s.live ∧ (s.flushOne written).hp =
    s.hp ∧ (s.flushOne written).wm = s.wm ∧ (s.flushOne written).slices = s.slices ∧ (s.flushOne written).chans = s.chans ∧
    (s.flushOne written).cached = s.cached ∧ (s.flushOne written).table = s.table ∧ (s.flushOne written).recs = s.recs ∧
    (s.flushOne written).vpA = s.vpA ∧ (s.flushOne written).vpB = s.vpB ∧ (s.flushOne written).ks = s.ks ∧ (s.flushOne
    written).lanes = s.lanes ∧ (s.flushOne written).mult = s.mult ∧ (s.flushOne written).cus = s.cus ∧ (s.flushOne
    written).loops = s.loops ∧ (s.flushOne written).tam = s.tam ∧ (s.flushOne written).pow = s.pow ∧ (s.flushOne
    written).drawn = s.drawn ∧ (s.flushOne written).out = s.out := by
  refine ⟨?_, ?_, ?_, ?_, ?_, ?_, ?_, ?_, ?_, ?_, ?_, ?_, ?_, ?_, ?_, ?_, ?_, ?_, ?_, ?_, ?_, ?_⟩ <;>
    (unfold State.flushOne; (repeat' split) <;> simp)

@[simp] theorem State.breakEntry_frame (s : State) (seq : Nat) (b : Bool) : (s.breakEntry seq b).pending = s.pending ∧
    (s.breakEntry seq b).ph = s.ph ∧ (s.breakEntry seq b).ctxs = s.ctxs ∧ (s.breakEntry seq b).live = s.live ∧ (s.breakEntry
    seq b).wm = s.wm ∧ (s.breakEntry seq b).slices = s.slices ∧ (s.breakEntry seq b).chans = s.chans ∧ (s.breakEntry seq
    b).cached = s.cached ∧ (s.breakEntry seq b).table = s.table ∧ (s.breakEntry seq b).recs = s.recs ∧ (s.breakEntry seq
    b).vpA = s.vpA ∧ (s.breakEntry seq b).vpB = s.vpB ∧ (s.breakEntry seq b).ks = s.ks ∧ (s.breakEntry seq b).lanes = s.lanes
    ∧ (s.breakEntry seq b).mult = s.mult ∧ (s.breakEntry seq b).cus = s.cus ∧ (s.breakEntry seq b).loops = s.loops ∧
    (s.breakEntry seq b).tam = s.tam ∧ (s.breakEntry seq b).pow = s.pow ∧ (s.breakEntry seq b).drawn = s.drawn := by
  refine ⟨?_, ?_, ?_, ?_, ?_, ?_, ?_, ?_, ?_, ?_, ?_, ?_, ?_, ?_, ?_, ?_, ?_, ?_, ?_, ?_⟩ <;>
    (unfold State.breakEntry; (try dsimp only); (repeat' split) <;> simp)

@[simp] theorem State.haltModule_frame (s : State) : (s.haltModule).pending = s.pending ∧ (s.haltModule).ph = s.ph ∧
    (s.haltModule).ctxs = s.ctxs ∧ (s.haltModule).live = s.live ∧ (s.haltModule).hp = s.hp ∧ (s.haltModule).wm = s.wm ∧
    (s.haltModule).slices = s.slices ∧ (s.haltModule).chans = s.chans ∧ (s.haltModule).cached = s.cached ∧
    (s.haltModule).table = s.table ∧ (s.haltModule).recs = s.recs ∧ (s.haltModule).vpA = s.vpA ∧ (s.haltModule).vpB = s.vpB ∧
    (s.haltModule).ks = s.ks ∧ (s.haltModule).lanes = s.lanes ∧ (s.haltModule).mult = s.mult ∧ (s.haltModule).evr = s.evr ∧
    (s.haltModule).cus = s.cus ∧ (s.haltModule).loops = s.loops ∧ (s.haltModule).tam = s.tam ∧ (s.haltModule).drawn = s.drawn
    ∧ (s.haltModule).out = s.out := by
  refine ⟨?_, ?_, ?_, ?_, ?_, ?_, ?_, ?_, ?_, ?_, ?_, ?_, ?_, ?_, ?_, ?_, ?_, ?_, ?_, ?_, ?_, ?_⟩ <;>
    (unfold State.haltModule; simp)

@[simp] theorem State.failPort_frame (s : State) (p : Port) : (s.failPort p).pending = s.pending ∧ (s.failPort p).ph = s.ph ∧
    (s.failPort p).ctxs = s.ctxs ∧ (s.failPort p).live = s.live ∧ (s.failPort p).wm = s.wm ∧ (s.failPort p).slices = s.slices
    ∧ (s.failPort p).chans = s.chans ∧ (s.failPort p).cached = s.cached ∧ (s.failPort p).table = s.table ∧ (s.failPort
    p).recs = s.recs ∧ (s.failPort p).ks = s.ks ∧ (s.failPort p).lanes = s.lanes ∧ (s.failPort p).mult = s.mult ∧ (s.failPort
    p).cus = s.cus ∧ (s.failPort p).loops = s.loops ∧ (s.failPort p).tam = s.tam ∧ (s.failPort p).drawn = s.drawn := by
  refine ⟨?_, ?_, ?_, ?_, ?_, ?_, ?_, ?_, ?_, ?_, ?_, ?_, ?_, ?_, ?_, ?_, ?_⟩ <;> (unfold State.failPort; simp)

@[simp] theorem State.loadEvent_frame (s : State) (origin : Nat) (b : List Byte) (detail : Nat) : (s.loadEvent origin b
    detail).pending = s.pending ∧ (s.loadEvent origin b detail).ph = s.ph ∧ (s.loadEvent origin b detail).ctxs = s.ctxs ∧
    (s.loadEvent origin b detail).live = s.live ∧ (s.loadEvent origin b detail).wm = s.wm ∧ (s.loadEvent origin b
    detail).slices = s.slices ∧ (s.loadEvent origin b detail).chans = s.chans ∧ (s.loadEvent origin b detail).cached =
    s.cached ∧ (s.loadEvent origin b detail).table = s.table ∧ (s.loadEvent origin b detail).recs = s.recs ∧ (s.loadEvent
    origin b detail).vpA = s.vpA ∧ (s.loadEvent origin b detail).vpB = s.vpB ∧ (s.loadEvent origin b detail).ks = s.ks ∧
    (s.loadEvent origin b detail).lanes = s.lanes ∧ (s.loadEvent origin b detail).mult = s.mult ∧ (s.loadEvent origin b
    detail).cus = s.cus ∧ (s.loadEvent origin b detail).loops = s.loops ∧ (s.loadEvent origin b detail).tam = s.tam ∧
    (s.loadEvent origin b detail).pow = s.pow ∧ (s.loadEvent origin b detail).drawn = s.drawn := by
  refine ⟨?_, ?_, ?_, ?_, ?_, ?_, ?_, ?_, ?_, ?_, ?_, ?_, ?_, ?_, ?_, ?_, ?_, ?_, ?_, ?_⟩ <;>
    (unfold State.loadEvent; simp)

@[simp] theorem State.dropOther_frame (s : State) : (s.dropOther).pending = s.pending ∧ (s.dropOther).ph = s.ph ∧
    (s.dropOther).ctxs = s.ctxs ∧ (s.dropOther).live = s.live ∧ (s.dropOther).hp = s.hp ∧ (s.dropOther).wm = s.wm ∧
    (s.dropOther).slices = s.slices ∧ (s.dropOther).chans = s.chans ∧ (s.dropOther).cached = s.cached ∧ (s.dropOther).table =
    s.table ∧ (s.dropOther).recs = s.recs ∧ (s.dropOther).vpA = s.vpA ∧ (s.dropOther).vpB = s.vpB ∧ (s.dropOther).ks = s.ks ∧
    (s.dropOther).lanes = s.lanes ∧ (s.dropOther).mult = s.mult ∧ (s.dropOther).evr = s.evr ∧ (s.dropOther).cus = s.cus ∧
    (s.dropOther).loops = s.loops ∧ (s.dropOther).tam = s.tam ∧ (s.dropOther).drawn = s.drawn ∧ (s.dropOther).out = s.out :=
    by
  refine ⟨?_, ?_, ?_, ?_, ?_, ?_, ?_, ?_, ?_, ?_, ?_, ?_, ?_, ?_, ?_, ?_, ?_, ?_, ?_, ?_, ?_, ?_⟩ <;>
    (unfold State.dropOther; simp)

@[simp] theorem State.takeImage_frame (s : State) (b : List Byte) : (s.takeImage b).pending = s.pending ∧ (s.takeImage b).ph
    = s.ph ∧ (s.takeImage b).ctxs = s.ctxs ∧ (s.takeImage b).live = s.live ∧ (s.takeImage b).hp = s.hp ∧ (s.takeImage b).wm =
    s.wm ∧ (s.takeImage b).slices = s.slices ∧ (s.takeImage b).chans = s.chans ∧ (s.takeImage b).cached = s.cached ∧
    (s.takeImage b).table = s.table ∧ (s.takeImage b).recs = s.recs ∧ (s.takeImage b).vpA = s.vpA ∧ (s.takeImage b).vpB =
    s.vpB ∧ (s.takeImage b).ks = s.ks ∧ (s.takeImage b).lanes = s.lanes ∧ (s.takeImage b).mult = s.mult ∧ (s.takeImage b).evr
    = s.evr ∧ (s.takeImage b).cus = s.cus ∧ (s.takeImage b).loops = s.loops ∧ (s.takeImage b).tam = s.tam ∧ (s.takeImage
    b).drawn = s.drawn ∧ (s.takeImage b).out = s.out := by
  refine ⟨?_, ?_, ?_, ?_, ?_, ?_, ?_, ?_, ?_, ?_, ?_, ?_, ?_, ?_, ?_, ?_, ?_, ?_, ?_, ?_, ?_, ?_⟩ <;>
    (unfold State.takeImage; simp)

@[simp] theorem State.domainEvent_frame (s : State) (origin d on : Nat) : (s.domainEvent origin d on).pending = s.pending ∧
    (s.domainEvent origin d on).ph = s.ph ∧ (s.domainEvent origin d on).ctxs = s.ctxs ∧ (s.domainEvent origin d on).wm = s.wm
    ∧ (s.domainEvent origin d on).slices = s.slices ∧ (s.domainEvent origin d on).chans = s.chans ∧ (s.domainEvent origin d
    on).cached = s.cached ∧ (s.domainEvent origin d on).table = s.table ∧ (s.domainEvent origin d on).recs = s.recs ∧
    (s.domainEvent origin d on).vpA = s.vpA ∧ (s.domainEvent origin d on).vpB = s.vpB ∧ (s.domainEvent origin d on).ks = s.ks
    ∧ (s.domainEvent origin d on).lanes = s.lanes ∧ (s.domainEvent origin d on).mult = s.mult ∧ (s.domainEvent origin d
    on).cus = s.cus ∧ (s.domainEvent origin d on).loops = s.loops ∧ (s.domainEvent origin d on).tam = s.tam ∧ (s.domainEvent
    origin d on).pow = s.pow ∧ (s.domainEvent origin d on).drawn = s.drawn := by
  refine ⟨?_, ?_, ?_, ?_, ?_, ?_, ?_, ?_, ?_, ?_, ?_, ?_, ?_, ?_, ?_, ?_, ?_, ?_, ?_⟩ <;>
    (unfold State.domainEvent; simp)

@[simp] theorem State.endSwitch_frame (s : State) (d : Nat) (on : Bool) : (s.endSwitch d on).pending = s.pending ∧
    (s.endSwitch d on).ph = s.ph ∧ (s.endSwitch d on).wm = s.wm ∧ (s.endSwitch d on).slices = s.slices ∧ (s.endSwitch d
    on).chans = s.chans ∧ (s.endSwitch d on).cached = s.cached ∧ (s.endSwitch d on).table = s.table ∧ (s.endSwitch d on).recs
    = s.recs ∧ (s.endSwitch d on).ks = s.ks ∧ (s.endSwitch d on).lanes = s.lanes ∧ (s.endSwitch d on).mult = s.mult ∧
    (s.endSwitch d on).cus = s.cus ∧ (s.endSwitch d on).loops = s.loops ∧ (s.endSwitch d on).tam = s.tam ∧ (s.endSwitch d
    on).pow = s.pow ∧ (s.endSwitch d on).drawn = s.drawn := by
  refine ⟨?_, ?_, ?_, ?_, ?_, ?_, ?_, ?_, ?_, ?_, ?_, ?_, ?_, ?_, ?_, ?_⟩ <;> (unfold State.endSwitch; simp)

@[simp] theorem State.offLoops_frame (s : State) (origin : Nat) : (s.offLoops origin).pending = s.pending ∧ (s.offLoops
    origin).ph = s.ph ∧ (s.offLoops origin).wm = s.wm ∧ (s.offLoops origin).slices = s.slices ∧ (s.offLoops origin).chans =
    s.chans ∧ (s.offLoops origin).cached = s.cached ∧ (s.offLoops origin).table = s.table ∧ (s.offLoops origin).recs = s.recs
    ∧ (s.offLoops origin).ks = s.ks ∧ (s.offLoops origin).lanes = s.lanes ∧ (s.offLoops origin).mult = s.mult ∧ (s.offLoops
    origin).cus = s.cus ∧ (s.offLoops origin).tam = s.tam ∧ (s.offLoops origin).drawn = s.drawn := by
  refine ⟨?_, ?_, ?_, ?_, ?_, ?_, ?_, ?_, ?_, ?_, ?_, ?_, ?_, ?_⟩ <;>
    (unfold State.offLoops; (repeat' split) <;> simp)

@[simp] theorem State.powerLane_frame (s : State) (d origin : Nat) (powered : Bool) : (s.powerLane d origin powered).pending
    = s.pending ∧ (s.powerLane d origin powered).ph = s.ph ∧ (s.powerLane d origin powered).wm = s.wm ∧ (s.powerLane d origin
    powered).slices = s.slices ∧ (s.powerLane d origin powered).chans = s.chans ∧ (s.powerLane d origin powered).cached =
    s.cached ∧ (s.powerLane d origin powered).table = s.table ∧ (s.powerLane d origin powered).recs = s.recs ∧ (s.powerLane d
    origin powered).ks = s.ks ∧ (s.powerLane d origin powered).mult = s.mult ∧ (s.powerLane d origin powered).cus = s.cus ∧
    (s.powerLane d origin powered).loops = s.loops ∧ (s.powerLane d origin powered).tam = s.tam ∧ (s.powerLane d origin
    powered).pow = s.pow ∧ (s.powerLane d origin powered).drawn = s.drawn := by
  refine ⟨?_, ?_, ?_, ?_, ?_, ?_, ?_, ?_, ?_, ?_, ?_, ?_, ?_, ?_, ?_⟩ <;>
    (unfold State.powerLane; (try dsimp only); (repeat' split) <;> simp)

@[simp] theorem State.powerLoops_frame (s : State) (origin : Nat) (powered : Bool) : (s.powerLoops origin powered).pending =
    s.pending ∧ (s.powerLoops origin powered).ph = s.ph ∧ (s.powerLoops origin powered).wm = s.wm ∧ (s.powerLoops origin
    powered).slices = s.slices ∧ (s.powerLoops origin powered).chans = s.chans ∧ (s.powerLoops origin powered).cached =
    s.cached ∧ (s.powerLoops origin powered).table = s.table ∧ (s.powerLoops origin powered).recs = s.recs ∧ (s.powerLoops
    origin powered).ks = s.ks ∧ (s.powerLoops origin powered).lanes = s.lanes ∧ (s.powerLoops origin powered).mult = s.mult ∧
    (s.powerLoops origin powered).cus = s.cus ∧ (s.powerLoops origin powered).tam = s.tam ∧ (s.powerLoops origin
    powered).drawn = s.drawn := by
  refine ⟨?_, ?_, ?_, ?_, ?_, ?_, ?_, ?_, ?_, ?_, ?_, ?_, ?_, ?_⟩ <;>
    (unfold State.powerLoops; (try dsimp only); (repeat' split) <;> simp)

@[simp] theorem State.writeRing_frame (s : State) (o : Owner) (off : Nat) (v : BitVec 64) : (s.writeRing o off v).pending =
    s.pending ∧ (s.writeRing o off v).ph = s.ph ∧ (s.writeRing o off v).live = s.live ∧ (s.writeRing o off v).hp = s.hp ∧
    (s.writeRing o off v).wm = s.wm ∧ (s.writeRing o off v).slices = s.slices ∧ (s.writeRing o off v).chans = s.chans ∧
    (s.writeRing o off v).cached = s.cached ∧ (s.writeRing o off v).table = s.table ∧ (s.writeRing o off v).recs = s.recs ∧
    (s.writeRing o off v).vpA = s.vpA ∧ (s.writeRing o off v).vpB = s.vpB ∧ (s.writeRing o off v).ks = s.ks ∧ (s.writeRing o
    off v).lanes = s.lanes ∧ (s.writeRing o off v).mult = s.mult ∧ (s.writeRing o off v).evr = s.evr ∧ (s.writeRing o off
    v).cus = s.cus ∧ (s.writeRing o off v).loops = s.loops ∧ (s.writeRing o off v).tam = s.tam ∧ (s.writeRing o off v).pow =
    s.pow ∧ (s.writeRing o off v).drawn = s.drawn ∧ (s.writeRing o off v).out = s.out := by
  refine ⟨?_, ?_, ?_, ?_, ?_, ?_, ?_, ?_, ?_, ?_, ?_, ?_, ?_, ?_, ?_, ?_, ?_, ?_, ?_, ?_, ?_, ?_⟩ <;>
    (unfold State.writeRing; (try dsimp only); (repeat' split) <;> simp)

@[simp] theorem State.writeDpm_frame (s : State) (n off : Nat) (v : BitVec 64) : (s.writeDpm n off v).pending = s.pending ∧
    (s.writeDpm n off v).ph = s.ph ∧ (s.writeDpm n off v).live = s.live ∧ (s.writeDpm n off v).wm = s.wm ∧ (s.writeDpm n off
    v).slices = s.slices ∧ (s.writeDpm n off v).chans = s.chans ∧ (s.writeDpm n off v).cached = s.cached ∧ (s.writeDpm n off
    v).table = s.table ∧ (s.writeDpm n off v).recs = s.recs ∧ (s.writeDpm n off v).vpA = s.vpA ∧ (s.writeDpm n off v).vpB =
    s.vpB ∧ (s.writeDpm n off v).ks = s.ks ∧ (s.writeDpm n off v).lanes = s.lanes ∧ (s.writeDpm n off v).mult = s.mult ∧
    (s.writeDpm n off v).evr = s.evr ∧ (s.writeDpm n off v).cus = s.cus ∧ (s.writeDpm n off v).loops = s.loops ∧ (s.writeDpm
    n off v).tam = s.tam ∧ (s.writeDpm n off v).pow = s.pow ∧ (s.writeDpm n off v).drawn = s.drawn ∧ (s.writeDpm n off v).out
    = s.out := by
  refine ⟨?_, ?_, ?_, ?_, ?_, ?_, ?_, ?_, ?_, ?_, ?_, ?_, ?_, ?_, ?_, ?_, ?_, ?_, ?_, ?_, ?_⟩ <;>
    (unfold State.writeDpm; (try dsimp only); (repeat' split) <;> simp)

@[simp] theorem State.writeMsix_frame (s : State) (off : Nat) (v : BitVec 64) : (s.writeMsix off v).pending = s.pending ∧
    (s.writeMsix off v).ph = s.ph ∧ (s.writeMsix off v).ctxs = s.ctxs ∧ (s.writeMsix off v).live = s.live ∧ (s.writeMsix off
    v).wm = s.wm ∧ (s.writeMsix off v).slices = s.slices ∧ (s.writeMsix off v).chans = s.chans ∧ (s.writeMsix off v).cached =
    s.cached ∧ (s.writeMsix off v).table = s.table ∧ (s.writeMsix off v).recs = s.recs ∧ (s.writeMsix off v).vpA = s.vpA ∧
    (s.writeMsix off v).vpB = s.vpB ∧ (s.writeMsix off v).ks = s.ks ∧ (s.writeMsix off v).lanes = s.lanes ∧ (s.writeMsix off
    v).mult = s.mult ∧ (s.writeMsix off v).evr = s.evr ∧ (s.writeMsix off v).cus = s.cus ∧ (s.writeMsix off v).loops =
    s.loops ∧ (s.writeMsix off v).tam = s.tam ∧ (s.writeMsix off v).pow = s.pow ∧ (s.writeMsix off v).drawn = s.drawn := by
  refine ⟨?_, ?_, ?_, ?_, ?_, ?_, ?_, ?_, ?_, ?_, ?_, ?_, ?_, ?_, ?_, ?_, ?_, ?_, ?_, ?_, ?_⟩ <;>
    (unfold State.writeMsix; (try dsimp only); (repeat' split) <;> simp)

@[simp] theorem State.write0_frame_a (s : State) (off : Nat) (v : BitVec 64) : (s.write0 off v).pending = s.pending ∧
    (s.write0 off v).ph = s.ph ∧ (s.write0 off v).live = s.live ∧ (s.write0 off v).wm = s.wm ∧ (s.write0 off v).slices =
    s.slices := by
  refine ⟨?_, ?_, ?_, ?_, ?_⟩ <;> (unfold State.write0; (try dsimp only); simp)

@[simp] theorem State.write0_frame_b (s : State) (off : Nat) (v : BitVec 64) : (s.write0 off v).chans = s.chans ∧ (s.write0
    off v).cached = s.cached ∧ (s.write0 off v).table = s.table ∧ (s.write0 off v).recs = s.recs ∧ (s.write0 off v).vpA =
    s.vpA := by
  refine ⟨?_, ?_, ?_, ?_, ?_⟩ <;> (unfold State.write0; (try dsimp only); simp)

@[simp] theorem State.write0_frame_c (s : State) (off : Nat) (v : BitVec 64) : (s.write0 off v).vpB = s.vpB ∧ (s.write0 off
    v).ks = s.ks ∧ (s.write0 off v).lanes = s.lanes ∧ (s.write0 off v).mult = s.mult ∧ (s.write0 off v).cus = s.cus := by
  refine ⟨?_, ?_, ?_, ?_, ?_⟩ <;> (unfold State.write0; (try dsimp only); simp)

@[simp] theorem State.write0_frame_d (s : State) (off : Nat) (v : BitVec 64) : (s.write0 off v).pow = s.pow ∧ (s.write0 off
    v).drawn = s.drawn := by
  refine ⟨?_, ?_⟩ <;> (unfold State.write0; (try dsimp only); simp)

@[simp] theorem State.writePage_frame (s : State) (n off : Nat) (v : BitVec 64) : (s.writePage n off v).pending = s.pending ∧
    (s.writePage n off v).ph = s.ph ∧ (s.writePage n off v).live = s.live ∧ (s.writePage n off v).hp = s.hp ∧ (s.writePage n
    off v).wm = s.wm ∧ (s.writePage n off v).slices = s.slices ∧ (s.writePage n off v).chans = s.chans ∧ (s.writePage n off
    v).cached = s.cached ∧ (s.writePage n off v).table = s.table ∧ (s.writePage n off v).recs = s.recs ∧ (s.writePage n off
    v).vpA = s.vpA ∧ (s.writePage n off v).vpB = s.vpB ∧ (s.writePage n off v).ks = s.ks ∧ (s.writePage n off v).lanes =
    s.lanes ∧ (s.writePage n off v).mult = s.mult ∧ (s.writePage n off v).evr = s.evr ∧ (s.writePage n off v).cus = s.cus ∧
    (s.writePage n off v).loops = s.loops ∧ (s.writePage n off v).tam = s.tam ∧ (s.writePage n off v).pow = s.pow ∧
    (s.writePage n off v).drawn = s.drawn ∧ (s.writePage n off v).out = s.out := by
  refine ⟨?_, ?_, ?_, ?_, ?_, ?_, ?_, ?_, ?_, ?_, ?_, ?_, ?_, ?_, ?_, ?_, ?_, ?_, ?_, ?_, ?_, ?_⟩ <;>
    (unfold State.writePage; (try dsimp only); (repeat' split) <;> simp)

@[simp] theorem State.misaccess_frame (s : State) (i : Nat) : (s.misaccess i).pending = s.pending ∧ (s.misaccess i).ph = s.ph
    ∧ (s.misaccess i).live = s.live ∧ (s.misaccess i).hp = s.hp ∧ (s.misaccess i).wm = s.wm ∧ (s.misaccess i).slices =
    s.slices ∧ (s.misaccess i).chans = s.chans ∧ (s.misaccess i).cached = s.cached ∧ (s.misaccess i).table = s.table ∧
    (s.misaccess i).recs = s.recs ∧ (s.misaccess i).vpA = s.vpA ∧ (s.misaccess i).vpB = s.vpB ∧ (s.misaccess i).ks = s.ks ∧
    (s.misaccess i).lanes = s.lanes ∧ (s.misaccess i).mult = s.mult ∧ (s.misaccess i).evr = s.evr ∧ (s.misaccess i).cus =
    s.cus ∧ (s.misaccess i).loops = s.loops ∧ (s.misaccess i).tam = s.tam ∧ (s.misaccess i).pow = s.pow ∧ (s.misaccess
    i).drawn = s.drawn ∧ (s.misaccess i).out = s.out := by
  refine ⟨?_, ?_, ?_, ?_, ?_, ?_, ?_, ?_, ?_, ?_, ?_, ?_, ?_, ?_, ?_, ?_, ?_, ?_, ?_, ?_, ?_, ?_⟩ <;>
    (unfold State.misaccess; simp)

@[simp] theorem State.write2_frame (s : State) (off size : Nat) (v : BitVec 64) : (s.write2 off size v).pending = s.pending ∧
    (s.write2 off size v).ph = s.ph ∧ (s.write2 off size v).live = s.live ∧ (s.write2 off size v).hp = s.hp ∧ (s.write2 off
    size v).wm = s.wm ∧ (s.write2 off size v).slices = s.slices ∧ (s.write2 off size v).chans = s.chans ∧ (s.write2 off size
    v).cached = s.cached ∧ (s.write2 off size v).table = s.table ∧ (s.write2 off size v).recs = s.recs ∧ (s.write2 off size
    v).vpA = s.vpA ∧ (s.write2 off size v).vpB = s.vpB ∧ (s.write2 off size v).ks = s.ks ∧ (s.write2 off size v).lanes =
    s.lanes ∧ (s.write2 off size v).mult = s.mult ∧ (s.write2 off size v).evr = s.evr ∧ (s.write2 off size v).cus = s.cus ∧
    (s.write2 off size v).loops = s.loops ∧ (s.write2 off size v).tam = s.tam ∧ (s.write2 off size v).pow = s.pow ∧ (s.write2
    off size v).drawn = s.drawn ∧ (s.write2 off size v).out = s.out := by
  refine ⟨?_, ?_, ?_, ?_, ?_, ?_, ?_, ?_, ?_, ?_, ?_, ?_, ?_, ?_, ?_, ?_, ?_, ?_, ?_, ?_, ?_, ?_⟩ <;>
    (unfold State.write2; (try dsimp only); (repeat' split) <;> simp)

@[simp] theorem State.activateEvent_frame (s : State) (old new : Nat) : (s.activateEvent old new).pending = s.pending ∧
    (s.activateEvent old new).ph = s.ph ∧ (s.activateEvent old new).ctxs = s.ctxs ∧ (s.activateEvent old new).live = s.live ∧
    (s.activateEvent old new).wm = s.wm ∧ (s.activateEvent old new).slices = s.slices ∧ (s.activateEvent old new).chans =
    s.chans ∧ (s.activateEvent old new).cached = s.cached ∧ (s.activateEvent old new).table = s.table ∧ (s.activateEvent old
    new).recs = s.recs ∧ (s.activateEvent old new).vpA = s.vpA ∧ (s.activateEvent old new).vpB = s.vpB ∧ (s.activateEvent old
    new).ks = s.ks ∧ (s.activateEvent old new).lanes = s.lanes ∧ (s.activateEvent old new).mult = s.mult ∧ (s.activateEvent
    old new).cus = s.cus ∧ (s.activateEvent old new).loops = s.loops ∧ (s.activateEvent old new).tam = s.tam ∧
    (s.activateEvent old new).pow = s.pow ∧ (s.activateEvent old new).drawn = s.drawn := by
  refine ⟨?_, ?_, ?_, ?_, ?_, ?_, ?_, ?_, ?_, ?_, ?_, ?_, ?_, ?_, ?_, ?_, ?_, ?_, ?_, ?_⟩ <;>
    (unfold State.activateEvent; simp)

@[simp] theorem State.dropPending_frame (s : State) : (s.dropPending).pending = s.pending ∧ (s.dropPending).ph = s.ph ∧
    (s.dropPending).ctxs = s.ctxs ∧ (s.dropPending).live = s.live ∧ (s.dropPending).wm = s.wm ∧ (s.dropPending).slices =
    s.slices ∧ (s.dropPending).chans = s.chans ∧ (s.dropPending).cached = s.cached ∧ (s.dropPending).table = s.table ∧
    (s.dropPending).recs = s.recs ∧ (s.dropPending).vpA = s.vpA ∧ (s.dropPending).vpB = s.vpB ∧ (s.dropPending).ks = s.ks ∧
    (s.dropPending).lanes = s.lanes ∧ (s.dropPending).mult = s.mult ∧ (s.dropPending).cus = s.cus ∧ (s.dropPending).loops =
    s.loops ∧ (s.dropPending).tam = s.tam ∧ (s.dropPending).drawn = s.drawn := by
  refine ⟨?_, ?_, ?_, ?_, ?_, ?_, ?_, ?_, ?_, ?_, ?_, ?_, ?_, ?_, ?_, ?_, ?_, ?_, ?_⟩ <;>
    (unfold State.dropPending; simp)

@[simp] theorem State.boot_frame_a (s : State) (bad : Nat) : (s.boot bad).pending = s.pending ∧ (s.boot bad).ph = s.ph ∧
    (s.boot bad).ctxs = s.ctxs ∧ (s.boot bad).live = s.live ∧ (s.boot bad).wm = s.wm := by
  refine ⟨?_, ?_, ?_, ?_, ?_⟩ <;> (unfold State.boot; (try dsimp only); (repeat' split) <;> simp)

@[simp] theorem State.boot_frame_b (s : State) (bad : Nat) : (s.boot bad).slices = s.slices ∧ (s.boot bad).chans = s.chans ∧
    (s.boot bad).cached = s.cached ∧ (s.boot bad).table = s.table ∧ (s.boot bad).recs = s.recs := by
  refine ⟨?_, ?_, ?_, ?_, ?_⟩ <;> (unfold State.boot; (try dsimp only); (repeat' split) <;> simp)

@[simp] theorem State.boot_frame_c (s : State) (bad : Nat) : (s.boot bad).vpA = s.vpA ∧ (s.boot bad).vpB = s.vpB ∧ (s.boot
    bad).ks = s.ks ∧ (s.boot bad).lanes = s.lanes ∧ (s.boot bad).mult = s.mult := by
  refine ⟨?_, ?_, ?_, ?_, ?_⟩ <;> (unfold State.boot; (try dsimp only); (repeat' split) <;> simp)

@[simp] theorem State.boot_frame_d (s : State) (bad : Nat) : (s.boot bad).cus = s.cus ∧ (s.boot bad).loops = s.loops ∧
    (s.boot bad).tam = s.tam ∧ (s.boot bad).drawn = s.drawn := by
  refine ⟨?_, ?_, ?_, ?_⟩ <;> (unfold State.boot; (try dsimp only); (repeat' split) <;> simp)

@[simp] theorem State.dropHost_frame (s : State) : (s.dropHost).pending = s.pending ∧ (s.dropHost).ph = s.ph ∧
    (s.dropHost).ctxs = s.ctxs ∧ (s.dropHost).hp = s.hp ∧ (s.dropHost).wm = s.wm ∧ (s.dropHost).slices = s.slices ∧
    (s.dropHost).chans = s.chans ∧ (s.dropHost).cached = s.cached ∧ (s.dropHost).table = s.table ∧ (s.dropHost).recs = s.recs
    ∧ (s.dropHost).vpA = s.vpA ∧ (s.dropHost).vpB = s.vpB ∧ (s.dropHost).ks = s.ks ∧ (s.dropHost).lanes = s.lanes ∧
    (s.dropHost).mult = s.mult ∧ (s.dropHost).evr = s.evr ∧ (s.dropHost).loops = s.loops ∧ (s.dropHost).tam = s.tam ∧
    (s.dropHost).pow = s.pow ∧ (s.dropHost).drawn = s.drawn := by
  refine ⟨?_, ?_, ?_, ?_, ?_, ?_, ?_, ?_, ?_, ?_, ?_, ?_, ?_, ?_, ?_, ?_, ?_, ?_, ?_, ?_⟩ <;>
    (unfold State.dropHost; (try dsimp only); (repeat' split) <;> simp)

@[simp] theorem State.overflowNow_frame (s : State) : (s.overflowNow).pending = s.pending ∧ (s.overflowNow).ph = s.ph ∧
    (s.overflowNow).ctxs = s.ctxs ∧ (s.overflowNow).live = s.live ∧ (s.overflowNow).wm = s.wm ∧ (s.overflowNow).slices =
    s.slices ∧ (s.overflowNow).chans = s.chans ∧ (s.overflowNow).cached = s.cached ∧ (s.overflowNow).table = s.table ∧
    (s.overflowNow).recs = s.recs ∧ (s.overflowNow).vpA = s.vpA ∧ (s.overflowNow).vpB = s.vpB ∧ (s.overflowNow).ks = s.ks ∧
    (s.overflowNow).lanes = s.lanes ∧ (s.overflowNow).mult = s.mult ∧ (s.overflowNow).cus = s.cus ∧ (s.overflowNow).loops =
    s.loops ∧ (s.overflowNow).tam = s.tam ∧ (s.overflowNow).pow = s.pow ∧ (s.overflowNow).drawn = s.drawn := by
  refine ⟨?_, ?_, ?_, ?_, ?_, ?_, ?_, ?_, ?_, ?_, ?_, ?_, ?_, ?_, ?_, ?_, ?_, ?_, ?_, ?_⟩ <;>
    (unfold State.overflowNow; (repeat' split) <;> simp)

@[simp] theorem State.tearRecord_frame (s : State) (k : Nat) (copyB : Bool) : (s.tearRecord k copyB).pending = s.pending ∧
    (s.tearRecord k copyB).ph = s.ph ∧ (s.tearRecord k copyB).ctxs = s.ctxs ∧ (s.tearRecord k copyB).live = s.live ∧
    (s.tearRecord k copyB).hp = s.hp ∧ (s.tearRecord k copyB).wm = s.wm ∧ (s.tearRecord k copyB).slices = s.slices ∧
    (s.tearRecord k copyB).chans = s.chans ∧ (s.tearRecord k copyB).cached = s.cached ∧ (s.tearRecord k copyB).table =
    s.table ∧ (s.tearRecord k copyB).recs = s.recs ∧ (s.tearRecord k copyB).vpA = s.vpA ∧ (s.tearRecord k copyB).vpB = s.vpB
    ∧ (s.tearRecord k copyB).lanes = s.lanes ∧ (s.tearRecord k copyB).mult = s.mult ∧ (s.tearRecord k copyB).evr = s.evr ∧
    (s.tearRecord k copyB).cus = s.cus ∧ (s.tearRecord k copyB).loops = s.loops ∧ (s.tearRecord k copyB).tam = s.tam ∧
    (s.tearRecord k copyB).pow = s.pow ∧ (s.tearRecord k copyB).drawn = s.drawn ∧ (s.tearRecord k copyB).out = s.out := by
  refine ⟨?_, ?_, ?_, ?_, ?_, ?_, ?_, ?_, ?_, ?_, ?_, ?_, ?_, ?_, ?_, ?_, ?_, ?_, ?_, ?_, ?_, ?_⟩ <;>
    (unfold State.tearRecord; (try dsimp only); (repeat' split) <;> simp)

@[simp] theorem State.startPhase_frame (s : State) (lost : Bool) : (s.startPhase lost).pending = s.pending ∧ (s.startPhase
    lost).ctxs = s.ctxs ∧ (s.startPhase lost).live = s.live ∧ (s.startPhase lost).wm = s.wm ∧ (s.startPhase lost).slices =
    s.slices ∧ (s.startPhase lost).chans = s.chans ∧ (s.startPhase lost).cached = s.cached ∧ (s.startPhase lost).table =
    s.table ∧ (s.startPhase lost).recs = s.recs ∧ (s.startPhase lost).vpA = s.vpA ∧ (s.startPhase lost).vpB = s.vpB ∧
    (s.startPhase lost).ks = s.ks ∧ (s.startPhase lost).lanes = s.lanes ∧ (s.startPhase lost).mult = s.mult ∧ (s.startPhase
    lost).cus = s.cus ∧ (s.startPhase lost).loops = s.loops ∧ (s.startPhase lost).tam = s.tam ∧ (s.startPhase lost).pow =
    s.pow ∧ (s.startPhase lost).drawn = s.drawn := by
  refine ⟨?_, ?_, ?_, ?_, ?_, ?_, ?_, ?_, ?_, ?_, ?_, ?_, ?_, ?_, ?_, ?_, ?_, ?_, ?_⟩ <;>
    (unfold State.startPhase; (try dsimp only); (repeat' split) <;> simp)

@[simp] theorem State.startEpochs_frame (s : State) : (s.startEpochs).pending = s.pending ∧ (s.startEpochs).live = s.live ∧
    (s.startEpochs).hp = s.hp ∧ (s.startEpochs).wm = s.wm ∧ (s.startEpochs).slices = s.slices ∧ (s.startEpochs).chans =
    s.chans ∧ (s.startEpochs).cached = s.cached ∧ (s.startEpochs).table = s.table ∧ (s.startEpochs).recs = s.recs ∧
    (s.startEpochs).vpA = s.vpA ∧ (s.startEpochs).vpB = s.vpB ∧ (s.startEpochs).ks = s.ks ∧ (s.startEpochs).lanes = s.lanes ∧
    (s.startEpochs).mult = s.mult ∧ (s.startEpochs).evr = s.evr ∧ (s.startEpochs).cus = s.cus ∧ (s.startEpochs).loops =
    s.loops ∧ (s.startEpochs).tam = s.tam ∧ (s.startEpochs).out = s.out := by
  refine ⟨?_, ?_, ?_, ?_, ?_, ?_, ?_, ?_, ?_, ?_, ?_, ?_, ?_, ?_, ?_, ?_, ?_, ?_, ?_⟩ <;>
    (unfold State.startEpochs; (try dsimp only); (repeat' split) <;> simp)

@[simp] theorem State.loseSeq_frame (s : State) (i : Nat) : (s.loseSeq i).pending = s.pending ∧ (s.loseSeq i).ph = s.ph ∧
    (s.loseSeq i).ctxs = s.ctxs ∧ (s.loseSeq i).live = s.live ∧ (s.loseSeq i).hp = s.hp ∧ (s.loseSeq i).wm = s.wm ∧
    (s.loseSeq i).slices = s.slices ∧ (s.loseSeq i).cached = s.cached ∧ (s.loseSeq i).table = s.table ∧ (s.loseSeq i).recs =
    s.recs ∧ (s.loseSeq i).vpA = s.vpA ∧ (s.loseSeq i).vpB = s.vpB ∧ (s.loseSeq i).ks = s.ks ∧ (s.loseSeq i).lanes = s.lanes
    ∧ (s.loseSeq i).mult = s.mult ∧ (s.loseSeq i).evr = s.evr ∧ (s.loseSeq i).cus = s.cus ∧ (s.loseSeq i).loops = s.loops ∧
    (s.loseSeq i).tam = s.tam ∧ (s.loseSeq i).pow = s.pow ∧ (s.loseSeq i).drawn = s.drawn ∧ (s.loseSeq i).out = s.out := by
  refine ⟨?_, ?_, ?_, ?_, ?_, ?_, ?_, ?_, ?_, ?_, ?_, ?_, ?_, ?_, ?_, ?_, ?_, ?_, ?_, ?_, ?_, ?_⟩ <;>
    (unfold State.loseSeq; simp)

@[simp] theorem State.loseBackup_frame (s : State) : (s.loseBackup).pending = s.pending ∧ (s.loseBackup).drawn = s.drawn :=
    by
  refine ⟨?_, ?_⟩ <;> (unfold State.loseBackup; (try dsimp only); (repeat' split) <;> simp)

@[simp] theorem State.flushAll_frame (s : State) : (s.flushAll).pending = s.pending ∧ (s.flushAll).ph = s.ph ∧
    (s.flushAll).ctxs = s.ctxs ∧ (s.flushAll).live = s.live ∧ (s.flushAll).hp = s.hp ∧ (s.flushAll).wm = s.wm ∧
    (s.flushAll).slices = s.slices ∧ (s.flushAll).chans = s.chans ∧ (s.flushAll).cached = s.cached ∧ (s.flushAll).table =
    s.table ∧ (s.flushAll).recs = s.recs ∧ (s.flushAll).vpA = s.vpA ∧ (s.flushAll).vpB = s.vpB ∧ (s.flushAll).ks = s.ks ∧
    (s.flushAll).lanes = s.lanes ∧ (s.flushAll).mult = s.mult ∧ (s.flushAll).cus = s.cus ∧ (s.flushAll).loops = s.loops ∧
    (s.flushAll).tam = s.tam ∧ (s.flushAll).pow = s.pow ∧ (s.flushAll).drawn = s.drawn ∧ (s.flushAll).out = s.out := by
  refine ⟨?_, ?_, ?_, ?_, ?_, ?_, ?_, ?_, ?_, ?_, ?_, ?_, ?_, ?_, ?_, ?_, ?_, ?_, ?_, ?_, ?_, ?_⟩ <;>
    (unfold State.flushAll; simp)

@[simp] theorem State.startKeys_frame (s : State) : (s.startKeys).pending = s.pending ∧ (s.startKeys).ph = s.ph ∧
    (s.startKeys).ctxs = s.ctxs ∧ (s.startKeys).live = s.live ∧ (s.startKeys).hp = s.hp ∧ (s.startKeys).wm = s.wm ∧
    (s.startKeys).slices = s.slices ∧ (s.startKeys).chans = s.chans ∧ (s.startKeys).cached = s.cached ∧ (s.startKeys).table =
    s.table ∧ (s.startKeys).recs = s.recs ∧ (s.startKeys).vpA = s.vpA ∧ (s.startKeys).vpB = s.vpB ∧ (s.startKeys).lanes =
    s.lanes ∧ (s.startKeys).mult = s.mult ∧ (s.startKeys).evr = s.evr ∧ (s.startKeys).cus = s.cus ∧ (s.startKeys).loops =
    s.loops ∧ (s.startKeys).tam = s.tam ∧ (s.startKeys).pow = s.pow ∧ (s.startKeys).drawn = s.drawn ∧ (s.startKeys).out =
    s.out := by
  refine ⟨?_, ?_, ?_, ?_, ?_, ?_, ?_, ?_, ?_, ?_, ?_, ?_, ?_, ?_, ?_, ?_, ?_, ?_, ?_, ?_, ?_, ?_⟩ <;>
    (unfold State.startKeys; simp)

@[simp] theorem State.startLanes_frame (s : State) : (s.startLanes).pending = s.pending ∧ (s.startLanes).ph = s.ph ∧
    (s.startLanes).ctxs = s.ctxs ∧ (s.startLanes).live = s.live ∧ (s.startLanes).hp = s.hp ∧ (s.startLanes).wm = s.wm ∧
    (s.startLanes).slices = s.slices ∧ (s.startLanes).chans = s.chans ∧ (s.startLanes).cached = s.cached ∧
    (s.startLanes).table = s.table ∧ (s.startLanes).recs = s.recs ∧ (s.startLanes).vpA = s.vpA ∧ (s.startLanes).vpB = s.vpB ∧
    (s.startLanes).ks = s.ks ∧ (s.startLanes).evr = s.evr ∧ (s.startLanes).cus = s.cus ∧ (s.startLanes).loops = s.loops ∧
    (s.startLanes).tam = s.tam ∧ (s.startLanes).pow = s.pow ∧ (s.startLanes).drawn = s.drawn ∧ (s.startLanes).out = s.out :=
    by
  refine ⟨?_, ?_, ?_, ?_, ?_, ?_, ?_, ?_, ?_, ?_, ?_, ?_, ?_, ?_, ?_, ?_, ?_, ?_, ?_, ?_, ?_⟩ <;>
    (unfold State.startLanes; simp)

@[simp] theorem State.resample_frame (s : State) (sources : List Nat) : (s.resample sources).pending = s.pending ∧
    (s.resample sources).ph = s.ph ∧ (s.resample sources).ctxs = s.ctxs ∧ (s.resample sources).live = s.live ∧ (s.resample
    sources).hp = s.hp ∧ (s.resample sources).wm = s.wm ∧ (s.resample sources).slices = s.slices ∧ (s.resample sources).chans
    = s.chans ∧ (s.resample sources).cached = s.cached ∧ (s.resample sources).table = s.table ∧ (s.resample sources).recs =
    s.recs ∧ (s.resample sources).vpA = s.vpA ∧ (s.resample sources).vpB = s.vpB ∧ (s.resample sources).ks = s.ks ∧
    (s.resample sources).lanes = s.lanes ∧ (s.resample sources).mult = s.mult ∧ (s.resample sources).evr = s.evr ∧
    (s.resample sources).cus = s.cus ∧ (s.resample sources).loops = s.loops ∧ (s.resample sources).pow = s.pow ∧ (s.resample
    sources).drawn = s.drawn ∧ (s.resample sources).out = s.out := by
  refine ⟨?_, ?_, ?_, ?_, ?_, ?_, ?_, ?_, ?_, ?_, ?_, ?_, ?_, ?_, ?_, ?_, ?_, ?_, ?_, ?_, ?_, ?_⟩ <;>
    (unfold State.resample; simp)

@[simp] theorem State.applyDecom_frame (s : State) : (s.applyDecom).pending = s.pending ∧ (s.applyDecom).ctxs = s.ctxs ∧
    (s.applyDecom).live = s.live ∧ (s.applyDecom).hp = s.hp ∧ (s.applyDecom).chans = s.chans ∧ (s.applyDecom).cached =
    s.cached ∧ (s.applyDecom).table = s.table ∧ (s.applyDecom).lanes = s.lanes ∧ (s.applyDecom).mult = s.mult ∧
    (s.applyDecom).cus = s.cus ∧ (s.applyDecom).pow = s.pow ∧ (s.applyDecom).drawn = s.drawn ∧ (s.applyDecom).out = s.out :=
    by
  refine ⟨?_, ?_, ?_, ?_, ?_, ?_, ?_, ?_, ?_, ?_, ?_, ?_, ?_⟩ <;>
    (unfold State.applyDecom; (repeat' split) <;> simp)

@[simp] theorem State.recordQueued_frame (s : State) (q : Queued) : (s.recordQueued q).pending = s.pending ∧ (s.recordQueued
    q).ph = s.ph ∧ (s.recordQueued q).ctxs = s.ctxs ∧ (s.recordQueued q).live = s.live ∧ (s.recordQueued q).wm = s.wm ∧
    (s.recordQueued q).slices = s.slices ∧ (s.recordQueued q).chans = s.chans ∧ (s.recordQueued q).cached = s.cached ∧
    (s.recordQueued q).table = s.table ∧ (s.recordQueued q).recs = s.recs ∧ (s.recordQueued q).vpA = s.vpA ∧ (s.recordQueued
    q).vpB = s.vpB ∧ (s.recordQueued q).ks = s.ks ∧ (s.recordQueued q).lanes = s.lanes ∧ (s.recordQueued q).mult = s.mult ∧
    (s.recordQueued q).cus = s.cus ∧ (s.recordQueued q).loops = s.loops ∧ (s.recordQueued q).tam = s.tam ∧ (s.recordQueued
    q).pow = s.pow ∧ (s.recordQueued q).drawn = s.drawn := by
  refine ⟨?_, ?_, ?_, ?_, ?_, ?_, ?_, ?_, ?_, ?_, ?_, ?_, ?_, ?_, ?_, ?_, ?_, ?_, ?_, ?_⟩ <;>
    (unfold State.recordQueued; simp)

@[simp] theorem State.recordHeld_frame (s : State) : (s.recordHeld).pending = s.pending ∧ (s.recordHeld).ph = s.ph ∧
    (s.recordHeld).ctxs = s.ctxs ∧ (s.recordHeld).live = s.live ∧ (s.recordHeld).wm = s.wm ∧ (s.recordHeld).slices = s.slices
    ∧ (s.recordHeld).chans = s.chans ∧ (s.recordHeld).cached = s.cached ∧ (s.recordHeld).table = s.table ∧
    (s.recordHeld).recs = s.recs ∧ (s.recordHeld).vpA = s.vpA ∧ (s.recordHeld).vpB = s.vpB ∧ (s.recordHeld).ks = s.ks ∧
    (s.recordHeld).lanes = s.lanes ∧ (s.recordHeld).mult = s.mult ∧ (s.recordHeld).cus = s.cus ∧ (s.recordHeld).loops =
    s.loops ∧ (s.recordHeld).tam = s.tam ∧ (s.recordHeld).pow = s.pow ∧ (s.recordHeld).drawn = s.drawn := by
  refine ⟨?_, ?_, ?_, ?_, ?_, ?_, ?_, ?_, ?_, ?_, ?_, ?_, ?_, ?_, ?_, ?_, ?_, ?_, ?_, ?_⟩ <;>
    (unfold State.recordHeld; simp)

@[simp] theorem State.activateFw_frame (s : State) : (s.activateFw).pending = s.pending ∧ (s.activateFw).ph = s.ph ∧
    (s.activateFw).ctxs = s.ctxs ∧ (s.activateFw).live = s.live ∧ (s.activateFw).wm = s.wm ∧ (s.activateFw).slices = s.slices
    ∧ (s.activateFw).chans = s.chans ∧ (s.activateFw).cached = s.cached ∧ (s.activateFw).table = s.table ∧
    (s.activateFw).recs = s.recs ∧ (s.activateFw).vpA = s.vpA ∧ (s.activateFw).vpB = s.vpB ∧ (s.activateFw).ks = s.ks ∧
    (s.activateFw).lanes = s.lanes ∧ (s.activateFw).mult = s.mult ∧ (s.activateFw).cus = s.cus ∧ (s.activateFw).loops =
    s.loops ∧ (s.activateFw).tam = s.tam ∧ (s.activateFw).drawn = s.drawn := by
  refine ⟨?_, ?_, ?_, ?_, ?_, ?_, ?_, ?_, ?_, ?_, ?_, ?_, ?_, ?_, ?_, ?_, ?_, ?_, ?_⟩ <;>
    (unfold State.activateFw; (try dsimp only); (repeat' split) <;> simp)

@[simp] theorem State.closeSession_frame (s : State) (p : Port) : (s.closeSession p).pending = s.pending ∧ (s.closeSession
    p).ph = s.ph ∧ (s.closeSession p).ctxs = s.ctxs ∧ (s.closeSession p).hp = s.hp ∧ (s.closeSession p).wm = s.wm ∧
    (s.closeSession p).slices = s.slices ∧ (s.closeSession p).chans = s.chans ∧ (s.closeSession p).cached = s.cached ∧
    (s.closeSession p).table = s.table ∧ (s.closeSession p).recs = s.recs ∧ (s.closeSession p).ks = s.ks ∧ (s.closeSession
    p).lanes = s.lanes ∧ (s.closeSession p).mult = s.mult ∧ (s.closeSession p).evr = s.evr ∧ (s.closeSession p).cus = s.cus ∧
    (s.closeSession p).loops = s.loops ∧ (s.closeSession p).tam = s.tam ∧ (s.closeSession p).pow = s.pow ∧ (s.closeSession
    p).drawn = s.drawn ∧ (s.closeSession p).out = s.out := by
  refine ⟨?_, ?_, ?_, ?_, ?_, ?_, ?_, ?_, ?_, ?_, ?_, ?_, ?_, ?_, ?_, ?_, ?_, ?_, ?_, ?_⟩ <;>
    (unfold State.closeSession; simp)

@[simp] theorem State.poll_frame (s : State) (p : Port) (slot index alive : Nat) : (s.poll p slot index alive).pending =
    s.pending ∧ (s.poll p slot index alive).ph = s.ph ∧ (s.poll p slot index alive).ctxs = s.ctxs ∧ (s.poll p slot index
    alive).live = s.live ∧ (s.poll p slot index alive).hp = s.hp ∧ (s.poll p slot index alive).wm = s.wm ∧ (s.poll p slot
    index alive).slices = s.slices ∧ (s.poll p slot index alive).chans = s.chans ∧ (s.poll p slot index alive).cached =
    s.cached ∧ (s.poll p slot index alive).table = s.table ∧ (s.poll p slot index alive).recs = s.recs ∧ (s.poll p slot index
    alive).ks = s.ks ∧ (s.poll p slot index alive).lanes = s.lanes ∧ (s.poll p slot index alive).mult = s.mult ∧ (s.poll p
    slot index alive).evr = s.evr ∧ (s.poll p slot index alive).cus = s.cus ∧ (s.poll p slot index alive).loops = s.loops ∧
    (s.poll p slot index alive).tam = s.tam ∧ (s.poll p slot index alive).pow = s.pow ∧ (s.poll p slot index alive).drawn =
    s.drawn ∧ (s.poll p slot index alive).out = s.out := by
  refine ⟨?_, ?_, ?_, ?_, ?_, ?_, ?_, ?_, ?_, ?_, ?_, ?_, ?_, ?_, ?_, ?_, ?_, ?_, ?_, ?_, ?_⟩ <;>
    (unfold State.poll; (try dsimp only); (repeat' split) <;> simp)

@[simp] theorem State.serveIdle_frame (s : State) (p : Port) (f : Frame) : (s.serveIdle p f).pending = s.pending ∧
    (s.serveIdle p f).ph = s.ph ∧ (s.serveIdle p f).ctxs = s.ctxs ∧ (s.serveIdle p f).live = s.live ∧ (s.serveIdle p f).hp =
    s.hp ∧ (s.serveIdle p f).wm = s.wm ∧ (s.serveIdle p f).slices = s.slices ∧ (s.serveIdle p f).chans = s.chans ∧
    (s.serveIdle p f).cached = s.cached ∧ (s.serveIdle p f).table = s.table ∧ (s.serveIdle p f).recs = s.recs ∧ (s.serveIdle
    p f).ks = s.ks ∧ (s.serveIdle p f).lanes = s.lanes ∧ (s.serveIdle p f).mult = s.mult ∧ (s.serveIdle p f).evr = s.evr ∧
    (s.serveIdle p f).cus = s.cus ∧ (s.serveIdle p f).loops = s.loops ∧ (s.serveIdle p f).tam = s.tam ∧ (s.serveIdle p f).pow
    = s.pow ∧ (s.serveIdle p f).drawn = s.drawn ∧ (s.serveIdle p f).out = s.out := by
  refine ⟨?_, ?_, ?_, ?_, ?_, ?_, ?_, ?_, ?_, ?_, ?_, ?_, ?_, ?_, ?_, ?_, ?_, ?_, ?_, ?_, ?_⟩ <;>
    (unfold State.serveIdle; (try dsimp only); (repeat' split) <;> simp)

@[simp] theorem State.serveFetch_frame (s : State) (p : Port) (f : Frame) : (s.serveFetch p f).pending = s.pending ∧
    (s.serveFetch p f).ph = s.ph ∧ (s.serveFetch p f).ctxs = s.ctxs ∧ (s.serveFetch p f).live = s.live ∧ (s.serveFetch p
    f).hp = s.hp ∧ (s.serveFetch p f).wm = s.wm ∧ (s.serveFetch p f).slices = s.slices ∧ (s.serveFetch p f).chans = s.chans ∧
    (s.serveFetch p f).cached = s.cached ∧ (s.serveFetch p f).table = s.table ∧ (s.serveFetch p f).recs = s.recs ∧
    (s.serveFetch p f).ks = s.ks ∧ (s.serveFetch p f).lanes = s.lanes ∧ (s.serveFetch p f).mult = s.mult ∧ (s.serveFetch p
    f).evr = s.evr ∧ (s.serveFetch p f).cus = s.cus ∧ (s.serveFetch p f).loops = s.loops ∧ (s.serveFetch p f).tam = s.tam ∧
    (s.serveFetch p f).pow = s.pow ∧ (s.serveFetch p f).drawn = s.drawn ∧ (s.serveFetch p f).out = s.out := by
  refine ⟨?_, ?_, ?_, ?_, ?_, ?_, ?_, ?_, ?_, ?_, ?_, ?_, ?_, ?_, ?_, ?_, ?_, ?_, ?_, ?_, ?_⟩ <;>
    (unfold State.serveFetch; (try dsimp only); (repeat' split) <;> simp)

@[simp] theorem State.counted_frame (s : State) (k : Nat) (key : Key) (alg op : Nat) : (s.counted k key alg op).pending =
    s.pending ∧ (s.counted k key alg op).ph = s.ph ∧ (s.counted k key alg op).ctxs = s.ctxs ∧ (s.counted k key alg op).live =
    s.live ∧ (s.counted k key alg op).hp = s.hp ∧ (s.counted k key alg op).wm = s.wm ∧ (s.counted k key alg op).slices =
    s.slices ∧ (s.counted k key alg op).chans = s.chans ∧ (s.counted k key alg op).cached = s.cached ∧ (s.counted k key alg
    op).table = s.table ∧ (s.counted k key alg op).recs = s.recs ∧ (s.counted k key alg op).vpA = s.vpA ∧ (s.counted k key
    alg op).vpB = s.vpB ∧ (s.counted k key alg op).lanes = s.lanes ∧ (s.counted k key alg op).mult = s.mult ∧ (s.counted k
    key alg op).evr = s.evr ∧ (s.counted k key alg op).cus = s.cus ∧ (s.counted k key alg op).loops = s.loops ∧ (s.counted k
    key alg op).tam = s.tam ∧ (s.counted k key alg op).pow = s.pow ∧ (s.counted k key alg op).drawn = s.drawn ∧ (s.counted k
    key alg op).out = s.out := by
  refine ⟨?_, ?_, ?_, ?_, ?_, ?_, ?_, ?_, ?_, ?_, ?_, ?_, ?_, ?_, ?_, ?_, ?_, ?_, ?_, ?_, ?_, ?_⟩ <;>
    (unfold State.counted; (try dsimp only); (repeat' split) <;> simp)

@[simp] theorem State.setJob_frame (s : State) (l : Live) (j : Job) : (s.setJob l j).pending = s.pending ∧ (s.setJob l j).ph
    = s.ph ∧ (s.setJob l j).ctxs = s.ctxs ∧ (s.setJob l j).hp = s.hp ∧ (s.setJob l j).wm = s.wm ∧ (s.setJob l j).slices =
    s.slices ∧ (s.setJob l j).chans = s.chans ∧ (s.setJob l j).cached = s.cached ∧ (s.setJob l j).table = s.table ∧ (s.setJob
    l j).recs = s.recs ∧ (s.setJob l j).vpA = s.vpA ∧ (s.setJob l j).vpB = s.vpB ∧ (s.setJob l j).ks = s.ks ∧ (s.setJob l
    j).lanes = s.lanes ∧ (s.setJob l j).mult = s.mult ∧ (s.setJob l j).evr = s.evr ∧ (s.setJob l j).cus = s.cus ∧ (s.setJob l
    j).loops = s.loops ∧ (s.setJob l j).tam = s.tam ∧ (s.setJob l j).pow = s.pow ∧ (s.setJob l j).drawn = s.drawn ∧ (s.setJob
    l j).out = s.out := by
  refine ⟨?_, ?_, ?_, ?_, ?_, ?_, ?_, ?_, ?_, ?_, ?_, ?_, ?_, ?_, ?_, ?_, ?_, ?_, ?_, ?_, ?_, ?_⟩ <;> rfl

@[simp] theorem State.putBack_frame (s : State) (at' : Nat) (l : Live) : (s.putBack at' l).pending = s.pending ∧ (s.putBack
    at' l).ph = s.ph ∧ (s.putBack at' l).ctxs = s.ctxs ∧ (s.putBack at' l).hp = s.hp ∧ (s.putBack at' l).wm = s.wm ∧
    (s.putBack at' l).slices = s.slices ∧ (s.putBack at' l).chans = s.chans ∧ (s.putBack at' l).cached = s.cached ∧
    (s.putBack at' l).table = s.table ∧ (s.putBack at' l).recs = s.recs ∧ (s.putBack at' l).vpA = s.vpA ∧ (s.putBack at'
    l).vpB = s.vpB ∧ (s.putBack at' l).ks = s.ks ∧ (s.putBack at' l).lanes = s.lanes ∧ (s.putBack at' l).mult = s.mult ∧
    (s.putBack at' l).evr = s.evr ∧ (s.putBack at' l).cus = s.cus ∧ (s.putBack at' l).loops = s.loops ∧ (s.putBack at' l).tam
    = s.tam ∧ (s.putBack at' l).pow = s.pow ∧ (s.putBack at' l).drawn = s.drawn ∧ (s.putBack at' l).out = s.out := by
  refine ⟨?_, ?_, ?_, ?_, ?_, ?_, ?_, ?_, ?_, ?_, ?_, ?_, ?_, ?_, ?_, ?_, ?_, ?_, ?_, ?_, ?_, ?_⟩ <;> rfl

@[simp] theorem State.endAll_frame (s : State) (p : Live → Bool) (st : Status) (detail : Nat) : (s.endAll p st
    detail).pending = s.pending ∧ (s.endAll p st detail).ph = s.ph ∧ (s.endAll p st detail).hp = s.hp ∧ (s.endAll p st
    detail).wm = s.wm ∧ (s.endAll p st detail).slices = s.slices ∧ (s.endAll p st detail).chans = s.chans ∧ (s.endAll p st
    detail).cached = s.cached ∧ (s.endAll p st detail).table = s.table ∧ (s.endAll p st detail).recs = s.recs ∧ (s.endAll p
    st detail).ks = s.ks ∧ (s.endAll p st detail).lanes = s.lanes ∧ (s.endAll p st detail).mult = s.mult ∧ (s.endAll p st
    detail).evr = s.evr ∧ (s.endAll p st detail).cus = s.cus ∧ (s.endAll p st detail).loops = s.loops ∧ (s.endAll p st
    detail).tam = s.tam ∧ (s.endAll p st detail).pow = s.pow ∧ (s.endAll p st detail).drawn = s.drawn := by
  refine ⟨?_, ?_, ?_, ?_, ?_, ?_, ?_, ?_, ?_, ?_, ?_, ?_, ?_, ?_, ?_, ?_, ?_, ?_⟩ <;> (unfold State.endAll; simp)

@[simp] theorem State.entryFails_frame (s : State) (ch origin completion : Nat) : (s.entryFails ch origin completion).pending
    = s.pending ∧ (s.entryFails ch origin completion).ph = s.ph ∧ (s.entryFails ch origin completion).wm = s.wm ∧
    (s.entryFails ch origin completion).slices = s.slices ∧ (s.entryFails ch origin completion).chans = s.chans ∧
    (s.entryFails ch origin completion).cached = s.cached ∧ (s.entryFails ch origin completion).table = s.table ∧
    (s.entryFails ch origin completion).recs = s.recs ∧ (s.entryFails ch origin completion).ks = s.ks ∧ (s.entryFails ch
    origin completion).lanes = s.lanes ∧ (s.entryFails ch origin completion).mult = s.mult ∧ (s.entryFails ch origin
    completion).cus = s.cus ∧ (s.entryFails ch origin completion).loops = s.loops ∧ (s.entryFails ch origin completion).tam =
    s.tam ∧ (s.entryFails ch origin completion).pow = s.pow ∧ (s.entryFails ch origin completion).drawn = s.drawn := by
  refine ⟨?_, ?_, ?_, ?_, ?_, ?_, ?_, ?_, ?_, ?_, ?_, ?_, ?_, ?_, ?_, ?_⟩ <;> (unfold State.entryFails; simp)

@[simp] theorem State.readEntry_frame (s : State) (ch : Nat) : (s.readEntry ch).pending = s.pending ∧ (s.readEntry ch).ph =
    s.ph ∧ (s.readEntry ch).ctxs = s.ctxs ∧ (s.readEntry ch).live = s.live ∧ (s.readEntry ch).hp = s.hp ∧ (s.readEntry ch).wm
    = s.wm ∧ (s.readEntry ch).slices = s.slices ∧ (s.readEntry ch).chans = s.chans ∧ (s.readEntry ch).cached = s.cached ∧
    (s.readEntry ch).table = s.table ∧ (s.readEntry ch).recs = s.recs ∧ (s.readEntry ch).vpA = s.vpA ∧ (s.readEntry ch).vpB =
    s.vpB ∧ (s.readEntry ch).ks = s.ks ∧ (s.readEntry ch).lanes = s.lanes ∧ (s.readEntry ch).mult = s.mult ∧ (s.readEntry
    ch).evr = s.evr ∧ (s.readEntry ch).cus = s.cus ∧ (s.readEntry ch).loops = s.loops ∧ (s.readEntry ch).tam = s.tam ∧
    (s.readEntry ch).pow = s.pow := by
  refine ⟨?_, ?_, ?_, ?_, ?_, ?_, ?_, ?_, ?_, ?_, ?_, ?_, ?_, ?_, ?_, ?_, ?_, ?_, ?_, ?_, ?_⟩ <;>
    (unfold State.readEntry; simp)

@[simp] theorem State.failWritesOf_frame (s : State) (i : Nat) : (s.failWritesOf i).pending = s.pending ∧ (s.failWritesOf
    i).ph = s.ph ∧ (s.failWritesOf i).live = s.live ∧ (s.failWritesOf i).wm = s.wm ∧ (s.failWritesOf i).slices = s.slices ∧
    (s.failWritesOf i).chans = s.chans ∧ (s.failWritesOf i).cached = s.cached ∧ (s.failWritesOf i).table = s.table ∧
    (s.failWritesOf i).recs = s.recs ∧ (s.failWritesOf i).vpA = s.vpA ∧ (s.failWritesOf i).vpB = s.vpB ∧ (s.failWritesOf
    i).ks = s.ks ∧ (s.failWritesOf i).lanes = s.lanes ∧ (s.failWritesOf i).mult = s.mult ∧ (s.failWritesOf i).cus = s.cus ∧
    (s.failWritesOf i).loops = s.loops ∧ (s.failWritesOf i).tam = s.tam ∧ (s.failWritesOf i).pow = s.pow ∧ (s.failWritesOf
    i).drawn = s.drawn := by
  refine ⟨?_, ?_, ?_, ?_, ?_, ?_, ?_, ?_, ?_, ?_, ?_, ?_, ?_, ?_, ?_, ?_, ?_, ?_, ?_⟩ <;>
    (unfold State.failWritesOf; simp)

@[simp] theorem State.failWrites_frame (s : State) : (s.failWrites).pending = s.pending ∧ (s.failWrites).ph = s.ph ∧
    (s.failWrites).live = s.live ∧ (s.failWrites).wm = s.wm ∧ (s.failWrites).slices = s.slices ∧ (s.failWrites).chans =
    s.chans ∧ (s.failWrites).cached = s.cached ∧ (s.failWrites).table = s.table ∧ (s.failWrites).recs = s.recs ∧
    (s.failWrites).vpA = s.vpA ∧ (s.failWrites).vpB = s.vpB ∧ (s.failWrites).ks = s.ks ∧ (s.failWrites).lanes = s.lanes ∧
    (s.failWrites).mult = s.mult ∧ (s.failWrites).cus = s.cus ∧ (s.failWrites).loops = s.loops ∧ (s.failWrites).tam = s.tam ∧
    (s.failWrites).pow = s.pow ∧ (s.failWrites).drawn = s.drawn := by
  refine ⟨?_, ?_, ?_, ?_, ?_, ?_, ?_, ?_, ?_, ?_, ?_, ?_, ?_, ?_, ?_, ?_, ?_, ?_, ?_⟩ <;>
    (unfold State.failWrites; simp)

@[simp] theorem State.enqueueFront_frame (s : State) (c : Instr) : (s.enqueueFront c).ph = s.ph ∧ (s.enqueueFront c).ctxs =
    s.ctxs ∧ (s.enqueueFront c).live = s.live ∧ (s.enqueueFront c).hp = s.hp ∧ (s.enqueueFront c).wm = s.wm ∧ (s.enqueueFront
    c).slices = s.slices ∧ (s.enqueueFront c).chans = s.chans ∧ (s.enqueueFront c).cached = s.cached ∧ (s.enqueueFront
    c).table = s.table ∧ (s.enqueueFront c).recs = s.recs ∧ (s.enqueueFront c).vpA = s.vpA ∧ (s.enqueueFront c).vpB = s.vpB ∧
    (s.enqueueFront c).ks = s.ks ∧ (s.enqueueFront c).lanes = s.lanes ∧ (s.enqueueFront c).mult = s.mult ∧ (s.enqueueFront
    c).evr = s.evr ∧ (s.enqueueFront c).cus = s.cus ∧ (s.enqueueFront c).loops = s.loops ∧ (s.enqueueFront c).tam = s.tam ∧
    (s.enqueueFront c).pow = s.pow ∧ (s.enqueueFront c).drawn = s.drawn ∧ (s.enqueueFront c).out = s.out := by
  refine ⟨?_, ?_, ?_, ?_, ?_, ?_, ?_, ?_, ?_, ?_, ?_, ?_, ?_, ?_, ?_, ?_, ?_, ?_, ?_, ?_, ?_, ?_⟩ <;> rfl

@[simp] theorem State.withFetchWord_frame (s : State) (nbits w : Nat) : (s.withFetchWord nbits w).ph = s.ph ∧
    (s.withFetchWord nbits w).ctxs = s.ctxs ∧ (s.withFetchWord nbits w).live = s.live ∧ (s.withFetchWord nbits w).hp = s.hp ∧
    (s.withFetchWord nbits w).wm = s.wm ∧ (s.withFetchWord nbits w).slices = s.slices ∧ (s.withFetchWord nbits w).chans =
    s.chans ∧ (s.withFetchWord nbits w).cached = s.cached ∧ (s.withFetchWord nbits w).table = s.table ∧ (s.withFetchWord
    nbits w).recs = s.recs ∧ (s.withFetchWord nbits w).vpA = s.vpA ∧ (s.withFetchWord nbits w).vpB = s.vpB ∧ (s.withFetchWord
    nbits w).ks = s.ks ∧ (s.withFetchWord nbits w).lanes = s.lanes ∧ (s.withFetchWord nbits w).mult = s.mult ∧
    (s.withFetchWord nbits w).evr = s.evr ∧ (s.withFetchWord nbits w).cus = s.cus ∧ (s.withFetchWord nbits w).loops = s.loops
    ∧ (s.withFetchWord nbits w).tam = s.tam ∧ (s.withFetchWord nbits w).pow = s.pow ∧ (s.withFetchWord nbits w).drawn =
    s.drawn ∧ (s.withFetchWord nbits w).out = s.out := by
  refine ⟨?_, ?_, ?_, ?_, ?_, ?_, ?_, ?_, ?_, ?_, ?_, ?_, ?_, ?_, ?_, ?_, ?_, ?_, ?_, ?_, ?_, ?_⟩ <;>
    (unfold State.withFetchWord; (repeat' split) <;> simp)

end Sys2Proof.Machine
end

