-- ==== Sys2Proof/Laws/Memory.lean ====
section
/-! SUPPORT. Working memory: a read after a write gives the word written, a write leaves every other word alone, and every
operation keeps the canonical form. -/

namespace Sys2Proof.Machine

/-- Canonical form of working memory: addresses strictly rise, and no listed word is zero. -/
abbrev Memory.wf (m : Wm) : Prop := m.cells.wf 0#40 = true

/-- Working memory is in its canonical form: addresses strictly rise and no entry is a zero word. -/
abbrev State.wmWf (s : State) : Prop := Memory.wf s.wm

/-- The word at an address depends on memory and on the runs of slices alone. -/
theorem State.wmRead_congr {s t : State} (hw : t.wm.cells = s.wm.cells) (hs : t.slices = s.slices) (a : Nat) :
    t.wmRead a = s.wmRead a := by
  have h : t.isGuard a = s.isGuard a := by unfold State.isGuard; rw [hs]
  simp only [State.wmRead, h, hw]

@[simp] theorem State.wmWrite_slices (s : State) (a : Nat) (w : Word) : (s.wmWrite a w).slices = s.slices := by
  unfold State.wmWrite; split <;> rfl

@[simp] theorem State.wmWrite_isGuard (s : State) (a b : Nat) (w : Word) : (s.wmWrite a w).isGuard b = s.isGuard b := by
  simp [State.isGuard]

/-- A guard word reads zero (R181). -/
theorem State.wmRead_guard {s : State} {a : Nat} (h : s.isGuard a = true) : s.wmRead a = 0#40 := by simp [State.wmRead, h]

/-- A word written inside the memory and off the guard bands is read back. -/
theorem State.wmRead_wmWrite_same {s : State} {a : Nat} (w : Word) (hg : s.isGuard a = false) (ha : a < 0x40000) :
    (s.wmWrite a w).wmRead a = w := by
  have h : (s.wmWrite a w).isGuard a = false := by rw [s.wmWrite_isGuard]; exact hg
  simp only [State.wmRead, h]
  simp [State.wmWrite, hg, Nat.not_le.mpr ha]

/-- A write leaves every other word alone. -/
theorem State.wmRead_wmWrite_ne {s : State} {a b : Nat} (w : Word) (h : b ≠ a) : (s.wmWrite a w).wmRead b = s.wmRead b := by
  simp only [State.wmRead, s.wmWrite_isGuard]
  have e : (s.wmWrite a w).wm.cells.get 0#40 b = s.wm.cells.get 0#40 b := by
    unfold State.wmWrite
    split
    · rfl
    · exact Tbl.get_put_ne _ _ _ h
  rw [e]

/-- A write that a guard band or the end of the memory discards changes nothing (R173, R181). -/
theorem State.wmWrite_discarded {s : State} {a : Nat} (w : Word) (h : s.isGuard a = true ∨ 0x40000 ≤ a) : s.wmWrite a w = s := by
  unfold State.wmWrite
  rcases h with h | h <;> simp [h]

/-- Writing consecutive words leaves every word outside them alone. -/
theorem State.wmRead_wmWriteAll_ne (s : State) (a : Nat) (ws : List Word) (b : Nat) (h : b < a ∨ a + ws.length ≤ b) :
    (s.wmWriteAll a ws).wmRead b = s.wmRead b := by
  induction ws generalizing s a with
  | nil => rfl
  | cons w r ih =>
    rw [State.wmWriteAll, ih _ _ (by rw [List.length_cons] at h; omega)]
    exact State.wmRead_wmWrite_ne w (by rw [List.length_cons] at h; omega)

/-! ### Canonical form -/

theorem State.reset_wf : State.reset.wmWf := by decide

theorem State.wmWrite_wf {s : State} (a : Nat) (w : Word) (h : s.wmWf) : (s.wmWrite a w).wmWf := by
  unfold State.wmWrite
  split
  · exact h
  · exact Tbl.wf_put _ _ h

theorem State.wmWriteAll_wf {s : State} (a : Nat) (ws : List Word) (h : s.wmWf) : (s.wmWriteAll a ws).wmWf := by
  induction ws generalizing s a with
  | nil => exact h
  | cons w r ih => exact ih _ (State.wmWrite_wf a w h)

theorem State.wmZero_wf {s : State} (a n : Nat) (h : s.wmWf) : (s.wmZero a n).wmWf := Tbl.wf_filter _ h

/-- The memory of State.reset is in its canonical form. -/
theorem State.reset_wmWf : State.reset.wmWf := rfl

end Sys2Proof.Machine
end

