-- ==== Sys2Proof/Laws/Mult.lean ====
section
/-! SUPPORT. The multiplier's steps read as numbers: what MAC and SHIFT do to the value of the accumulator, and that the step
sequence of a product emits the words of the product and leaves the accumulator clear. -/

namespace Sys2Proof.Machine

/-- The value of the columns of an accumulator. -/
def accNum (c : List (BitVec 96)) : Nat := c.foldr (fun w n => w.toNat + 2 ^ 40 * n) 0

@[simp] theorem accNum_nil : accNum [] = 0 := rfl
@[simp] theorem accNum_cons (w : BitVec 96) (c : List (BitVec 96)) : accNum (w :: c) = w.toNat + 2 ^ 40 * accNum c := rfl
@[simp] theorem numOf_nil : numOf [] = 0 := rfl
@[simp] theorem numOf_cons (w : Word) (ws : List Word) : numOf (w :: ws) = w.toNat + 2 ^ 40 * numOf ws := rfl

theorem numOf_append (a b : List Word) : numOf (a ++ b) = numOf a + 2 ^ (40 * a.length) * numOf b := by
  induction a with
  | nil => simp
  | cons w a ih =>
    rw [List.cons_append, numOf_cons, numOf_cons, ih, List.length_cons, Nat.mul_add 40 a.length 1, Nat.pow_add]; ring

theorem numOf_lt (a : List Word) : numOf a < 2 ^ (40 * a.length) := by
  induction a with
  | nil => simp
  | cons w a ih =>
    have hw : w.toNat < 2 ^ 40 := w.isLt
    have e : 2 ^ (40 * (a.length + 1)) = 2 ^ 40 * 2 ^ (40 * a.length) := by rw [← Nat.pow_add]; congr 1; ring
    rw [numOf_cons, List.length_cons, e]
    have := Nat.mul_le_mul_left (2 ^ 40) (Nat.succ_le_of_lt ih)
    rw [Nat.mul_succ] at this
    omega

theorem accNum_zeros (n : Nat) : accNum (List.replicate n 0#96) = 0 := by
  induction n with
  | zero => rfl
  | succ n ih => rw [List.replicate_succ, accNum_cons, ih]; rfl

theorem accNum_eq_zero {c : List (BitVec 96)} (h : accNum c = 0) : c = List.replicate c.length 0#96 := by
  induction c with
  | nil => rfl
  | cons w c ih =>
    rw [accNum_cons] at h
    have hw : w = 0#96 := BitVec.eq_of_toNat_eq (by simp; omega)
    rw [List.length_cons, List.replicate_succ, ← ih (by omega), hw]

/-- The accumulator has its 16 columns, each at most `d`. -/
structure Mult.Cols (m : Mult) (d : Nat) : Prop where
  length : m.acc.length = 16
  le     : ∀ c ∈ m.acc, c.toNat ≤ d

theorem mac_columns (a : Word) (b : List Word) (d : Nat) (hd : d + 2 ^ 80 ≤ 2 ^ 96) (acc : List (BitVec 96)) (k : Nat)
    (h : ∀ c ∈ acc, c.toNat ≤ d) :
    let r := (acc.zipIdx k).map (fun (c, j) => if j < b.length then c + a.setWidth 96 * (b.getD j 0#40).setWidth 96 else c)
    accNum r = accNum acc + a.toNat * numOf ((b.drop k).take acc.length) ∧ ∀ c ∈ r, c.toNat ≤ d + 2 ^ 80 := by
  induction acc generalizing k with
  | nil => simp
  | cons c acc ih =>
    obtain ⟨ih1, ih2⟩ := ih (k + 1) (fun c hc => h c (List.mem_cons_of_mem _ hc))
    have hc := h c List.mem_cons_self
    have ha : a.toNat < 2 ^ 40 := a.isLt
    simp only [List.zipIdx_cons, List.map_cons, accNum_cons, ih1, List.length_cons]
    by_cases hk : k < b.length
    · have hb : (b.getD k 0#40).toNat < 2 ^ 40 := (b.getD k 0#40).isLt
      have hp : a.toNat * (b.getD k 0#40).toNat ≤ (2 ^ 40 - 1) * (2 ^ 40 - 1) := Nat.mul_le_mul (by omega) (by omega)
      have e : (c + a.setWidth 96 * (b.getD k 0#40).setWidth 96).toNat = c.toNat + a.toNat * (b.getD k 0#40).toNat := by
        have ea : a.toNat % 2 ^ 96 = a.toNat := Nat.mod_eq_of_lt (by omega)
        have eb : (b.getD k 0#40).toNat % 2 ^ 96 = (b.getD k 0#40).toNat := Nat.mod_eq_of_lt (by omega)
        rw [BitVec.toNat_add, BitVec.toNat_mul, BitVec.toNat_setWidth, BitVec.toNat_setWidth, ea, eb]
        omega
      have hs : b.drop k = b.getD k 0#40 :: b.drop (k + 1) := by
        rw [List.drop_eq_getElem_cons hk, List.getD_eq_getElem?_getD, List.getElem?_eq_getElem hk]; rfl
      refine ⟨?_, fun x hx => ?_⟩
      · rw [if_pos hk, e, hs, List.take_succ_cons, numOf_cons]; ring
      · rcases List.mem_cons.mp hx with rfl | hx
        · rw [if_pos hk, e]; omega
        · exact ih2 x hx
    · refine ⟨?_, fun x hx => ?_⟩
      · rw [if_neg hk, List.drop_eq_nil_of_le (by omega), List.drop_eq_nil_of_le (by omega)]; simp
      · rcases List.mem_cons.mp hx with rfl | hx
        · rw [if_neg hk]; omega
        · exact ih2 x hx

/-- MAC adds the product of a word and up to 16 words, as long as no column can overflow. -/
theorem Mult.mac_value {m : Mult} {d : Nat} (h : m.Cols d) (hd : d + 2 ^ 80 ≤ 2 ^ 96) (a : Word) (b : List Word)
    (hb : b.length ≤ 16) :
    accNum (m.mac a b).acc = accNum m.acc + a.toNat * numOf b ∧ (m.mac a b).Cols (d + 2 ^ 80) := by
  obtain ⟨h1, h2⟩ := mac_columns a b d hd m.acc 0 h.le
  refine ⟨?_, ?_, h2⟩
  · rw [List.drop_zero, h.length, List.take_of_length_le hb] at h1; exact h1
  · simp [Mult.mac, h.length]

theorem accNum_append_zero (c : List (BitVec 96)) : accNum (c ++ [0#96]) = accNum c := by
  induction c with
  | nil => rfl
  | cons w c ih => rw [List.cons_append, accNum_cons, accNum_cons, ih]

/-- SHIFT takes the low word out of the value. -/
theorem Mult.shift_value {m : Mult} {d : Nat} (h : m.Cols d) (hd : d + d / 2 ^ 40 < 2 ^ 96) :
    accNum m.acc = m.shift.1.toNat + 2 ^ 40 * accNum m.shift.2.acc ∧ m.shift.2.Cols (d + d / 2 ^ 40) := by
  obtain ⟨hl, hc⟩ := h
  obtain ⟨c0, c1, r, hm⟩ : ∃ c0 c1 r, m.acc = c0 :: c1 :: r := by
    match hq : m.acc, hl with
    | c0 :: c1 :: r, _ => exact ⟨c0, c1, r, rfl⟩
  have hr : r.length = 14 := by rw [hm] at hl; simpa using hl
  have h0 : c0.toNat ≤ d := hc c0 (by simp [hm])
  have h1 : c1.toNat ≤ d := hc c1 (by simp [hm])
  have hq := Nat.div_le_div_right (c := 2 ^ 40) h0
  have e : (c1 + c0 >>> (40 : Nat)).toNat = c1.toNat + c0.toNat / 2 ^ 40 := by
    rw [BitVec.toNat_add, BitVec.toNat_ushiftRight, Nat.shiftRight_eq_div_pow, Nat.mod_eq_of_lt (by omega)]
  have hg : (List.range 14).map (fun j => m.acc.getD (j + 2) 0#96) = r := by
    refine List.ext_getElem (by simp [hr]) fun i h1 h2 => ?_
    simp [hm, h2]
  have hs : m.shift.2.acc = (c1 + c0 >>> (40 : Nat)) :: (r ++ [0#96]) := by
    show (m.acc.getD 1 0#96 + m.acc.getD 0 0#96 >>> (40 : Nat)) :: ((List.range 14).map (fun j => m.acc.getD
      (j + 2) 0#96) ++ [0#96])
      = _
    rw [hg, hm]; rfl
  have ho : m.shift.1.toNat = c0.toNat % 2 ^ 40 := by simp [Mult.shift, hm]
  refine ⟨?_, ?_, fun c hx => ?_⟩
  · rw [hs, ho, hm, accNum_cons, accNum_cons, accNum_cons, accNum_append_zero, e]
    have := Nat.div_add_mod c0.toNat (2 ^ 40)
    omega
  · rw [hs]; simp [hr]
  · rw [hs] at hx
    rcases List.mem_cons.mp hx with rfl | hx
    · omega
    · rcases List.mem_append.mp hx with hx | hx
      · have := hc c (by rw [hm]; simp [hx]); omega
      · rw [List.mem_singleton.mp hx]; simp

/-- Block `k` of 16 words, and what word `t` of a product takes from it: the word of `a` whose turn it is times the block. -/
def blockOf (b : List Word) (k : Nat) : List Word := (b.drop (16 * k)).take 16
def rowTerm (a b : List Word) (t k : Nat) : Nat :=
  if 16 * k ≤ t ∧ t - 16 * k < a.length then (a.getD (t - 16 * k) 0).toNat * numOf (blockOf b k) else 0

/-- The MAC steps before a word of a product add what its blocks give. -/
theorem Mult.row_value {m : Mult} {d : Nat} (a b : List Word) (t : Nat) (h : m.Cols d) (hb : b.length ≤ 256)
    (hd : d + 2 ^ 84 ≤ 2 ^ 96) :
    accNum (m.row a b t).acc = accNum m.acc + ((List.range ((b.length + 15) / 16)).map (rowTerm a b t)).sum ∧
      (m.row a b t).Cols (d + 2 ^ 84) := by
  have key : ∀ (l : List Nat) (m : Mult) (d : Nat), m.Cols d → d + 2 ^ 80 * l.length ≤ 2 ^ 96 →
      let r := l.foldl (fun m k =>
        if 16 * k ≤ t ∧ t - 16 * k < a.length then m.mac (a.getD (t - 16 * k) 0) ((b.drop (16 * k)).take 16) else m) m
      accNum r.acc = accNum m.acc + (l.map (rowTerm a b t)).sum ∧ r.Cols (d + 2 ^ 80 * l.length) := by
    intro l
    induction l with
    | nil => intro m d h _; simpa using h
    | cons k l ih =>
      intro m d h hd
      rw [List.length_cons, Nat.mul_succ] at hd
      simp only [List.foldl_cons, List.map_cons, List.sum_cons, List.length_cons, Nat.mul_succ]
      by_cases hk : 16 * k ≤ t ∧ t - 16 * k < a.length
      · obtain ⟨v, c⟩ := Mult.mac_value h (Nat.le_trans (Nat.add_le_add_left (Nat.le_add_left _ _) _) hd) (a.getD
        (t - 16 * k) 0) ((b.drop (16 * k)).take 16) (by simp)
        obtain ⟨v', c'⟩ := ih _ _ c (by omega)
        rw [if_pos hk]
        refine ⟨by rw [v', v, rowTerm, if_pos hk, blockOf]; ring, c'.length, fun x hx => ?_⟩
        have := c'.le x hx; omega
      · obtain ⟨v', c'⟩ := ih _ _ h (by omega)
        rw [if_neg hk]
        refine ⟨by rw [v', rowTerm, if_neg hk]; ring, c'.length, fun x hx => ?_⟩
        have := c'.le x hx; omega
  have hn : (b.length + 15) / 16 ≤ 16 := by omega
  obtain ⟨v, c⟩ := key (List.range ((b.length + 15) / 16)) m d h (by rw [List.length_range]; omega)
  refine ⟨v, c.length, fun x hx => ?_⟩
  have := c.le x hx; rw [List.length_range] at this; omega

/-- The first `n` words of a product, and what is left in the accumulator after them. -/
theorem Mult.product_prefix {m : Mult} (a b : List Word) (hb : b.length ≤ 256) (hm : m.Cols 0) (n : Nat) (hn : n ≤ 512) :
    let r := (List.range n).foldl (fun (ys, m) t => let (y, m) := (m.row a b t).shift; (ys ++ [y], m)) (([] : List Word), m)
    r.1.length = n ∧ r.2.Cols (n * 2 ^ 85) ∧ r.2 = { m with acc := r.2.acc } ∧
    numOf r.1 + 2 ^ (40 * n) * accNum r.2.acc = accNum m.acc +
      ((List.range n).map (fun t => 2 ^ (40 * t) * ((List.range ((b.length + 15) / 16)).map (rowTerm a b t)).sum)).sum := by
  induction n with
  | zero => simpa using hm
  | succ n ih =>
    obtain ⟨hl, hc, he, hv⟩ := ih (by omega)
    simp only [List.range_succ, List.foldl_append, List.foldl_cons, List.foldl_nil, List.map_append, List.map_cons, List.map_nil,
      List.sum_append, List.sum_cons, List.sum_nil]
    generalize ((List.range n).foldl (fun (ys, m) t => let (y, m) := (m.row a b t).shift; (ys ++
      [y], m)) (([] : List Word), m)) = r at *
    obtain ⟨vr, cr⟩ := Mult.row_value a b n hc hb (by omega)
    obtain ⟨vs, cs⟩ := Mult.shift_value cr (by omega)
    refine ⟨by simp [hl], ⟨cs.length, fun x hx => ?_⟩, ?_, ?_⟩
    · have := cs.le x hx; omega
    · have hrow : ∀ (l : List Nat) (m : Mult), ∃ c, l.foldl (fun m k =>
          if 16 * k ≤ n ∧ n - 16 * k < a.length then m.mac (a.getD (n - 16 * k) 0) ((b.drop (16 * k)).take 16) else m) m
          = { m with acc := c } := by
        intro l
        induction l with
        | nil => intro m; exact ⟨m.acc, rfl⟩
        | cons k l ih =>
          intro m
          rw [List.foldl_cons]
          split
          · obtain ⟨c, hc⟩ := ih (m.mac (a.getD (n - 16 * k) 0) ((b.drop (16 * k)).take 16))
            exact ⟨c, by rw [hc]; rfl⟩
          · exact ih m
      obtain ⟨c, hc⟩ := hrow (List.range ((b.length + 15) / 16)) r.2
      have hc : r.2.row a b n = { r.2 with acc := c } := hc
      rw [hc, he]; rfl
    · rw [numOf_append, hl, numOf_cons, numOf_nil, ← Nat.add_assoc, ← hv]
      have e : 2 ^ (40 * (n + 1)) = 2 ^ (40 * n) * 2 ^ 40 := by rw [← Nat.pow_add]; congr 1
      rw [e]
      have : 2 ^ (40 * n) * (accNum r.2.acc + ((List.range ((b.length + 15) / 16)).map (rowTerm a b n)).sum)
          = 2 ^ (40 * n) * (((r.2.row a b n).shift).1.toNat + 2 ^ 40 * accNum ((r.2.row a b n).shift).2.acc) := by rw [← vr, ← vs]
      rw [Nat.mul_add, Nat.mul_add] at this
      linarith

theorem numOf_eq_sum (a : List Word) : numOf a = ∑ i ∈ Finset.range a.length, 2 ^ (40 * i) * (a.getD i 0).toNat := by
  induction a with
  | nil => rfl
  | cons w a ih =>
    have h : ∀ i ∈ Finset.range a.length, 2 ^ (40 * (i + 1)) * ((w :: a).getD (i + 1) 0).toNat
        = 2 ^ 40 * (2 ^ (40 * i) * (a.getD i 0).toNat) := fun i _ => by
      rw [List.getD_cons_succ, Nat.mul_add 40 i 1, Nat.pow_add]; ring
    rw [numOf_cons, ih, List.length_cons, Finset.sum_range_succ', Finset.sum_congr rfl h, ← Finset.mul_sum, List.getD_cons_zero]
    simp only [Nat.mul_zero, Nat.pow_zero, Nat.one_mul]
    exact Nat.add_comm _ _

theorem numOf_blocks (b : List Word) (n : Nat) :
    numOf (b.take (16 * n)) = ∑ k ∈ Finset.range n, 2 ^ (40 * (16 * k)) * numOf (blockOf b k) := by
  induction n with
  | zero => simp
  | succ n ih =>
    rw [Finset.sum_range_succ, ← ih, Nat.mul_succ, List.take_add, numOf_append, blockOf]
    by_cases h : 16 * n ≤ b.length
    · rw [List.length_take_of_le h]
    · rw [List.drop_eq_nil_of_le (by omega)]; simp

/-- Over the whole product, word `t` of the result takes block `k` of `b` times all of `a`. -/
theorem rowTerm_sum (a b : List Word) (k n : Nat) (h : 16 * k + a.length ≤ n) :
    ∑ t ∈ Finset.range n, 2 ^ (40 * t) * rowTerm a b t k = 2 ^ (40 * (16 * k)) * numOf (blockOf b k) * numOf a := by
  obtain ⟨r, rfl⟩ : ∃ r, n = 16 * k + a.length + r := ⟨n - (16 * k + a.length), by omega⟩
  have e1 : ∑ t ∈ Finset.range (16 * k), 2 ^ (40 * t) * rowTerm a b t k = 0 :=
    Finset.sum_eq_zero fun t ht => by rw [rowTerm, if_neg (by have := Finset.mem_range.mp ht; omega)]; rfl
  have e2 : ∑ t ∈ Finset.range r, 2 ^ (40 * (16 * k + a.length + t)) * rowTerm a b (16 * k + a.length + t) k = 0 :=
    Finset.sum_eq_zero fun t _ => by rw [rowTerm, if_neg (by omega)]; rfl
  rw [Finset.sum_range_add, Finset.sum_range_add, e1, e2, numOf_eq_sum a, Finset.mul_sum, Nat.zero_add, Nat.add_zero]
  refine Finset.sum_congr rfl fun i hi => ?_
  have hi := Finset.mem_range.mp hi
  rw [rowTerm, if_pos (by omega), Nat.add_sub_cancel_left, Nat.mul_add 40, Nat.pow_add]; ring

theorem list_sum_range (n : Nat) (f : Nat → Nat) : ((List.range n).map f).sum = ∑ i ∈ Finset.range n, f i := by
  induction n with
  | zero => rfl
  | succ n ih => simp [List.range_succ, Finset.sum_range_succ, ih]

/-- The step sequence of a product emits the words of the product, as long as the first factor, `a`, and the second, `b`, together
give at most 512 words, and leaves a clear accumulator as it was. -/
theorem Mult.product_value {m : Mult} (a b : List Word) (hm : m.acc = List.replicate 16 0#96) (ha : a.length ≤ 256)
    (hb : b.length ≤ 256) :
    numOf (m.product a b).1 = numOf a * numOf b ∧ (m.product a b).1.length = a.length + b.length ∧ (m.product a b).2 = m := by
  have hc : m.Cols 0 := ⟨by rw [hm]; rfl, fun c h => by rw [hm] at h; rw [List.eq_of_mem_replicate h]; simp⟩
  obtain ⟨hl, hc', he, hv⟩ := Mult.product_prefix (m := m) a b hb hc (a.length + b.length) (by omega)
  have hs : ((List.range (a.length + b.length)).map (fun t => 2 ^ (40 * t) *
      ((List.range ((b.length + 15) / 16)).map (rowTerm a b t)).sum)).sum = numOf a * numOf b := by
    rw [list_sum_range]
    simp only [list_sum_range, Finset.mul_sum]
    rw [Finset.sum_comm]
    have h1 : ∀ k ∈ Finset.range ((b.length + 15) / 16), ∑ t ∈ Finset.range (a.length + b.length), 2 ^ (40 * t) * rowTerm a b t k
        = 2 ^ (40 * (16 * k)) * numOf (blockOf b k) * numOf a := fun k hk =>
      rowTerm_sum a b k _ (by have := Finset.mem_range.mp hk; omega)
    rw [Finset.sum_congr rfl h1, ← Finset.sum_mul, ← numOf_blocks, List.take_of_length_le (by omega), Nat.mul_comm]
  have h0 : accNum m.acc = 0 := by rw [hm]; exact accNum_zeros 16
  rw [hs, h0, Nat.zero_add] at hv
  have hp : m.product a b = (List.range (a.length + b.length)).foldl
      (fun (ys, m) t => let (y, m) := (m.row a b t).shift; (ys ++ [y], m)) (([] : List Word), m) := rfl
  rw [hp]
  generalize ((List.range (a.length + b.length)).foldl
      (fun (ys, m) t => let (y, m) := (m.row a b t).shift; (ys ++ [y], m)) (([] : List Word), m)) = r at *
  have hlt : numOf a * numOf b < 2 ^ (40 * (a.length + b.length)) := by
    rw [Nat.mul_add, Nat.pow_add]; exact Nat.mul_lt_mul'' (numOf_lt a) (numOf_lt b)
  have hz : accNum r.2.acc = 0 := by
    rcases Nat.eq_zero_or_pos (accNum r.2.acc) with h | h
    · exact h
    · have := Nat.le_mul_of_pos_right (2 ^ (40 * (a.length + b.length))) h
      omega
  refine ⟨by rw [hz] at hv; simpa using hv, hl, ?_⟩
  rw [he, accNum_eq_zero hz, hc'.length, ← hm]

end Sys2Proof.Machine
end

