-- ==== Sys2Proof/Tests/Slice0.lean ====
section
/-! SUPPORT. Tests of single steps on small states, and for every statement a witness that meets its hypotheses. -/

namespace Sys2Proof.Tests

set_option Elab.async false

open Sys2Proof Sys2Proof.Machine

/-! ### Small states -/

/-- Nothing meets the request outside the block. -/
def calm : Ext := ⟨[], false, false, 0, [], false, [], none⟩

/-- A key record of an owner: AES-256 unless said otherwise, with a secret of its size. -/
def key (owner level parent usage : Nat) : Key where
  attr := ⟨1, level, 256, usage, 0, 0, 1, 0, parent, 0, 0, owner⟩
  secret := List.replicate 32 0x11#8
  pub := []
  hops := []
  pflags := 0
  gcm := 0
  gcmMem := 0
  hss := .init
  frozen := false
  flash := ⟨true, true, 0, 0, 1⟩

/-- The run of slice 0: data, a frame-table area, its guard band. -/
def run0 : Run := ⟨0x4A00, 1408, ⟨0x4A00, 1024⟩, some ⟨0x4E00, 128⟩, none⟩

/-- A module in SERVICE with its stamp in LOCK, slice 0 active, roots, and an AES key of each owner. -/
def svc : State :=
  { State.reset with
    ph := { Phase.init with st := .lock, band := 2, cSet := true, c := 0x100000, period := 20000000 }
    tam := { Tamper.init with life := .service }
    hp := { HostPort.init with pasid := 9, valid := true }
    slices := [(0, ⟨.active, [7], 100, some run0⟩)]
    ks := { KeyStore.init with
      root := some (zeros 32)
      slots := [(0x40, ⟨0, false, some (key 0 1 0 0x173), none⟩), (0x80, ⟨0, false, some (key 0xFF 1 0 0x173), none⟩),
        (0x81, ⟨0, false, some (key 0xFF 2 0x80 0x173), none⟩), (0x100, ⟨0, false, some (key 0 2 0x40 0x173), none⟩)]
      cache := [0x40, 0x80, 0x81, 0x100] } }

/-- A request of an owner's ring arrives, and premises `P` hold of its route, its packet and the state in which it runs. -/
structure Meets (w : Owner) (s : State) (o : Op) (b : List Byte) (P : Route → List Byte → State → Prop) : Prop where
  arrives : Arrives (s.asks w o b) (.ring w) o (ringRoute w) (packetFrom s (ownerIdx w) o b) s.ph.at (s.served w o b)
  rest    : P (ringRoute w) (packetFrom s (ownerIdx w) o b) (s.served w o b)

/-- Requests of the manager and of the tenant of slice 0. -/
abbrev Mgr := Meets .mgr
abbrev Ten := Meets (.slice 0)

/-- A descriptor of `len` bytes at 0x10000 for a use. -/
def desc (len dir : Nat) : List Byte := be 8 0x10000 ++ be 4 len ++ [0#8, byte dir] ++ zeros 2

theorem take_exact (s : State) (b : List Byte) : s.readBytes b b.length = b := by simp [State.readBytes]

theorem manager_input {t : State} {rq : Rq} {i n : Nat} {d : Desc} {b : List Byte} (ho : 64 ≤ rq.owner)
    (hs : (t.hp.d3hot, t.dmaStop rq.owner, (t.ctx (ctxOf rq.owner)).stalled) = (false, none, []))
    (hr : rq.x.reads.getD i (.data []) = .data b) (hl : d.len = n) (hb : b.length = n) : t.input rq i d = .data b := by
  subst hb
  obtain ⟨h1, h2, h3⟩ := by simpa only [Prod.mk.injEq] using hs
  have h4 : t.hits rq.owner d = [] := if_neg (Nat.not_lt.mpr ho)
  have h5 : t.hitsStalled rq.owner d = false := by rw [State.hitsStalled, h3]; rfl
  simp only [State.input, h1, h2, h4, h5, hr, hl, take_exact]
  rfl

/-! ### Witnesses: the premises of each statement are met, clause by clause

A premise that names a signature of another module, a certificate chain or a value with no body (Config) is met for every
value that has it: those witnesses take it as their own premise. -/

theorem witness_status :
    Mgr svc .sysInfo [] (fun _ p _ => p.length = 16) ∧ Mgr svc .stampRead [] (fun _ p _ => p.length = 16) ∧
    Mgr svc .fwStatus [] (fun _ p _ => p.length = 16) ∧
    Mgr svc .tamperStatus (zeros 4) (fun _ p _ => p.length = 20 ∧ zeroAt p 17 3 = true ∧ at8 p 16 ≤ 1) ∧
    Mgr svc .tamperStatus ([1#8] ++ zeros 3) (fun _ p _ => p.length = 20 ∧ zeroAt p 17 3 = true ∧ at8 p 16 ≤ 1) ∧
    Mgr svc .laneStatus [] (fun _ p _ => p.length = 16) := by
  and_intros <;> exact ⟨arrives_of _ _ _ _ (by decide +kernel), by decide +kernel⟩

theorem witness_device_commands :
    Mgr svc .sysReset ([2#8] ++ zeros 3) (fun _ p _ => p.length = 20 ∧ at8 p 16 = 2 ∧ zeroAt p 17 3 = true) ∧
    Mgr svc .sysSelftest ([0x7F#8, 0xFF#8] ++ zeros 2) (fun _ p _ =>
      p.length = 20 ∧ zeroAt p 18 2 = true ∧ bit (fld p 16 2) 15 = false) ∧
    Mgr svc .tamperConfig (defaultResponses.map byte ++ zeros 4) (fun _ p t =>
      p.length = 36 ∧ zeroAt p 34 2 = true ∧ firstFail (t.configChecks (p.drop 16)) = none) := by
  and_intros <;> exact ⟨arrives_of _ _ _ _ (by decide +kernel), by decide +kernel⟩

theorem witness_selftest_without_failures : svc.pow.halted = false ∧ svc.pow.failed = [] := by decide +kernel

/-- A module whose floor is `n` and whose other bank holds a valid image of build 3. -/
def floored (n : Nat) : State :=
  { svc with pow := { svc.pow with floor := n, bank0 := ⟨true, 0x0302, n, n, []⟩, bank1 := ⟨true, 0x0302, 3, 0, []⟩ } }

theorem witness_firmware_load (b : List Byte) (hl : b.length = 6000) (hf : imageBad b = false)
    (hs : imageSigned svc.ks.fwKeys b = true) :
    Mgr svc .fwLoad (desc 6000 1) (fun rt p t =>
      let x : Ext := ⟨[.data b], false, false, 0, [], false, [], none⟩
      p.length = 32 ∧ t.pow.drbgStop = false ∧ firstFail (descCheck (p.drop 16) 0 1 1) = none ∧
      t.input (t.request? rt p t.ph.at .fwLoad x) 0 (descAt (p.drop 16) 0) = .data b ∧
      firstFail (t.imageChecks b) = none ∧ x.split = false) ∧
    (fld b 6 2 < 5 → Mgr (floored 5) .fwLoad (desc 6000 1) (fun rt p t =>
      let x : Ext := ⟨[.data b], false, false, 0, [], false, [], none⟩
      p.length = 32 ∧ t.pow.drbgStop = false ∧ firstFail (descCheck (p.drop 16) 0 1 1) = none ∧
      t.input (t.request? rt p t.ph.at .fwLoad x) 0 (descAt (p.drop 16) 0) = .data b ∧ imageBad b = false ∧ 0x10 ∉ t.ks.gone ∧
      imageSigned t.ks.fwKeys b = true ∧ fld b 6 2 < t.pow.floor)) := by
  refine ⟨⟨arrives_of _ _ _ _ (by decide +kernel), by decide +kernel, by decide +kernel, by decide +kernel, ?_, ?_, rfl⟩,
    fun h => ⟨arrives_of _ _ _ _ (by decide +kernel), by decide +kernel, by decide +kernel, by decide +kernel, ?_, hf,
      by decide +kernel, hs, h⟩⟩
  · exact manager_input (show 64 ≤ 0xFF by decide) rfl rfl (by decide +kernel) hl
  · have e : (svc.served .mgr .fwLoad (desc 6000 1)).imageChecks b
        = [(imageBad b, .length, 0x0134), (decide (0x10 ∈ svc.ks.gone), .fault, 0x009A),
          (!imageSigned svc.ks.fwKeys b, .authFail, 0x0132), (decide (fld b 6 2 < 0), .policy, 0x0133)] := rfl
    have hg : decide (0x10 ∈ svc.ks.gone) = false := by decide +kernel
    rw [e, hf, hs, hg]; simp
  · exact manager_input (show 64 ≤ 0xFF by decide) rfl rfl (by decide +kernel) hl

theorem witness_firmware_activate :
    Mgr (floored 2) .fwActivate (be 2 3 ++ zeros 2) (fun _ p t =>
      p.length = 20 ∧ zeroAt p 18 2 = true ∧ t.pow.bankOk t.pow.otherBank = true ∧
      (t.pow.bankAt t.pow.otherBank).build = fld p 16 2) :=
  ⟨arrives_of _ _ _ _ (by decide +kernel), by decide +kernel⟩

/-- Lane `i` in a state, with nothing to do. -/
def laneAs (s : State) (i : Nat) (st : LaneSt) (left : Nat) (on : Bool) : State :=
  s.setLane i { Lane.init with st := st, left := left, on := on }

/-- Only lane 0 in service. -/
def oneLane : State := laneAs (laneAs (laneAs svc 1 .retired 0 true) 2 .retired 0 true) 3 .retired 0 false

theorem witness_lane_commands :
    Mgr svc .laneRetire ([3#8] ++ zeros 3) (fun _ p t => p.length = 20 ∧ zeroAt p 17 3 = true ∧ at8 p 16 < 4 ∧
      (t.lane (at8 p 16)).st = .inService ∧ t.inServiceCount ≠ 1) ∧
    Mgr oneLane .laneRestore ([2#8] ++ zeros 3) (fun _ p t => p.length = 20 ∧ zeroAt p 17 3 = true ∧ at8 p 16 < 4 ∧
      (t.lane (at8 p 16)).st = .retired ∧ (t.lane (at8 p 16)).on = true) ∧
    Mgr svc .powerDomain ([5#8] ++ zeros 3) (fun _ p t => p.length = 20 ∧ zeroAt p 18 2 = true ∧ 2 ≤ at8 p 16 ∧ at8 p 16 ≤ 5 ∧
      at8 p 17 = 0 ∧ (t.lane (at8 p 16 - 2)).on = true ∧ (t.lane (at8 p 16 - 2)).st = .inService ∧ t.inServiceCount ≠ 1) ∧
    Mgr oneLane .powerDomain ([5#8, 1#8] ++ zeros 2) (fun _ p t => p.length = 20 ∧ zeroAt p 18 2 = true ∧ 2 ≤ at8 p 16 ∧
      at8 p 16 ≤ 5 ∧ at8 p 17 = 1 ∧ (t.lane (at8 p 16 - 2)).on = false) ∧
    Mgr oneLane .laneRetire (zeros 4) (fun _ p t => t.inServiceCount = 1 ∧ p.length = 20 ∧ zeroAt p 17 3 = true ∧ at8 p 16 < 4 ∧
      (t.lane (at8 p 16)).st = .inService) ∧
    Mgr oneLane .powerDomain ([2#8] ++ zeros 3) (fun _ p t => t.inServiceCount = 1 ∧ p.length = 20 ∧ zeroAt p 18 2 = true ∧
      2 ≤ at8 p 16 ∧ at8 p 16 ≤ 5 ∧ at8 p 17 = 0 ∧ (t.lane (at8 p 16 - 2)).on = true ∧
      (t.lane (at8 p 16 - 2)).st = .inService) := by
  and_intros <;> exact ⟨arrives_of _ _ _ _ (by decide +kernel), by decide +kernel⟩

/-- Lane 3 in PROBATION with one copy to compare. -/
def copying (left : Nat) : State := svc.setLane 3 { Lane.init with st := .probation, left := left, copies := [.kat] }

theorem witness_lane_events :
    ((laneAs svc 3 .testing 0 true).lane 3).st = .testing ∧
    (((copying 2).lane 3).st = .probation ∧ ((copying 2).lane 3).copies ≠ [] ∧ 1 < ((copying 2).lane 3).left) ∧
    (((copying 1).lane 3).st = .probation ∧ ((copying 1).lane 3).copies ≠ [] ∧ ((copying 1).lane 3).left = 1) ∧
    (((laneAs svc 3 .probation 2 true).lane 3).st = .probation ∧ ((laneAs svc 3 .probation 2 true).lane 3).copies = []) ∧
    ((svc.lane 3).on = true ∧ (svc.lane 3).work = [] ∧ (svc.lane 3).queue = [] ∧ (svc.lane 3).st = .inService ∧
      3 ∉ svc.keptAwake) ∧
    svc.multQueued = false ∧
    (((laneAs svc 0 .retiring 0 true).lane 0).st = .retiring ∧ ((laneAs svc 0 .retiring 0 true).lane 0).work = [] ∧
      ∀ l ∈ (laneAs svc 0 .retiring 0 true).live, l.job ≠ .laneRetire 0) := by decide +kernel

/-- The module with its phase unit in a state. -/
def phased (st : PhSt) (f : Phase → Phase) : State := { svc with ph := f { svc.ph with st := st } }

theorem witness_stamp :
    ((phased .lock (fun p => { p with c := stampEnd - 2 })).ph.issuing = true ∧
      (phased .lock (fun p => { p with c := stampEnd - 2 })).ph.c + 1 < stampEnd) ∧
    ((phased .coast (fun p => { p with c := stampEnd - 1 })).ph.issuing = true ∧
      stampEnd ≤ (phased .coast (fun p => { p with c := stampEnd - 1 })).ph.c + 1) ∧
    State.reset.ph.issuing = false ∧
    ((phased .lock (fun p => { p with phi := 62 * 1024 })).ph.issuing = true ∧
      (phased .lock (fun p => { p with phi := 62 * 1024 })).ph.phi / 1024 < 63) ∧
    (svc.ph.issuing = true ∧ svc.ph.c % 65536 = 0 ∧ svc.ph.cp ≠ svc.ph.c ∧ svc.ph.copies.length = 4) := by decide +kernel

/-- A good cycle of 50 Hz, and one of the wrong period. -/
def good50 : MainsCycle := ⟨1000, 20000000, 10000000, 1, 1⟩
def bad50 : MainsCycle := ⟨799, 20000000, 10000000, 1, 1⟩

theorem witness_phase :
    (svc.pow.main = true ∧ svc.ph.st = .lock ∧ (phased .slew id).ph.st = .slew) ∧
    ((phased .hold (fun p => { p with missing := 2 })).ph.st = .hold ∧
      (phased .hold (fun p => { p with missing := 2 })).ph.missing + 1 < 4) ∧
    ((phased .hold (fun p => { p with missing := 3 })).ph.st = .hold ∧
      4 ≤ (phased .hold (fun p => { p with missing := 3 })).ph.missing + 1) ∧
    ((phased .coast id).ph.st = .coast ∧ (phased .coast id).ph.period ≠ 0) ∧
    (let s := phased .acquire (fun p => { p with good := 7, cSet := false });
      s.pow.main = true ∧ s.ph.st = .acquire ∧ s.ph.goodCycle good50 = true ∧ 7 ≤ s.ph.good ∧ s.ph.good ≤ 8 ∧
      s.ph.cSet = false) ∧
    (let r : Resume := ⟨stampEnd - 1, 5, 0⟩;
      let s := phased .acquire (fun p => { p with good := 7, waiting := some r })
      s.pow.main = true ∧ s.ph.st = .acquire ∧ s.ph.goodCycle good50 = true ∧ 7 ≤ s.ph.good ∧ s.ph.good ≤ 8 ∧
      s.ph.cSet = true ∧ s.ph.waiting = some r ∧ r.start < stampEnd) ∧
    (svc.observing = true ∧ svc.ph.goodCycle bad50 = false) := by decide +kernel

/-- The module with a response, and with masks of the sources. -/
def sourced (i resp fused asserted : Nat) : State :=
  { svc with tam := { svc.tam with response := svc.tam.response.set i resp, fused := fused, asserted := asserted } }

theorem witness_sources :
    (15 < 16 ∧ (sourced 15 0 0 0).pow.main = true ∧ bit (sourced 15 0 0 0).tam.fused 15 = false ∧
      bit (sourced 15 0 0 0).tam.asserted 15 = false ∧ (sourced 15 0 0 0).responseOf 15 = 0 ∧
      (sourced 15 0 0 0).tam.decom = none) ∧
    (bit (sourced 15 0 0x8000 0).tam.fused 15 = true ∧ (sourced 15 0 0x8000 0).tam.decom = none) ∧
    bit (sourced 0 3 0 1).tam.asserted 0 = true := by decide +kernel

/-- The command processor is to restart. -/
def restarting : State := { svc with tam := { svc.tam with restart := true } }

theorem witness_lock :
    (15 < 16 ∧ (sourced 15 2 0 0).pow.main = true ∧ bit (sourced 15 2 0 0).tam.fused 15 = false ∧
      bit (sourced 15 2 0 0).tam.asserted 15 = false ∧ (sourced 15 2 0 0).tam.life = .service ∧
      (sourced 15 2 0 0).tam.response.getD 15 0 = 2 ∧ (sourced 15 2 0 0).tam.decom = none) ∧
        restarting.tam.restart = true := by decide +kernel

/-- Two entries in the circulating record: one in flash, one staged. -/
def logged : State :=
  { svc with evr := { svc.evr with
      next := 4098, flash := [⟨4096, zeros 24, zeros 32, true, true⟩], staged := [⟨4097, zeros 24, zeros 32, true, true⟩] } }

theorem witness_log :
    Mgr logged .logRead (be 5 4096 ++ [125#8] ++ zeros 2) (fun _ p _ =>
      p.length = 24 ∧ zeroAt p 22 2 = true ∧ 1 ≤ at8 p 21 ∧ at8 p 21 ≤ 125) ∧
    Mgr logged .logHead (zeros 16) (fun rt p t => p.length = 32 ∧ t.ph.issuing = true ∧ t.pow.drbgStop = false ∧
      firstFail (t.dualChecks (rt.ctx?.getD 66)) = none ∧ calm.verify = none ∧ calm.misses = 0) ∧
    Mgr logged .logClear (be 5 4097 ++ zeros 3) (fun _ p t => p.length = 24 ∧ zeroAt p 21 3 = true ∧ fld p 16 5 < t.evr.next ∧
      t.entries.filter (clears (fld p 16 5)) ≠ []) := by
  and_intros <;> exact ⟨arrives_of _ _ _ _ (by decide +kernel), by decide +kernel⟩

theorem witness_flush : logged.evr.staged = ⟨4097, zeros 24, zeros 32, true, true⟩ :: [] ∧
    ⟨4096, zeros 24, zeros 32, true, true⟩ ∈ logged.entries := by decide +kernel

/-- The binding entry of channel 5: slice 0, AES-256-GCM under slot 0x101, port VPA, one step of area 0, lead 4 cycles,
window start 16. -/
def entry5 : List Byte :=
  le 3 1 ++ [3#8, 0#8, 2#8] ++ le 2 0x101 ++ [0#8, 1#8] ++ zeros 2 ++ le 2 4 ++ zeros 2 ++ le 5 16 ++ zeros 39 ++ le 4 2279024905

theorem entry5_check : entryCheck entry5 = crc32c (entry5.take 60) := by decide +kernel

/-- The key bound to channel 5. -/
def key5 : Key := { key 0 2 0x40 2 with attr := ⟨1, 2, 256, 2, 4, 0, 1, 5, 0x40, 0, 0, 0⟩ }

/-- A frame-table step that ends the frame with one byte. -/
def endStep : Word := 0x8002000000#40

/-- Channel 5 in force with its key and its frame table; one step also stands in the data region. -/
def fielded : State :=
  { svc with
    table := some 0x2000
    cached := [(5, entry5)]
    chans := [(5, { Chan.init with entry := entry5, gen := 1, check := 2279024905, top := 16 })]
    wm := ⟨[(0x4A00, endStep), (0x4E00, endStep)], []⟩
    ks := { svc.ks with
      slots := svc.ks.slots ++ [(0x101, ⟨0, false, some key5, none⟩)]
      cache := svc.ks.cache ++ [0x101] } }

/-- A command of channel 5 with SEQ 16 for slot `a`, EXPIRY one cycle above its slot's, one byte of ciphertext and a tag. -/
def head5 (a : Nat) : List Byte := [0#8, 5#8] ++ be 5 16 ++ be 6 a ++ be 5 (a / 64 + 1)
def body5 (tag : List Byte) : List Byte := head5 (0x100000 * 64 + 8) ++ [0x5A#8] ++ tag

theorem witness_field_command :
    Ten fielded .fieldCommand (body5 (zeros 16)) (fun rt p t =>
      let b := p.drop 16
      let ch := at8 b 1
      let seq := fld b 2 5
      let rq := t.request? rt p t.ph.at .fieldCommand calm
      rt.tenant = some 0 ∧ isLoad b = false ∧ 35 ≤ b.length ∧ b.length ≤ 66 ∧ b.length ≤ 48 ∧ at8 b 0 / 2 = 0 ∧
      at8 b 7 / 64 = 0 ∧ t.ph.issuing = true ∧ t.pow.drbgStop = false ∧ t.live.any (Live.invalidates ch) = false ∧
      t.table ≠ none ∧ (t.chan ch).suspended = false ∧ t.entryOf ch = some entry5 ∧ t.usable entry5 = true ∧
      entrySlice entry5 = 0 ∧ firstFail (t.fieldKeyChecks rq ch entry5) = none ∧ entryKey entry5 ∈ t.ks.cache ∧
        entryKey entry5 ∉ calm.keyErrs ∧
      (∀ r ∈ t.recs, r.ch = ch → r.seq = seq → r.st ≠ .green) ∧ (t.chan ch).duplicate seq = none ∧ t.queueFull ch = false ∧
      t.pickFirst = some 0) ∧
    Ten fielded .fieldCommand ([0x80#8, 0#8] ++ be 2 127 ++ [1#8, 0#8] ++ be 3 0x4A00 ++ be 2 1 ++ [0#8]) (fun rt p t =>
      let b := p.drop 16
      let r := refAt b 6
      rt.tenant = some 0 ∧ b.length = 12 ∧ at8 b 0 = 0x80 ∧ zeroAt b 5 1 = true ∧ refReserved b 6 = false ∧ 1 ≤ at8 b 4 ∧
      at8 b 4 ≤ 128 ∧ r.words = at8 b 4 ∧ 0 < 64 ∧ t.holdsAll 0 .r r = true ∧ t.inData 0 r = true ∧
      t.mustWait (t.request? rt p t.ph.at .fieldCommand calm) = false ∧ (t.meet calm.bad [r]).badWord r = none ∧
      t.area 0 (at8 b 1) = some ⟨0x4E00, 128⟩ ∧ t.areaRuns 0 (at8 b 1) = false ∧ fld b 2 2 + at8 b 4 ≤ 128 ∧
      (t.wmWords r).all stepOk = true ∧ (t.wmWords r).any (fun w => stepOp w == 8) = true) := by
  and_intros <;> exact ⟨arrives_of _ _ _ _ (by decide +kernel), by decide +kernel⟩

/-- The record of such a command. -/
def rec5 (st : RecSt) (passed : Bool) (tag : List Byte) : Rec where
  ch := 5
  seq := 16
  slice := 0
  st := st
  body := body5 tag
  entry := entry5
  arrC := 0x100000
  arrSlot := 0x100000 * 64
  passed := passed
  target := 0
  rolls := 0
  table := 0x4E00
  data := []
  len := 0
  lane := 0
  lane2 := 0
  delay := 0

/-- Channel 5 with one record. -/
def recorded (st : RecSt) (passed : Bool) (tag : List Byte) : State := { fielded with recs := [rec5 st passed tag] }

/-- Which slot a command of channel 5 gets, whatever its tag. -/
theorem target5 (st : RecSt) (passed : Bool) (tag : List Byte) (h : st = .green) :
    (recorded st passed tag).targetFor (rec5 st passed tag) = 0x100000 * 64 + 8 := by
  subst h
  have hw : fld (rec5 .green passed tag).body 7 6 = 0x100000 * 64 + 8 := rfl
  have hp : (recorded .green passed tag).ph = fielded.ph := rfl
  have ht : fielded.ph.inTime (0x100000 * 64 + 8) = true := by decide +kernel
  have hl : (recorded .green passed tag).lowerSlots (rec5 .green passed tag).ch (rec5 .green passed tag).seq = [] := rfl
  have hs : ∀ a, (recorded .green passed tag).slotFull (rec5 .green passed tag).ports a = false := by
    intro a; simp [State.slotFull, recorded, rec5]
  simp only [State.targetFor, hw, hp, hl, List.foldl_nil]
  rw [show (0x100000 * 64 + 8) % 2 ^ 46 = 0x100000 * 64 + 8 by decide, if_pos ht]
  simp only [State.withSpace, hs]
  rfl

theorem slotChecks5 (st : RecSt) (passed : Bool) (tag : List Byte) :
    firstFail ((rec5 st passed tag).slotChecks (0x100000 * 64 + 8)) = none := by
  have h1 : (rec5 st passed tag).want = 0x100000 * 64 + 8 := rfl
  have h2 : (rec5 st passed tag).expired (0x100000 * 64 + 8) = false := by
    have : fld (rec5 st passed tag).body 13 5 = 0x100001 := rfl
    simp [Rec.expired, this]
  simp [Rec.slotChecks, h1, h2]

/-- The frame table of channel 5: one step, which its slice may fetch. -/
theorem steps5 (st : RecSt) (passed : Bool) (tag : List Byte) :
    (recorded st passed tag).frameTable (rec5 st passed tag) = [endStep] := by
  have h : (rec5 st passed tag).steps = ⟨0x4E00, 1⟩ := rfl
  have e : fielded.wmWords ⟨0x4E00, 1⟩ = [endStep] := by decide +kernel
  rw [State.frameTable, h, ← e]; rfl

/-- Its step ends the frame with one byte, whatever the plaintext. -/
theorem lenset5 (pt hdr : List Byte) : (runFrame [endStep] pt hdr).2 = 1 := rfl

theorem table5 (st : RecSt) (passed : Bool) (tag : List Byte) :
    (recorded st passed tag).tableStop (rec5 st passed tag) [] = none := by
  have h : (rec5 st passed tag).steps = ⟨0x4E00, 1⟩ := rfl
  have e1 : fielded.holds 0 .x 0x4E00 = true := by decide +kernel
  have e2 : (fielded.meet [] [⟨0x4E00, 1⟩]).badWord ⟨0x4E00, 1⟩ = none := by decide +kernel
  have a1 : (recorded st passed tag).holds 0 .x 0x4E00 = true := e1
  have a2 : ((recorded st passed tag).meet [] [⟨0x4E00, 1⟩]).badWord ⟨0x4E00, 1⟩ = none := e2
  have a3 : (recorded st passed tag).refused (rec5 st passed tag).fetches = none := by
    have : (rec5 st passed tag).fetches = [⟨.sequencer, 0, .x, ⟨0x4E00, 1⟩⟩] := by rw [Rec.fetches, h]; rfl
    rw [this, State.refused]; simp [a1]
  simp only [State.tableStop, a3, h, a2]

theorem idle5 (st : RecSt) (passed : Bool) (tag : List Byte) :
    (recorded st passed tag).endWork (.first 5 16) = recorded st passed tag := by
  have h : ∀ i, (recorded st passed tag).lane i = Lane.init := fun _ => rfl
  simp [State.endWork, h, Lane.init, List.range_succ]

theorem witness_decisions (tag : List Byte) (h : (openField key5.secret 2 (body5 tag)).2 = true) :
    ((recorded .green false tag).record 5 16 = some (rec5 .green false tag) ∧ (rec5 .green false tag).st = .green ∧
      (rec5 .green false tag).passed = false ∧
      ((recorded .green false tag).slot (entryKey (rec5 .green false tag).entry)).key = some key5 ∧
      ((recorded .green false tag).endWork (.first 5 16)).tableStop (rec5 .green false tag) [] = none ∧
      (runFrame ((recorded .green false tag).frameTable (rec5 .green false tag))
        (openField key5.secret (entryMode (rec5 .green false tag).entry) (rec5 .green false tag).body).1
        ((rec5 .green false tag).body.take 18)).2 ≠ 0 ∧
      firstFail ((recorded .green false tag).firstChecks (rec5 .green false tag)
        (openField key5.secret (entryMode (rec5 .green false tag).entry) (rec5 .green false tag).body).2) = none) ∧
    ((recorded .green true tag).record 5 16 = some (rec5 .green true tag) ∧ (rec5 .green true tag).st = .green ∧
      (rec5 .green true tag).passed = true ∧ (recorded .green true tag).lowerGreen 5 16 = false ∧
      firstFail ((rec5 .green true tag).slotChecks ((recorded .green true tag).targetFor (rec5 .green true tag))) = none) ∧
    ((recorded .ripe true tag).record 5 16 = some (rec5 .ripe true tag) ∧ (rec5 .ripe true tag).st = .ripe ∧
      (recorded .ripe true tag).tableStop (rec5 .ripe true tag) [] = none) := by
  refine ⟨⟨rfl, rfl, rfl, rfl, ?_, ?_, ?_⟩, ⟨rfl, rfl, rfl, rfl, ?_⟩, rfl, rfl, table5 _ _ _⟩
  · rw [idle5]; exact table5 _ _ _
  · rw [steps5, lenset5]; decide
  · have e : entryMode (rec5 .green false tag).entry = 2 := show entryMode entry5 = 2 by decide +kernel
    have hx : fld (rec5 .green false tag).body 13 5 = 0x100001 := rfl
    have hw : (rec5 .green false tag).want = 0x100000 * 64 + 8 := rfl
    have hl : entryLead (rec5 .green false tag).entry = 4 := show entryLead entry5 = 4 by decide +kernel
    have hc : (rec5 .green false tag).arrC = 0x100000 := rfl
    have h3 : (recorded .green false tag).firstChecks (rec5 .green false tag) true =
        [(false, .authFail, 0x0086), (false, .notFresh, 0x0080), (false, .notFresh, 0x0081)] ++
          (rec5 .green false tag).slotChecks ((recorded .green false tag).targetFor (rec5 .green false tag)) := by
      simp [State.firstChecks, hx, hw, hl, hc]
    rw [e, show (openField key5.secret 2 (rec5 .green false tag).body).2 = true from h, h3, target5 _ _ _ rfl,
      firstFail_append_none]
    exact ⟨rfl, slotChecks5 _ _ _⟩
  · rw [target5 _ _ _ rfl]; exact slotChecks5 _ _ _

/-- A record whose frame table lies outside what its slice may fetch. -/
theorem witness_refused_fetch :
    let r : Rec := { rec5 .green false (zeros 16) with table := 0x100 }
    let s : State := { fielded with recs := [r] }
    s.record 5 16 = some r ∧ r.st = .green ∧ r.passed = false ∧ (s.slot (entryKey r.entry)).key = some key5 ∧
    ((s.endWork (.first 5 16)).refused r.fetches).isSome = true := by decide +kernel

/-- A record OFFERED in slot 1000 on VPA. -/
def offered : State := { fielded with recs := [{ rec5 .offered true (zeros 16) with target := 1000 }] }

theorem witness_offered :
    (∃ r ∈ (offered.openSlot 1001).recs, r.st = .offered) ∧
    (∃ r ∈ (({ offered with recs := offered.recs.map (fun r => { r with st := .confirmed }) } : State).openSlot 1000).recs,
      r.st = .offered) := by
  decide +kernel

theorem witness_duplicate : ((Chan.init.ripen 5).duplicate 5).isSome = true ∧
    ((Chan.init.ripen 69).duplicate 5).isSome = true := by
  decide +kernel


/-- A request in flight that waits as its job says. -/
def waits (j : Job) (o : Op) (b : List Byte) : Live := ⟨⟨.ring (.slice 0) 0 0x1000 4096 0, [], o, b, [], calm, 0, 0, 0,
    false, false, 0, none⟩, j⟩

/-- The module with one request in flight. -/
def waiting (s : State) (j : Job) (o : Op) (b : List Byte) : State := { s with live := [waits j o b] }

/-- Slice 0 in another state. -/
def sliced (st : SlSt) : State := svc.setSlc 0 ⟨st, [7], 100, some run0⟩

/-- A payload of Table 06-2 for a slice: quota, data region, area 0. -/
def sizes (n q d f : Nat) : List Byte := [byte n, 0#8] ++ be 2 q ++ be 3 d ++ [0#8] ++ be 2 f ++ zeros 6

theorem witness_slice_create :
    Mgr svc .sliceCreate (sizes 1 16000 1024 128) (fun rt p t =>
      let rq := t.request? rt p t.ph.at .sliceCreate calm
      p.length = 32 ∧ t.ph.issuing = true ∧ t.pow.drbgStop = false ∧ firstFail (sizeChecks rq) = none ∧
      (t.slc 1).st = .free ∧ (t.slot 0x41).retired = false ∧ t.quotaSum 1 + 16000 + t.retiredSlots ≤ 16128 ∧
      t.place 1024 128 0 = .ok (runAt 0x4F80 1024 128 0)) :=
  ⟨arrives_of _ _ _ _ (by decide +kernel), by decide +kernel⟩

theorem witness_place : svc.place 1024 128 0 = .ok (runAt 0x4F80 1024 128 0) ∧ (∀ q ∈ svc.runs, poolFirst ≤ q.base) := by
  decide +kernel

theorem witness_slice_commands :
    Mgr (sliced .created) .sliceBind ([0#8, 1#8] ++ be 4 7 ++ zeros 12) (fun rt p t =>
      let b := p.drop 16
      rt.tenant = none ∧ p.length = 34 ∧ 1 ≤ at8 b 1 ∧ at8 b 1 ≤ 4 ∧
      (∀ i, i < 4 → bindField b i < 2 ^ 20 ∧ (at8 b 1 ≤ i → bindField b i = 0)) ∧ (t.slc 0).st = .created ∧
      (∀ q ∈ bindPasids b, t.pasidTaken 0 q = false)) ∧
    Mgr (sliced .quiesced) .sliceBind ([0#8, 4#8] ++ be 4 7 ++ be 4 8 ++ be 4 10 ++ be 4 0xFFFFF) (fun rt p t =>
      let b := p.drop 16
      rt.tenant = none ∧ p.length = 34 ∧ 1 ≤ at8 b 1 ∧ at8 b 1 ≤ 4 ∧
      (∀ i, i < 4 → bindField b i < 2 ^ 20 ∧ (at8 b 1 ≤ i → bindField b i = 0)) ∧ (t.slc 0).st = .quiesced ∧
      (∀ q ∈ bindPasids b, t.pasidTaken 0 q = false)) ∧
    Mgr (sliced .quiesced) .sliceResume [0#8] (fun rt p t => rt.tenant = none ∧ p.length = 17 ∧ (t.slc 0).st = .quiesced) ∧
    Mgr (sliced .quiesced) .sliceQuiesce [0#8] (fun rt p t => rt.tenant = none ∧ p.length = 17 ∧ (t.slc 0).st = .quiesced) ∧
    Mgr (sliced .active) .sliceQuiesce [0#8] (fun rt p t => rt.tenant = none ∧ p.length = 17 ∧ (t.slc 0).st = .active) ∧
    Mgr (sliced .quiescing) .sliceQuiesce [0#8] (fun rt p t => rt.tenant = none ∧ p.length = 17 ∧ (t.slc 0).st = .quiescing) ∧
    Ten svc .sliceReset [0#8] (fun rt p t =>
      rt.tenant = some 0 ∧ p.length = 17 ∧ (t.slc 0).st ≠ .emigrating ∧ (t.slc 0).st ≠ .immigrating) ∧
    Mgr (sliced .created) .sliceRemove [0#8] (fun rt p t => rt.tenant = none ∧ p.length = 17 ∧ (t.slc 0).st = .created) ∧
    Mgr (sliced .quiesced) .sliceRemove [0#8] (fun rt p t => rt.tenant = none ∧ p.length = 17 ∧ (t.slc 0).st = .quiesced) ∧
    Ten svc .sliceStatus [0#8] (fun rt p _ => rt.tenant = some 0 ∧ p.length = 17) ∧
    Mgr svc .sliceStatus [63#8] (fun rt p _ => rt.tenant = none ∧ p.length = 17 ∧ at8 (p.drop 16) 0 = 63) := by
  and_intros <;> exact ⟨arrives_of _ _ _ _ (by decide +kernel), by decide +kernel⟩

theorem witness_slice_quota :
    Mgr svc .sliceQuota (sizes 0 200 1024 128) (fun rt p t =>
      let rq := t.request? rt p t.ph.at .sliceQuota calm
      p.length = 32 ∧ firstFail (sizeChecks rq) = none ∧ (t.slc 0).run = some run0 ∧
      firstFail (t.shrinkChecks 0 (p.drop 16) run0) = none ∧ dataOf (p.drop 16) = run0.data.len ∧
      ft0Of (p.drop 16) = areaLen run0.ft0 ∧ ft1Of (p.drop 16) = areaLen run0.ft1) ∧
    Mgr svc .sliceQuota (sizes 0 200 1024 192) (fun rt p t =>
      let rq := t.request? rt p t.ph.at .sliceQuota calm
      p.length = 32 ∧ firstFail (sizeChecks rq) = none ∧ (t.slc 0).run = some run0 ∧
      firstFail (t.shrinkChecks 0 (p.drop 16) run0) = none ∧ ft0Of (p.drop 16) ≠ areaLen run0.ft0 ∧ t.ruleUsers 0 = false ∧
      t.resize run0 1024 192 0 = .ok (runAt 0x4A00 1024 192 0)) := by
  and_intros <;> exact ⟨arrives_of _ _ _ _ (by decide +kernel), by decide +kernel⟩

theorem witness_slice_completions :
    ((waiting (sliced .quiescing) (.quiesce 0) .sliceQuiesce [0#8]).slc 0).st = .quiescing ∧
    (sliced .quiescing).sliceBusy 0 = false ∧ ((sliced .quiescing).ctx 0).written = true ∧
    (let s := waiting svc (.sliceReset 0) .sliceReset [0#8]
     (s.slc 0).st ≠ .quiescing ∧ s.sliceBusy 0 = false ∧ (s.ctx 0).written = true ∧ (s.ctx 0).drained = true ∧
     s.takeLive (fun l => l.job == .sliceReset 0) = some (waits (.sliceReset 0) .sliceReset [0#8], svc)) := by
  decide +kernel

theorem witness_channel_commands :
    Mgr fielded .channelInvalidate (be 8 0x2000 ++ be 2 255 ++ be 2 1 ++ zeros 4) (fun _ p t =>
      let b := p.drop 16
      p.length = 32 ∧ zeroAt b 12 4 = true ∧ 1 ≤ fld b 10 2 ∧ fld b 0 8 % 4096 = 0 ∧ fld b 8 2 + fld b 10 2 ≤ 256 ∧
      fld b 8 2 ≤ 255 ∧ t.table = some (fld b 0 8) ∧
      (∀ r ∈ t.recs, r.st = .green → ¬(fld b 8 2 ≤ r.ch ∧ r.ch < fld b 8 2 + fld b 10 2))) ∧
    Mgr fielded .channelInvalidate (be 8 0x2000 ++ be 2 255 ++ be 2 2 ++ zeros 4) (fun _ p _ =>
      let b := p.drop 16
      p.length = 32 ∧ zeroAt b 12 4 = true ∧ 256 < fld b 8 2 + fld b 10 2) ∧
    Mgr svc .channelStatus (be 2 255) (fun rt p _ => p.length = 18 ∧ fld (p.drop 16) 0 2 ≤ 255 ∧ rt.tenant = none) ∧
    Ten fielded .channelStatus (be 2 5) (fun rt p t => p.length = 18 ∧ fld (p.drop 16) 0 2 ≤ 255 ∧ rt.tenant = some 0 ∧
      (t.chan 5).entry ≠ [] ∧ entrySlice (t.chan 5).entry = 0) := by
  and_intros <;> exact ⟨arrives_of _ _ _ _ (by decide +kernel), by decide +kernel⟩

theorem witness_channel_completions :
    (let s := waiting fielded (.invalidate 0 256) .channelInvalidate (be 8 0x3000 ++ be 2 0 ++ be 2 1 ++ zeros 4)
     s.takeLive s.canInvalidate = some (waits (.invalidate 0 256) .channelInvalidate (be 8 0x3000 ++ be 2 0 ++ be 2 1 ++ zeros 4),
       fielded)) ∧
    (let s := waiting { fielded with cached := [] } (.held (.binding 5)) .fieldCommand []
     entry5.length = 64 ∧ s.live.find? (Live.wantsEntry 5) = some (waits (.held (.binding 5)) .fieldCommand []) ∧
     s.hp.d3hot = false ∧ s.dmaStop 64 = none ∧ s.usable entry5 = true ∧ (s.chan 5).evicted = false) ∧
    (let s := fielded
     s.pow.main = true ∧ s.ph.issuing = true ∧ s.ph.c % 1024 = 0 ∧ s.ph.phi = 0 ∧ s.ph.audited ≠ some s.ph.c ∧
     s.hp.d3hot = false ∧ s.dmaStop 64 = none ∧ s.cached = [(5, entry5)] ∧ entry5.length = 64 ∧ (zeros 64).length = 64 ∧
     zeros 64 ≠ entry5 ∧ s.live.any (Live.invalidates 5) = false ∧
     (waiting s (.invalidate 0 256) .channelInvalidate (be 8 0x3000 ++ be 2 0 ++ be 2 6 ++ zeros 4)).live.any
       (Live.invalidates 5) = true) := by
  decide +kernel

/-- The key specification of Table 09-4 in a payload: type, size, usage, fault mode. -/
def spec (type size usage fault : Nat) : List Byte :=
  [byte type, 0#8] ++ be 2 size ++ be 2 usage ++ [0#8, byte fault] ++ zeros 4

theorem witness_key_gen :
    Mgr svc .keyGen (be 2 0x80 ++ be 2 0 ++ spec 1 256 0x173 1) (fun rt p t =>
      let b := p.drop 16
      let q := specAt b
      let rq := t.request? rt p t.ph.at .keyGen calm
      p.length = 32 ∧ t.ph.issuing = true ∧ t.pow.drbgStop = false ∧ specReserved b = false ∧
      firstFail (t.specChecks rq.owner q) = none ∧ publicType q.type = false ∧ firstFail (t.parentChecks rq 0x80) = none ∧
      firstFail (t.targetChecks rq.owner 0) = none ∧ q.type ≠ 0x10 ∧ q.type ≠ 0x20 ∧ t.cacheReady = true) ∧
    Ten svc .keyGen (be 2 0x40 ++ be 2 0x3FFF ++ spec 0x10 1 0x84 3) (fun rt p t =>
      let b := p.drop 16
      let q := specAt b
      let rq := t.request? rt p t.ph.at .keyGen calm
      p.length = 32 ∧ t.ph.issuing = true ∧ t.pow.drbgStop = false ∧ specReserved b = false ∧
      firstFail (t.specChecks rq.owner q) = none ∧ publicType q.type = false ∧ firstFail (t.parentChecks rq 0x40) = none ∧
      firstFail (t.targetChecks rq.owner 0x3FFF) = none ∧ q.type = 0x10) := by
  and_intros <;> exact ⟨arrives_of _ _ _ _ (by decide +kernel), by decide +kernel⟩

theorem witness_key_derive :
    Ten svc .keyDerive (be 2 0x40 ++ be 2 0 ++ spec 2 128 0x100 1 ++ [0#8, 1#8, 0#8, 0#8, 0x4B#8]) (fun rt p t =>
      let b := p.drop 16
      let q := specAt b
      let rq := t.request? rt p t.ph.at .keyDerive calm
      1 ≤ at8 b 17 ∧ at8 b 17 ≤ 64 ∧ at8 b 18 ≤ 128 ∧ b.length = 20 + at8 b 17 + at8 b 18 ∧ t.ph.issuing = true ∧
      t.pow.drbgStop = false ∧ specReserved b = false ∧ at8 b 19 = 0 ∧ q.type = 2 ∧ firstFail (t.specChecks rq.owner q) = none ∧
      firstFail (t.keyChecks rq 0x40 (fun k => k.may uDerive)) = none ∧ firstFail (t.parentChecks rq 0x40) = none ∧
      t.cachedKey rq.owner 0x40 = some (key 0 1 0 0x173) ∧ prfFits 1 (at8 b 16) = true ∧ at8 b 16 = 0 ∧ t.laneInService = true ∧
      firstFail (t.targetChecks rq.owner 0) = none) :=
  ⟨arrives_of _ _ _ _ (by decide +kernel), by decide +kernel⟩

/-- A KEY.IMPORT payload under the manager root: wrapping slot, specification, length of the data. -/
def importing (w : Nat) (sp : List Byte) (len : Nat) : List Byte := be 2 0x80 ++ be 2 0 ++ sp ++ be 2 w ++ zeros 2 ++ desc len 1

/-- The premises of KEY.IMPORT that do not read the data. -/
def ImportFits (x : Ext) (rt : Route) (p : List Byte) (t : State) : Prop :=
  let b := p.drop 16
  let q := specAt b
  let rq := t.request? rt p t.ph.at .keyImport x
  p.length = 52 ∧ t.ph.issuing = true ∧ t.pow.drbgStop = false ∧ specReserved b = false ∧ zeroAt b 18 2 = true ∧
  firstFail (t.specChecks rq.owner q) = none ∧ firstFail (t.importChecks rq) = none

theorem importFits_of {x : Ext} {rt : Route} {p : List Byte} {t : State} (h : ImportFits calm rt p t) : ImportFits x rt p t := h

/-- The generator of P-256 as a public encoding. -/
def genP256 : List Byte := ((namedCurve 1).map (fun c => c.encode (some (c.gx, c.gy)))).getD []

theorem witness_key_import (data secret : List Byte) (hl : data.length = 40)
    (ho : kwpOpen (key 0xFF 1 0 0x173).secret data = some secret) (hs : secret.length = 32) :
    Mgr svc .keyImport (importing 0xFFFF (spec 0x31 0 8 0) 60) (fun rt p t =>
      let x : Ext := ⟨[.data (zeros 60)], false, false, 0, [], false, [], none⟩
      let rq := t.request? rt p t.ph.at .keyImport x
      ImportFits x rt p t ∧ fld (p.drop 16) 16 2 = 0xFFFF ∧ t.input rq 0 (descAt (p.drop 16) 20) = .data (zeros 60) ∧
      (specAt (p.drop 16)).type ≠ 0x11) ∧
    Mgr svc .keyImport (importing 0xFFFF (spec 0x11 1 8 0) 65) (fun rt p t =>
      let x : Ext := ⟨[.data genP256], false, false, 0, [], false, [], none⟩
      let rq := t.request? rt p t.ph.at .keyImport x
      ImportFits x rt p t ∧ fld (p.drop 16) 16 2 = 0xFFFF ∧ t.input rq 0 (descAt (p.drop 16) 20) = .data genP256 ∧
      (∀ c, t.curve rq.owner 1 = some c → firstFail (c.pointChecks genP256) = none)) ∧
    Mgr svc .keyImport (importing 0x80 (spec 1 256 0x173 1) 40) (fun rt p t =>
      let x : Ext := ⟨[.data data], false, false, 0, [], false, [], none⟩
      let rq := t.request? rt p t.ph.at .keyImport x
      let q := specAt (p.drop 16)
      ImportFits x rt p t ∧ fld (p.drop 16) 16 2 = 0x80 ∧ t.cachedKey rq.owner 0x80 = some (key 0xFF 1 0 0x173) ∧
      t.input rq 0 (descAt (p.drop 16) 20) = .data data ∧ kwpOpen (key 0xFF 1 0 0x173).secret data = some secret ∧
      secret.length = t.secretLen rq.owner q.type q.size ∧ firstFail (t.scalarChecks rq.owner q.type q.size secret) = none) := by
  refine ⟨⟨arrives_of _ _ _ _ (by decide +kernel), ?_⟩, ⟨arrives_of _ _ _ _ (by decide +kernel), ?_⟩,
    ⟨arrives_of _ _ _ _ (by decide +kernel), ?_⟩⟩
  · refine ⟨importFits_of (by unfold ImportFits; decide +kernel), by decide +kernel, by decide +kernel, by decide +kernel⟩
  · refine ⟨importFits_of (by unfold ImportFits; decide +kernel), by decide +kernel, by decide +kernel, ?_⟩
    intro c hc
    have hc' : namedCurve 1 = some c := hc
    have h : ∀ d, namedCurve 1 = some d → (firstFail (d.pointChecks genP256)).isNone = true := by
      have : (namedCurve 1).all (fun d => (firstFail (d.pointChecks genP256)).isNone) = true := by decide +kernel
      intro d hd; rw [hd] at this; exact this
    exact Option.isNone_iff_eq_none.mp (h c hc')
  · refine ⟨importFits_of (by unfold ImportFits; decide +kernel), by decide +kernel, ?_, ?_, ho, ?_, ?_⟩
    · show (svc.served _ _ _).cachedKey 0xFF 0x80 = _; decide +kernel
    · exact manager_input (show 64 ≤ 0xFF by decide) rfl rfl (by decide +kernel) hl
    · rw [hs]; show 32 = (svc.served .mgr .keyImport _).secretLen 0xFF 1 256; decide +kernel
    · rfl

/-- The manager key in slot 0x81 may leave the module. -/
def exportable : Key := { key 0xFF 2 0x80 0x173 with attr := { (key 0xFF 2 0x80 0x173).attr with flags := 1 } }
def exporting : State := svc.setSlot 0x81 ⟨0, false, some exportable, none⟩

theorem witness_key_wrap :
    Mgr exporting .keyWrap (be 2 0x80 ++ be 2 0x81 ++ zeros 4 ++ desc 82 2) (fun rt p t =>
      let b := p.drop 16
      let rq := t.request? rt p t.ph.at .keyWrap calm
      p.length = 40 ∧ t.pow.drbgStop = false ∧ t.laneInService = true ∧ zeroAt b 4 4 = true ∧
      firstFail (t.keyChecks rq 0x80 (fun k => k.attr.type == 1 && k.may uWrap)) = none ∧
      firstFail (t.keyChecks rq 0x81 Key.usable) = none ∧ bit exportable.attr.flags 0 = true ∧
      firstFail (t.needDesc rq 8 2) = none ∧ 42 + kwpLen (t.material exportable).length ≤ (descAt b 8).len ∧
      0x80 ∈ t.ks.cache ∧ 0x81 ∈ t.ks.cache ∧ calm.keyErrs = [] ∧ t.keyFor rq.owner 0x80 = some (key 0xFF 1 0 0x173) ∧
      t.keyFor rq.owner 0x81 = some exportable ∧ t.dmaStop rq.owner = none) :=
  ⟨arrives_of _ _ _ _ (by decide +kernel), by decide +kernel⟩

/-- The header of a wrap blob of an AES-256 key; a salt and 40 bytes of KWP output follow. -/
def blobHead : List Byte := be 2 0x0901 ++ be 2 82 ++ (key 0 2 0x40 0x173).attr.blob.bytes ++ zeros 2

/-- The premises of KEY.UNWRAP that do not read the blob. -/
def UnwrapFits (x : Ext) (rt : Route) (p : List Byte) (t : State) : Prop :=
  let b := p.drop 16
  let rq := t.request? rt p t.ph.at .keyUnwrap x
  p.length = 40 ∧ t.ph.issuing = true ∧ t.pow.drbgStop = false ∧ t.laneInService = true ∧
  firstFail (t.keyChecks rq 0x80 (fun k => k.attr.type == 1 && k.may uUnwrap)) = none ∧
  firstFail (t.parentChecks rq 0x80) = none ∧ firstFail (t.targetChecks rq.owner 0xFF) = none ∧
  firstFail (t.needDesc rq 8 1) = none ∧ (descAt b 8).len ≤ 4096 ∧
  t.cachedKey rq.owner 0x80 = some (key 0xFF 1 0 0x173)

theorem unwrapFits_of {x : Ext} {rt : Route} {p : List Byte} {t : State} (h : UnwrapFits calm rt p t) : UnwrapFits x rt p t := h

theorem witness_key_unwrap (body plain : List Byte) (hb : body.length = 56) (hp : plain.length = 32)
    (ho : openBlob (key 0xFF 1 0 0x173).secret (blobHead ++ body) = some plain) :
    Mgr svc .keyUnwrap (be 2 0x80 ++ be 2 0x80 ++ be 2 0xFF ++ be 2 3 ++ desc 82 1) (fun rt p t =>
      let x : Ext := ⟨[.data (blobHead ++ body)], false, false, 0, [], false, [], none⟩
      let rq := t.request? rt p t.ph.at .keyUnwrap x
      let blob := blobHead ++ body
      UnwrapFits x rt p t ∧
      t.input rq 0 (descAt (p.drop 16) 8) = .data blob ∧ fld blob 0 2 = 0x0901 ∧ 58 ≤ blob.length ∧ fld blob 2 2 = blob.length ∧
      fld blob 24 2 = 0 ∧ openBlob (key 0xFF 1 0 0x173).secret blob = some plain ∧ (attrAt blob 4).type = 1 ∧
      plain.length = (attrAt blob 4).size / 8 ∧ firstFail (blobChecks (attrAt blob 4)) = none) := by
  have hh : (blobHead ++ body).length = 82 := by rw [List.length_append, hb]; rfl
  have hz : (attrAt (blobHead ++ body) 4).size = 256 := rfl
  refine ⟨arrives_of _ _ _ _ (by decide +kernel), unwrapFits_of (by unfold UnwrapFits; decide +kernel), ?_, rfl, by omega, ?_,
    rfl, ho, rfl, by rw [hz]; omega, ?_⟩
  · exact manager_input (show 64 ≤ 0xFF by decide) rfl rfl (by decide +kernel) hh
  · rw [hh]; rfl
  · rw [show attrAt (blobHead ++ body) 4 = attrAt blobHead 4 from rfl]; decide +kernel

theorem witness_key_destroy :
    Ten svc .keyDestroy (be 2 0x100) (fun rt p t =>
      let rq := t.request? rt p t.ph.at .keyDestroy calm
      p.length = 18 ∧ fld p 16 2 = 0x100 ∧ t.keyFor rq.owner 0x100 = some (key 0 2 0x40 0x173) ∧
      (∀ l ∈ t.live, l.job ≠ .keyDestroy 0x100) ∧ (key 0 2 0x40 0x173).frozen = false ∧ (key 0 2 0x40 0x173).isRoot = false) ∧
    (let s := waiting svc (.keyDestroy 0x100) .keyDestroy (be 2 0x100)
     s.keyBusy 0x100 = false ∧ (s.slot 0x100).gen < 0xFFFFFF ∧
     s.takeLive (fun l => l.job == .keyDestroy 0x100) = some (waits (.keyDestroy 0x100) .keyDestroy (be 2 0x100), svc)) :=
  ⟨⟨arrives_of _ _ _ _ (by decide +kernel), by decide +kernel⟩, by decide +kernel⟩

theorem witness_key_attr :
    Ten svc .keyAttr (be 2 0x100 ++ be 2 0x1FF ++ [2#8, 1#8] ++ zeros 2) (fun rt p t =>
      let b := p.drop 16
      let rq := t.request? rt p t.ph.at .keyAttr calm
      p.length = 24 ∧ zeroAt b 6 2 = true ∧ fld b 2 2 < 512 ∧ at8 b 4 = 2 ∧ at8 b 5 ≤ 1 ∧
      t.keyFor rq.owner 0x100 = some (key 0 2 0x40 0x173) ∧ t.doomed rq 0x100 = false ∧
      (key 0 2 0x40 0x173).frozen = false ∧ (key 0 2 0x40 0x173).isRoot = false) ∧
    Ten svc .keyAttr (be 2 0x40 ++ zeros 6) (fun rt p t =>
      let b := p.drop 16
      let rq := t.request? rt p t.ph.at .keyAttr calm
      p.length = 24 ∧ zeroAt b 6 2 = true ∧ fld b 2 2 = 0 ∧ at8 b 4 = 0 ∧ at8 b 5 = 0 ∧
      t.keyFor rq.owner 0x40 = some (key 0 1 0 0x173) ∧ t.doomed rq 0x40 = false ∧ (key 0 1 0 0x173).frozen = false) := by
  and_intros <;> exact ⟨arrives_of _ _ _ _ (by decide +kernel), by decide +kernel⟩

theorem witness_key_cache :
    (let s := waiting { svc with ks := { svc.ks with cache := [] } } (.held (.key 0x100)) .sealOnce (be 2 0x100)
     s.live.any (Live.wantsKey 0x100) = true ∧ s.ks.cache.length < s.cacheRoom ∧
     (s.slot 0x100).key = some (key 0 2 0x40 0x173) ∧ (key 0 2 0x40 0x173).flash.okA = true ∧
     (key 0 2 0x40 0x173).attr.type ≠ 0x30 ∧ (s.slot 0x100).gen < 0xFFFFFF) := by
  decide +kernel

/-- The sweeper stands at a slot that holds a key under a parent. -/
def swept (parent : Nat) : State :=
  { svc with ks := { svc.ks with sweepAt := 0x100, slots := [(0x40, ⟨0, false, some (key 0 1 0 0x173), none⟩),
      (0x100, ⟨0, false, some { key 0 2 parent 0x173 with flash := ⟨true, true, 0x100000, 0x100000, 1⟩ }, none⟩)] } }

theorem witness_sweeper :
    (let s := swept 0x41
     let k : Key := { key 0 2 0x41 0x173 with flash := ⟨true, true, 0x100000, 0x100000, 1⟩ }
     s.pow.main = true ∧ 0x40 ≤ s.ks.sweepAt ∧ s.ks.sweepAt < 16383 ∧ (s.slot s.ks.sweepAt).key = some k ∧
     s.keyBusy s.ks.sweepAt = false ∧ s.orphaned k = true ∧ (s.slot s.ks.sweepAt).gen < 0xFFFFFF) ∧
    (let s := swept 0x40
     let k : Key := { key 0 2 0x40 0x173 with flash := ⟨true, true, 0x100000, 0x100000, 1⟩ }
     s.pow.main = true ∧ 0x40 ≤ s.ks.sweepAt ∧ s.ks.sweepAt < 16383 ∧ (s.slot s.ks.sweepAt).key = some k ∧
     s.keyBusy s.ks.sweepAt = false ∧ s.orphaned k = false ∧ k.flash.okA = true ∧ k.flash.okB = true ∧
     s.ph.c - k.flash.ageA ≤ 16777216 ∧ s.ph.c - k.flash.ageB ≤ 16777216) := by decide +kernel

theorem witness_orphans :
    let k := key 0 2 0x40 0x173
    1 < k.attr.level ∧ (({ svc with ks := { svc.ks with slots := [] } } : State).slot k.attr.parent).key = none ∧
    ((svc.slot k.attr.parent).key = some (key 0 1 0 0x173) ∧ (svc.slot k.attr.parent).gen = k.attr.parentGen ∧
      (key 0 1 0 0x173).attr.level ≤ 1) ∧
    (let s := svc.setSlot 0x40 ⟨1, false, some (key 0 1 0 0x173), none⟩
     (s.slot k.attr.parent).key = some (key 0 1 0 0x173) ∧ (s.slot k.attr.parent).gen ≠ k.attr.parentGen) := by decide +kernel

theorem witness_foreign_keys :
    let s := waiting svc .restart .sysInfo []
    let rq := (waits .restart .sysInfo []).rq
    s.live = [waits .restart .sysInfo []] ∧ (s.slot 0x101).key = none ∧ (s.slot 0x80).key = some (key 0xFF 1 0 0x173) ∧
    (key 0xFF 1 0 0x173).attr.owner ≠ rq.owner := by decide +kernel

theorem witness_removed_slice : svc.Canonical ∧ (svc.slc 0).run = some run0 := by
  refine ⟨?_, by decide +kernel⟩
  constructor <;> decide +kernel

theorem witness_canonical_step : State.reset.Canonical ∧ ∃ t, step State.reset = .next t := by
  refine ⟨?_, ?_⟩
  · constructor <;> decide +kernel
  · exact ⟨_, rfl⟩

/-- A SEAL.ONCE payload without inputs: key, algorithm, operation, IV length, then zeros. -/
def sealing (k alg op ivLen n : Nat) : List Byte := be 2 k ++ [byte alg, byte op, 16#8, byte ivLen] ++ zeros n

/-- A stream of CMAC under the tenant's key, as SEAL.INIT opens it. -/
def stream5 : Stream := Stream.start 0 5 0x100 (key 0 2 0x40 0x173).secret algCmac 1 16 [] [] 0
def streaming : State := svc.setCtx 0 { svc.ctx 0 with streams := [stream5] }

/-- The premises of SEAL.ONCE on a payload without inputs. -/
def OnceFits (rt : Route) (p : List Byte) (t : State) : Prop :=
  let b := p.drop 16
  let rq := t.request? rt p t.ph.at .sealOnce calm
  let k := fld b 0 2
  let a := (((t.touchKey k).tookIn rq 24).tookIn rq 40).drewDelay
  let r := sealOnce b rq.owner k (key 0 2 0x40 0x173).secret (a.sealIv b).1 [] []
  p.length = 104 ∧ t.pow.drbgStop = false ∧ t.laneInService = true ∧ firstFail (sealForm b 7) = none ∧
  (at8 b 2 = algCmac → descAbsent b 56 = true) ∧ ((at8 b 3 = 2 ∧ tagged (at8 b 2) = true) ∨ zeroAt b 72 16 = true) ∧
  firstFail (t.dataDesc rq 24) = none ∧ firstFail (t.dataDesc rq 40) = none ∧ firstFail (t.mayDesc rq 56 2) = none ∧
  dataOk (at8 b 2) (at8 b 3) (at8 b 5) (descLen b 40) = true ∧ outLen (at8 b 2) (at8 b 3) (descLen b 40) ≤ descLen b 56 ∧
  firstFail (t.sealKey rq k (at8 b 2) (at8 b 3)) = none ∧ t.cachedKey rq.owner k = some (key 0 2 0x40 0x173) ∧
  descAbsent rq.body 24 = true ∧ descAbsent rq.body 40 = true ∧ r.2.2.2.length ≤ descLen b 56

theorem witness_seal_once :
    Ten svc .sealOnce (sealing 0x100 algCmac 1 0 82) OnceFits ∧ Ten svc .sealOnce (sealing 0x100 algGcm 1 12 82) OnceFits := by
  and_intros <;> exact ⟨arrives_of _ _ _ _ (by decide +kernel), by unfold OnceFits; decide +kernel⟩

theorem witness_streams :
    Ten svc .sealInit (sealing 0x100 algCmac 1 0 42) (fun rt p t =>
      let b := p.drop 16
      let rq := t.request? rt p t.ph.at .sealInit calm
      p.length = 64 ∧ t.pow.drbgStop = false ∧ t.laneInService = true ∧ firstFail (sealForm b 5) = none ∧ at8 b 2 = algCmac ∧
      fld b 40 8 = 0 ∧ firstFail (t.dataDesc rq 24) = none ∧ firstFail (t.sealKey rq 0x100 algCmac 1) = none ∧
      t.streamCount (ctxOf rq.owner) < 16 ∧ (t.ctx (ctxOf rq.owner)).handle ≤ 0xFFFF ∧
      t.cachedKey rq.owner 0x100 = some (key 0 2 0x40 0x173) ∧ descAbsent rq.body 24 = true) ∧
    Ten streaming .sealAbort (be 2 5 ++ zeros 6) (fun rt p t =>
      let rq := t.request? rt p t.ph.at .sealAbort calm
      p.length = 24 ∧ zeroAt (p.drop 16) 2 6 = true ∧ t.laneInService = true ∧ t.streamBusy rq 5 = false) ∧
    Ten streaming .sealUpdate (be 2 5 ++ zeros 38) (fun rt p t =>
      let b := p.drop 16
      let rq := t.request? rt p t.ph.at .sealUpdate calm
      t.pow.drbgStop = false ∧ t.laneInService = true ∧ zeroAt b 2 6 = true ∧ stream5.key ≠ noKeySlot ∧ p.length = 56 ∧
      t.streamBusy rq 5 = false ∧ t.stream (ctxOf rq.owner) 5 = some stream5 ∧ descAbsent b 24 = true ∧
      firstFail (t.dataDesc rq 8) = none ∧ firstFail (t.mayDesc rq 24 2) = none ∧
      firstFail (stream5.partChecks false (descLen b 8) (descLen b 24)) = none ∧ firstFail (t.partKey rq stream5) = none ∧
      t.cachedKey rq.owner stream5.key = some (key 0 2 0x40 0x173) ∧ descAbsent rq.body 8 = true) ∧
    Ten streaming .sealFinal (be 2 5 ++ zeros 54) (fun rt p t =>
      let b := p.drop 16
      let rq := t.request? rt p t.ph.at .sealFinal calm
      p.length = 72 ∧ t.streamBusy rq 5 = false ∧ t.stream (ctxOf rq.owner) 5 = some stream5 ∧
      descAbsent b 24 = true ∧ zeroAt b 40 16 = true ∧ firstFail (t.dataDesc rq 8) = none ∧ firstFail (t.mayDesc rq 24 2) = none ∧
      firstFail (stream5.partChecks true (descLen b 8) (descLen b 24)) = none ∧ firstFail (t.partKey rq stream5) = none ∧
      t.cachedKey rq.owner stream5.key = some (key 0 2 0x40 0x173) ∧ descAbsent rq.body 8 = true) := by
  and_intros <;> exact ⟨arrives_of _ _ _ _ (by decide +kernel), by decide +kernel⟩

/-- A bulk operation of slice 0 with some segments left, active on lane 0. -/
def bulk0 (n : Nat) : Bulk := ⟨0, 0x100, n, 0, .ok, 0, [], none, [], none, none⟩
def sealed (n : Nat) : State :=
  (waiting svc (.bulk (bulk0 n)) .sealOnce []).setLane 0 { Lane.init with st := .inService, on := true, work := [.bulk 0] }

theorem witness_segments : [1, 2].all (fun n =>
    decide (((sealed n).lane 0).bulkCtx = some 0) &&
    decide (((sealed n).endWork (.bulk 0)).takeLive (Live.bulkOf 0)
      = some (waits (.bulk (bulk0 n)) .sealOnce [], { (sealed n).endWork (.bulk 0) with live := [] }))) = true := by decide +kernel

/-- Slot 0x102: an HMAC key of slice 0. -/
def macKey : Key := { key 0 2 0x40 0x100 with attr := { (key 0 2 0x40 0x100).attr with type := 2 } }
def hashing : State :=
  { svc.setSlot 0x102 ⟨0, false, some macKey, none⟩ with ks := { (svc.setSlot 0x102 ⟨0, false, some macKey, none⟩).ks with
      cache := svc.ks.cache ++ [0x102] } }

theorem witness_hash :
    Ten hashing .hashDigest ([0x12#8, 1#8] ++ be 2 0 ++ [32#8] ++ zeros 83) (fun rt p t =>
      let b := p.drop 16
      let rq := t.request? rt p t.ph.at .hashDigest calm
      p.length = 104 ∧ (Hash.ofAlg (at8 b 0)).isSome = true ∧ at8 b 1 = 1 ∧ zeroAt b 5 3 = true ∧ zeroAt b 24 64 = true ∧
      fld b 2 2 = 0 ∧ hashTagOk 32 0 (at8 b 4) = true ∧ firstFail (t.dataDesc rq 8) = none ∧ descAbsent rq.body 8 = true) ∧
    Ten hashing .hashDigest ([0x12#8, 1#8] ++ be 2 0x102 ++ [16#8] ++ zeros 83) (fun rt p t =>
      let b := p.drop 16
      let rq := t.request? rt p t.ph.at .hashDigest calm
      p.length = 104 ∧ (Hash.ofAlg (at8 b 0)).isSome = true ∧ at8 b 1 = 1 ∧ zeroAt b 5 3 = true ∧ zeroAt b 24 64 = true ∧
      hashTagOk 32 0x102 (at8 b 4) = true ∧ firstFail (t.dataDesc rq 8) = none ∧ descAbsent rq.body 8 = true ∧
      t.pow.drbgStop = false ∧ firstFail (t.keyChecks rq 0x102 (fun key => key.may uMac)) = none ∧
      firstFail (t.typeCheck rq.owner 0x102 2) = none ∧ t.cachedKey rq.owner 0x102 = some macKey) := by
  and_intros <;> exact ⟨arrives_of _ _ _ _ (by decide +kernel), by decide +kernel⟩

theorem witness_counter_modes : (zeros 16).length = 16 ∧ (zeros 24).length = 24 ∧ (zeros 32).length = 32 ∧
    (zeros 14).length ≤ 14 ∧ (zeros 12).length = 12 := by decide

/-! The multiplier. -/

theorem witness_accumulator :
    let m : Mult := { State.reset.mult with acc := List.replicate 16 0 }
    let a : Word := 0xFFFFFFFFFF#40
    let b : List Word := List.replicate 16 a
    m.acc.length = 16 ∧ b.length ≤ 16 ∧ (∀ j, j < b.length → (m.acc.getD j 0).toNat + a.toNat * (b.getD j 0).toNat < 2 ^ 96) ∧
    (m.acc.getD 1 0).toNat + (m.acc.getD 0 0).toNat / 2 ^ 40 < 2 ^ 96 := by decide +kernel

/-- References of one word each from 0x4A00 on, `n` of them. -/
def refs (n : Nat) : List Byte := (List.range n).flatMap (fun i => be 3 (0x4A00 + i) ++ be 2 1 ++ [0#8])

/-- The operand 5, 3, 7 in the first words of slice 0. -/
def operands : State := { svc with wm := ⟨[(0x4A00, 5), (0x4A01, 3), (0x4A02, 7)], []⟩ }

/-- A product needs two words: its references with their last one twice as long. -/
def refs2 : List Byte := refs 2 ++ be 3 0x4A02 ++ be 2 2 ++ [0#8]

/-- The premises of a BN command at entry. -/
def BnFits (o : Op) (rt : Route) (p : List Byte) (t : State) : Prop :=
  let b := p.drop 16
  let rq := t.request? rt p t.ph.at o calm
  b.length = 6 * (bnRefs o b).length ∧ (∀ i, i < (bnRefs o b).length → refReserved b (6 * i) = false) ∧
  (∀ r ∈ bnRefs o b, 1 ≤ r.words ∧ r.words ≤ 256) ∧ (∀ r ∈ bnReads o b, t.holdsAll rq.owner .r r = true) ∧
  t.holdsAll rq.owner .w (bnOut o b) = true ∧ bnLengthOk o b = true ∧ bnOverlap o b = false ∧
  t.mustWait rq = false

theorem witness_bn_commands :
    Ten operands .bnMac refs2 (BnFits .bnMac) ∧ Ten operands .bnMul refs2 (BnFits .bnMul) ∧
    Ten operands .bnModmul (refs 4) (BnFits .bnModmul) ∧ Ten operands .bnModinv (refs 3) (BnFits .bnModinv) ∧
    Ten operands .bnModexp (refs 4) (BnFits .bnModexp) := by
  and_intros <;> exact ⟨arrives_of _ _ _ _ (by decide +kernel), by unfold BnFits; decide +kernel⟩

/-- A BN command of slice 0 that waits for its last boundary. -/
def bnLast (o : Op) (b : List Byte) : State := waiting operands (.mult 0 1 0 [] []) o b

/-- The premises that all five share at that boundary. -/
def BnEnds (o : Op) (b : List Byte) : Prop :=
  let s := bnLast o b
  let out := bnOut o b
  s.multCtx = some 0 ∧ s.live.find? (Live.onMult 0) = some (waits (.mult 0 1 0 [] []) o b) ∧ bnLengthOk o b = true ∧
  1 ≤ out.words ∧ (∀ r ∈ bnRefs o b, r.words ≤ 256) ∧ s.mult.acc.length = 16 ∧
  s.refused (bnAccesses .sequencer 0 o b) = none ∧ (List.range out.words).all (fun i => !s.isGuard (out.addr + i) &&
    decide (out.addr + i < 0x40000)) = true ∧
  (∀ r ∈ bnReads o b, (s.meet calm.bad (bnReads o b)).badWord r = none)

/-- A modular inverse of 5 modulo 7: references to 0x4A00, 0x4A02 and 0x4A03. -/
def refsInv : List Byte := refs 1 ++ be 3 0x4A02 ++ be 2 1 ++ [0#8] ++ be 3 0x4A03 ++ be 2 1 ++ [0#8]

theorem witness_bn_results :
    BnEnds .bnMul refs2 ∧ BnEnds .bnMac refs2 ∧
    (let v := fun j => operands.wmNum (refAt (refs 4) (6 * j)).addr (refAt (refs 4) (6 * j)).words
     BnEnds .bnModmul (refs 4) ∧ BnEnds .bnModexp (refs 4) ∧ v 2 % 2 = 1 ∧ 3 ≤ v 2 ∧ v 0 < v 2 ∧ v 1 < v 2) ∧
    (let v := fun j => operands.wmNum (refAt refsInv (6 * j)).addr (refAt refsInv (6 * j)).words
     BnEnds .bnModinv refsInv ∧ v 1 % 2 = 1 ∧ 3 ≤ v 1 ∧ v 0 < v 1 ∧ v 0 ≠ 0 ∧ Nat.gcd (v 0) (v 1) = 1) := by
  unfold BnEnds; decide +kernel

/-- A BN command whose first operand lies outside what its slice may read. -/
theorem witness_bn_refused :
    let b := be 3 0x100 ++ be 2 1 ++ [0#8] ++ be 3 0x4A01 ++ be 2 1 ++ [0#8] ++ be 3 0x4A02 ++ be 2 2 ++ [0#8]
    let s := bnLast .bnMul b
    let out := bnOut .bnMul b
    s.multCtx = some 0 ∧ s.live.find? (Live.onMult 0) = some (waits (.mult 0 1 0 [] []) .bnMul b) ∧ bnLengthOk .bnMul b = true ∧
    1 ≤ out.words ∧ (∀ r ∈ bnRefs .bnMul b, r.words ≤ 256) ∧ s.mult.acc.length = 16 ∧
    (List.range out.words).all (fun i => !s.isGuard (out.addr + i) && decide (out.addr + i < 0x40000)) = true ∧
    (s.refused (bnAccesses .sequencer 0 .bnMul b)).isSome = true := by decide +kernel

/-- A key of slice 0 of another type. -/
def keyOf (type size usage fault : Nat) : Key :=
  { key 0 2 0x40 usage with attr := { (key 0 2 0x40 usage).attr with type := type, size := size, faultMode := fault } }

/-- The manager's HSS public key. -/
def hssPub : Key := { key 0xFF 2 0x80 8 with attr := { (key 0xFF 2 0x80 8).attr with type := 0x31, size := 0, faultMode := 0 } }

/-- Slice 0 with an EC pair, an RSA pair and an HSS key; the manager with an HSS public key. -/
def paired : State :=
  { svc with ks := { svc.ks with
      slots := [(0x40, ⟨0, false, some (key 0 1 0 0x173), none⟩), (0x80, ⟨0, false, some (key 0xFF 1 0 0x173), none⟩),
        (0x82, ⟨0, false, some hssPub, none⟩), (0x101, ⟨0, false, some (keyOf 0x10 1 0x84 3), none⟩),
        (0x102, ⟨0, false, some (keyOf 0x11 1 8 0), none⟩), (0x103, ⟨0, false, some (keyOf 0x21 2048 1 0), none⟩),
        (0x104, ⟨0, false, some (keyOf 0x20 2048 2 3), none⟩), (0x105, ⟨0, false, some (keyOf 0x30 0 4 3), none⟩)]
      cache := [0x82, 0x101, 0x102, 0x103, 0x104, 0x105] } }

/-- A payload of Table 12-7: key, SCHEME, FORM 0 over SHA-256, signature length, digest, no descriptors. -/
def signing (k sigLen : Nat) : List Byte := be 2 k ++ [1#8, 0x12#8, 0#8, 0#8] ++ be 2 sigLen ++
    List.replicate 32 0xA5#8 ++ zeros 64

/-- One under HSS of a message of 16 bytes, with room for, or a signature of, 5,716 bytes. -/
def hssSigning (k sigLen dir : Nat) : List Byte := be 2 k ++ [4#8, 0#8, 1#8, 0#8] ++ be 2 sigLen ++ zeros 64 ++
    desc 16 1 ++ desc 5716 dir

theorem witness_pk_commands :
    Ten paired .pkSign (signing 0x101 0) (fun rt p t =>
      let b := p.drop 16
      t.cachedKey (rt.tenant.getD 0xFF) 0x101 = some (keyOf 0x10 1 0x84 3) ∧ b.length = 104 ∧
      firstFail (t.signChecks (t.request? rt p t.ph.at .pkSign calm)) = none ∧ pkScheme b ≠ 4 ∧ pkForm b = 0) ∧
    Ten paired .pkVerify (signing 0x102 64 ++ zeros 64) (fun rt p t =>
      let b := p.drop 16
      t.cachedKey (rt.tenant.getD 0xFF) 0x102 = some (keyOf 0x11 1 8 0) ∧ b.length = 104 + fld b 6 2 ∧ descAbsent b 88 = true ∧
      firstFail (t.pkChecks (t.request? rt p t.ph.at .pkVerify calm) true) = none ∧ fld b 6 2 = t.sigLen (keyOf 0x11 1 8 0) ∧
      pkForm b = 0) ∧
    Ten paired .pkAgree (be 2 0x101 ++ be 2 0x40 ++ be 2 0x3FFF ++ be 2 0x110 ++ zeros 65) (fun rt p t =>
      let b := p.drop 16
      let rq := t.request? rt p t.ph.at .pkAgree calm
      let k := keyOf 0x10 1 0x84 3
      t.cachedKey (rt.tenant.getD 0xFF) 0x101 = some k ∧ 8 ≤ b.length ∧ t.ph.issuing = true ∧ t.pow.drbgStop = false ∧
      firstFail (t.keyChecks rq 0x101 (fun k => k.may uAgree)) = none ∧
      b.length = 8 + t.publicLen rq.owner k.attr.type k.attr.size ∧ fld b 6 2 ≠ 0 ∧
      (∀ i, i < 16 → bit (fld b 6 2) i = true → i = uDerive ∨ i = uMac) ∧ firstFail (t.parentChecks rq 0x40) = none ∧
      fld b 4 2 ≠ 0 ∧
      firstFail (t.targetChecks rq.owner 0x3FFF) = none) ∧
    Ten paired .pkEncrypt (be 2 0x103 ++ [0x12#8, 0#8] ++ be 2 190 ++ zeros 192) (fun rt p t =>
      let b := p.drop 16
      t.cachedKey (rt.tenant.getD 0xFF) 0x103 = some (keyOf 0x21 2048 1 0) ∧
      firstFail (t.oaepChecks (t.request? rt p t.ph.at .pkEncrypt calm) uEncrypt 0x21) = none ∧
      fld b 4 2 ≤ 2048 / 8 - 2 * (oaepHash b).len - 2) ∧
    Ten paired .pkDecrypt (be 2 0x104 ++ [0x12#8, 0#8] ++ be 2 256 ++ zeros 258) (fun rt p t =>
      let b := p.drop 16
      t.cachedKey (rt.tenant.getD 0xFF) 0x104 = some (keyOf 0x20 2048 2 3) ∧
      firstFail (t.oaepChecks (t.request? rt p t.ph.at .pkDecrypt calm) uDecrypt 0x20) = none ∧ fld b 4 2 = 2048 / 8) := by
  and_intros <;> exact ⟨arrives_of _ _ _ _ (by decide +kernel), by decide +kernel⟩

/-- The premises of a command under HSS that do not read the message. -/
def HssFits (o : Op) (x : Ext) (rt : Route) (p : List Byte) (t : State) : Prop :=
  let b := p.drop 16
  firstFail (t.pkChecks (t.request? rt p t.ph.at o x) (o == .pkVerify)) = none ∧ b.length = 104 ∧ pkForm b = 1 ∧ pkScheme b = 4 ∧
  descAbsent b 88 = false ∧ 5716 ≤ (descAt b 88).len

theorem hssFits_of {o : Op} {x : Ext} {rt : Route} {p : List Byte} {t : State}
    (h : HssFits o calm rt p t) : HssFits o x rt p t := h

theorem witness_hss_verify :
    Mgr paired .pkVerify (hssSigning 0x82 5716 1) (fun rt p t =>
      let x : Ext := ⟨[.data (zeros 16), .data (zeros 5716)], false, false, 0, [], false, [], none⟩
      let b := p.drop 16
      let rq := t.request? rt p t.ph.at .pkVerify x
      HssFits .pkVerify x rt p t ∧ t.cachedKey 0xFF 0x82 = some hssPub ∧ (descAt b 88).len = fld b 6 2 ∧
      fld b 6 2 = t.sigLen hssPub ∧ t.input rq 0 (descAt b 72) = .data (zeros 16) ∧
      t.input rq 1 (descAt b 88) = .data (zeros 5716)) :=
  ⟨arrives_of _ _ _ _ (by decide +kernel), hssFits_of (by unfold HssFits; decide +kernel), by decide +kernel, by decide +kernel,
    by decide +kernel, manager_input (show 64 ≤ 0xFF by decide) rfl rfl (by decide +kernel) (List.length_replicate ..),
    manager_input (show 64 ≤ 0xFF by decide) rfl rfl (by decide +kernel) (List.length_replicate ..)⟩

/-- The manager with an HSS key pair. -/
def hssMgr : Key := { key 0xFF 2 0x80 4 with
  attr := { (key 0xFF 2 0x80 4).attr with type := 0x30, size := 0, faultMode := 3 }, hss := ⟨5, 5, 0, false, false⟩ }
def signer : State :=
  { svc with ks := { svc.ks with
      slots := [(0x80, ⟨0, false, some (key 0xFF 1 0 0x173), none⟩), (0x82, ⟨0, false, some hssMgr, none⟩)], cache := [0x82] } }

theorem witness_hss_sign :
    Mgr signer .pkSign (hssSigning 0x82 0 2) (fun rt p t =>
      let x : Ext := ⟨[.data (zeros 16)], false, false, 0, [], false, [], none⟩
      let b := p.drop 16
      let rq := t.request? rt p t.ph.at .pkSign x
      t.cachedKey 0xFF 0x82 = some hssMgr ∧ 0x82 ∉ x.keyErrs ∧ x.split = false ∧ pkForm b = 1 ∧ pkScheme b = 4 ∧
      firstFail hssMgr.hss.checks = none ∧ firstFail (t.signChecks rq) = none ∧ t.signsBefore rq = false ∧
      (t.touchKey 0x82).input rq 0 (descAt b 72) = .data (zeros 16)) :=
  ⟨arrives_of _ _ _ _ (by decide +kernel), by decide +kernel, by decide +kernel, rfl, by decide +kernel, by decide +kernel,
    by decide +kernel, by decide +kernel, by decide +kernel,
    manager_input (show 64 ≤ 0xFF by decide) rfl rfl (by decide +kernel) (List.length_replicate ..)⟩

theorem witness_curves_and_draws :
    Ten svc .pkLoadCurve ([20#8, 1#8] ++ zeros 122) (fun _ p _ =>
      let b := p.drop 16
      20 ≤ at8 b 0 ∧ at8 b 0 ≤ 80 ∧ b.length = 4 + 6 * at8 b 0 ∧ zeroAt b 2 2 = true) ∧
    Mgr svc .pkLoadCurve ([80#8, 4#8] ++ zeros 482) (fun _ p _ =>
      let b := p.drop 16
      20 ≤ at8 b 0 ∧ at8 b 0 ≤ 80 ∧ b.length = 4 + 6 * at8 b 0 ∧ zeroAt b 2 2 = true) ∧
    Ten svc .rngDraw (be 2 1024) (fun _ p t =>
      let b := p.drop 16
      p.length = 18 ∧ 1 ≤ fld b 0 2 ∧ fld b 0 2 ≤ 1024 ∧ t.pow.drbgStop = false) := by
  and_intros <;> exact ⟨arrives_of _ _ _ _ (by decide +kernel), by decide +kernel⟩

theorem witness_boundaries : [0, 1, 2].all (fun left =>
    let s := waiting svc (.mult 0 left 0 [] []) .pkSign (signing 0x101 0)
    decide (s.multCtx = some 0) && decide (s.live.find? (Live.onMult 0) = some (waits (.mult 0 left 0 [] []) .pkSign
      (signing 0x101 0))))
    = true := by decide +kernel

/-- An HSS key of slice 0 with leaves left. -/
def hssPriv : Key := { keyOf 0x30 0 4 3 with hss := ⟨5, 5, 0, false, false⟩ }

/-- An EC key of slice 0 whose scalar is 1. -/
def ecOne : Key := { keyOf 0x10 1 0x84 3 with secret := zeros 31 ++ [1#8] }

theorem witness_pk_results (c : Curve) (j : Nat) (blk : List Byte) (hc : svc.tryCurve 0 blk = .new j c) :
    (let s := svc.setSlot 0x105 ⟨0, false, some hssPriv, none⟩
     let rq := (waits .restart .pkSign (hssSigning 0x105 0 2)).rq
     (s.slot (fld rq.body 0 2)).key = some hssPriv ∧ rq.op = .pkSign ∧ pkScheme rq.body = 4 ∧
     calm.misses = 0 ∧ s.dmaStop rq.owner = none) ∧
    (let s := svc.setSlot 0x105 ⟨0, false, some hssPub, none⟩
     let rq := (waits .restart .pkVerify (hssSigning 0x105 5716 1)).rq
     (s.slot (fld rq.body 0 2)).key = some hssPub ∧ rq.op = .pkVerify ∧ pkScheme rq.body = 4) ∧
    (let s := svc.setSlot 0x101 ⟨0, false, some ecOne, none⟩
     let rq := (waits .restart .pkAgree (be 2 0x101 ++ be 2 0x40 ++ be 2 0x3FFF ++ be 2 0x110 ++ genP256)).rq
     (s.slot (fld rq.body 0 2)).key = some ecOne ∧ rq.op = .pkAgree ∧
     (s.curve rq.owner ecOne.attr.size).any (fun c => (firstFail (c.pointChecks (rq.body.drop 8))).isNone &&
       (c.mul (c.h * fromBe ecOne.secret) (c.decode (rq.body.drop 8))).isSome) = true) ∧
    (waits .restart .pkLoadCurve blk).rq.op = .pkLoadCurve ∧ svc.tryCurve
      (waits .restart .pkLoadCurve blk).rq.owner blk = .new j c := by
  exact ⟨by decide +kernel, by decide +kernel, by decide +kernel, rfl, hc⟩

/-- The slot of an HSS key whose next bottom tree is being built; the same of the identity tree; a DRBG that must reseed. -/
def building : Key := { hssPriv with hss := ⟨5, 5, 0, true, false⟩ }

theorem witness_background :
    (let s := svc.setSlot 0x105 ⟨0, false, some building, none⟩
     (s.slot 0x105).key = some building ∧ building.attr.type = 0x30 ∧ building.hss.building = true) ∧
    (let s : State := { svc with ks := { svc.ks with identity := true, hss := ⟨5, 5, 0, true, false⟩ } }
     s.ks.identity = true ∧ s.ks.hss.building = true) ∧
    2 ^ 20 ≤ ({ svc with pow := { svc.pow with drbgReqs := 2 ^ 20 } } : State).pow.drbgReqs ∧
    (svc.pow.main = true ∧ svc.pow.ready = true ∧ svc.pow.drbgStop = false) := by decide +kernel

/-! Loops, statements, power. -/

/-- Loop 3 of slice 0: active, point-to-point with HART, a window of one cycle open since 0xFFFFF and a result. -/
def loop3 : Loop := { Loop.init with
  slice := 0, wiring := 1, hart := true, window := 1, start := some 0xFFFFF, result := some ⟨12000000, 1, 0xFFFFE, 0, []⟩ }
def looped : State := { svc with loops := [(3, loop3)] }

theorem witness_loop_commands :
    Ten looped .loopRead ([3#8] ++ zeros 3) (fun rt p t =>
      let b := p.drop 16
      at8 b 0 < 8 ∧ t.pow.loopFail = false ∧ (∀ l ∈ t.live, l.job ≠ .domainOff 7) ∧ t.pow.loopOn = true ∧ rt.tenant = some 0 ∧
      (t.loop 3).slice = 0 ∧ p.length = 20 ∧ zeroAt b 1 3 = true ∧ t.ph.issuing = true ∧ (t.loop 3).wiring ≠ 0 ∧
      (t.loop 3).result.isSome = true) ∧
    Ten looped .loopReport ([3#8] ++ zeros 19) (fun rt p t =>
      let b := p.drop 16
      p.length = 36 ∧ t.ph.issuing = true ∧ t.pow.drbgStop = false ∧ at8 b 1 = 0 ∧ fld b 2 2 = 0 ∧ (t.loop 3).wiring ≠ 0 ∧
      (t.loop 3).result.isSome = true ∧ firstFail (t.dualChecks (rt.ctx?.getD 66)) = none ∧ calm.verify = none) ∧
    Ten looped .loopHart [3#8, 15#8, 48#8, 0#8] (fun _ p t =>
      let b := p.drop 16
      b.length = 4 + at8 b 3 ∧ (t.loop 3).wiring ≠ 0 ∧ (t.loop 3).hart = true ∧ at8 b 1 ≤ 15 ∧ at8 b 2 ∈ passThrough ∧
      (∀ l ∈ t.live, l.job ≠ .hart 3)) ∧
    Mgr looped .loopAssign ([7#8, 0#8, 1#8, 0#8, 1#8, 0#8] ++ be 2 1024 ++ be 4 4000000 ++ be 4 20000000 ++ be 4 1 ++
      zeros 4) (fun rt p t =>
      let b := p.drop 16
      at8 b 0 < 8 ∧ rt.tenant = none ∧ t.pow.loopOn = true ∧ p.length = 40 ∧ zeroAt b 5 1 = true ∧ zeroAt b 20 4 = true ∧
      assignBad b = false) ∧
    Mgr looped .loopPower ([1#8] ++ zeros 3) (fun _ p t =>
      let b := p.drop 16
      at8 b 0 ≤ 1 ∧ p.length = 20 ∧ zeroAt b 1 3 = true ∧ t.switching 7 = false ∧ t.pow.loopFail = false ∧
      (∀ l ∈ t.live, l.job ≠ .domainOff 7) ∧ t.pow.loopOn = (at8 b 0 == 1)) ∧
    Mgr looped .loopPower (zeros 4) (fun _ p t =>
      let b := p.drop 16
      p.length = 20 ∧ zeroAt b 1 3 = true ∧ t.switching 7 = false ∧ t.pow.loopOn ≠ (at8 b 0 == 1)) := by
  and_intros <;> exact ⟨arrives_of _ _ _ _ (by decide +kernel), by decide +kernel⟩

theorem witness_window : (looped.loop 3).start = some 0xFFFFF ∧ looped.measured 3 = true ∧
    0xFFFFF + (looped.loop 3).window ≤ looped.ph.c ∧ (List.replicate 64 (12000000 : Int)).length = 64 * (looped.loop 3).window ∧
    (List.replicate 64 (12000000 : Int)).sum = 12000000 * (List.replicate 64 (12000000 : Int)).length := by decide +kernel

theorem witness_thresholds :
    let l : Loop := { Loop.init with low := 4, high := 20, hyst := 1 }
    let m : Loop := { l with lowOn := true, highOn := true }
    0 < l.low ∧ 0 < l.high ∧ l.lowOn = false ∧ l.highOn = false ∧ 0 < m.low ∧ 0 < m.high ∧ m.lowOn = true ∧ m.highOn = true ∧
    Loop.init.low = 0 ∧ Loop.init.high = 0 := by decide +kernel

theorem witness_loop_events :
    (let s := (waiting looped (.hart 3) .loopHart [3#8, 15#8, 48#8, 0#8]).setLoop 3 { loop3 with tx := some ⟨15, 48, true⟩ }
     (s.loop 3).tx = some ⟨15, 48, true⟩ ∧ (s.loop 3).scans 15 = false ∧
     ((s.setLoop 3 { s.loop 3 with tx := none }).takeLive (fun l => l.job == .hart 3)).isSome = true) ∧
    (let s := looped.setLoop 3 { loop3 with tx := some ⟨0, 3, false⟩ }
     (s.loop 3).tx = some ⟨0, 3, false⟩ ∧ (s.loop 3).scans 0 = true) ∧
    (looped.loop 3).tx = none ∧ looped.measured 3 = true ∧ (looped.loop 3).hart = true ∧ (looped.loop 3).wiring = 1 ∧
      looped.pow.loopOn = true ∧ looped.pow.loopFail = false := by
  decide +kernel

theorem witness_statements :
    (svc.ph.issuing = true ∧ svc.pow.drbgStop = false ∧ calm.misses = 0 ∧ calm.verify = none ∧
      ({ calm with verify := some true } : Ext).intact = true) ∧
    Ten svc .stampReport (zeros 20) (fun rt p t =>
      let b := p.drop 16
      firstFail (t.dualChecks (rt.ctx?.getD 66)) = none ∧ p.length = 36 ∧ at8 b 0 = 0 ∧ at8 b 1 = 0 ∧ fld b 2 2 = 0) ∧
    Ten svc .attestDevice (zeros 36) (fun rt p t =>
      let b := p.drop 16
      firstFail (t.dualChecks (rt.ctx?.getD 66)) = none ∧ p.length = 52 ∧ t.tam.life ≠ .decommissioned ∧ zeroAt b 17 3 = true ∧
      at8 b 16 = 0 ∧ descAbsent b 20 = true) ∧
    Ten svc .attestKey (be 2 0x100 ++ zeros 18) (fun rt p t =>
      let b := p.drop 16
      firstFail (t.dualChecks (rt.ctx?.getD 66)) = none ∧ p.length = 36 ∧ zeroAt b 2 2 = true ∧
      t.keyFor (rt.tenant.getD 0xFF) 0x100 = some (key 0 2 0x40 0x173) ∧
      firstFail (t.keyChecks (t.request? rt p t.ph.at .attestKey calm) 0x100 (fun _ => true)) = none) := by
  refine ⟨by decide +kernel, ?_⟩
  and_intros <;> exact ⟨arrives_of _ _ _ _ (by decide +kernel), by decide +kernel⟩

theorem witness_leaf : [(⟨5, 5, 0, false, false⟩ : Hss), ⟨8, 5, 0, false, false⟩].all (fun h =>
    decide (h.leaf ≤ h.next) && (firstFail h.checks).isNone) = true := by decide +kernel

/-- A switch of lane domain 5 in flight, with its lane as it must be. -/
def switching (j : Job) (st : LaneSt) (on : Bool) : State := laneAs (waiting svc j .powerDomain [5#8, 0#8, 0#8, 0#8]) 3 st 0 on

theorem witness_domains :
    (let s := switching (.domainOff 5) .retired true
     s.switchOf 5 = some (waits (.domainOff 5) .powerDomain [5#8, 0#8, 0#8, 0#8]) ∧ (s.lane 3).on = true ∧
       (s.lane 3).st = .retired) ∧
    (let s := switching (.domainOn 5) .retired false
     s.switchOf 5 = some (waits (.domainOn 5) .powerDomain [5#8, 0#8, 0#8, 0#8]) ∧ (s.lane 3).on = false) := by decide +kernel

/-- The module with a change of its power state. -/
def powered (f : Power → Power) : State := { svc with pow := f svc.pow }

theorem witness_resets :
    (let s := powered (fun p => { p with armed := some 4 })
     s.pow.main = true ∧ s.pow.warned = false ∧ s.pow.ready = true ∧ s.pow.halted = false ∧ s.pow.pendBank = none ∧
     s.pow.bankOk s.pow.active = true ∧ (s.pow.bankAt s.pow.active).version = 0x0302 ∧ s.pow.armed = some 4) ∧
    (svc.pow.main = true ∧ svc.pow.warned = false ∧ svc.live = [] ∧ svc.ph.issuing = true) ∧
    (let s := powered (fun p => { p with main := false, ready := false })
     s.pow.main = false ∧ s.pow.pendBank = none ∧ s.pow.bankOk s.pow.active = true ∧
     (s.pow.bankAt s.pow.active).version = 0x0302 ∧ s.tam.decom = none) ∧
    (let s := powered (fun p => { p with ready := false, starting := some 4 })
     s.pow.main = true ∧ s.pow.starting = some 4 ∧ s.pow.halted = false ∧ s.pow.pendBank = none) ∧
    (let s := powered (fun p => { p with ready := false, starting := some 5, pendBank := some 1, bank1 := ⟨true, 0x0302,
      3, 3, []⟩ })
     s.pow.main = true ∧ s.pow.starting = some 5 ∧ s.pow.halted = false ∧ s.pow.pendBank = some 1 ∧
     s.pow.floor < (s.pow.bankAt 1).floor ∧ s.pow.rises < 255) := by decide +kernel

/-- The fault that a command ends in. -/
def faultOf (c : Instr) (s : State) : Option Fault :=
  match exec c s with
  | .fault f => some f
  | _ => none

theorem witness_ungoverned :
    faultOf (.deviceReset 6 []) (powered (fun p => { p with bank0 := ⟨true, 0x0400, 0, 0, []⟩ })) = some .ungovernedFirmware := by
  decide +kernel

/-! Host port and serial ports. -/

/-- Context 0 with its rings on: 16 entries each, two entries waiting in the submission ring, one reply in the reply ring. -/
def ringed : State := svc.setCtx 0 { svc.ctx 0 with sq := ⟨0x1000, 4, true, 3, 5⟩, cq := ⟨0x2000, 4, true, 0, 1⟩ }

theorem witness_doorbells :
    ringed.hostOn = true ∧ ownerOk (.slice 0) = true ∧
    (let c := ringed.ctx 0
     c.sq.enable = true ∧ diff16 (19 % 65536) c.sq.tail ≤ c.sq.size - diff16 c.sq.tail c.sq.head ∧
     c.sq.size - diff16 c.sq.tail c.sq.head < diff16 (20 % 65536) c.sq.tail ∧
     c.cq.enable = true ∧ diff16 (1 % 65536) c.cq.head ≤ diff16 c.cq.tail c.cq.head ∧
     diff16 c.cq.tail c.cq.head < diff16 (2 % 65536) c.cq.head) ∧
    (svc.ctx 0).sq.enable = false ∧ (svc.ctx 0).cq.enable = false ∧ svc.ringPasid 0 = true ∧
    (0x1A#64).getLsbD 4 = true ∧ 4 ≤ regFld 0x1A#64 0 4 ∧ regFld 0x1A#64 0 4 ≤ 10 := by decide +kernel

/-- A submission entry: packet of 16 bytes at 0x8000, room for a reply at 0x9000; the same with a reserved bit set. -/
def entry0 (reserved : Byte) : List Byte := le 8 0x8000 ++ le 2 16 ++ le 2 4096 ++ [0#8, reserved] ++ zeros 2 ++
    le 8 0x9000 ++ zeros 8

theorem witness_fetch :
    ringed.fetches (.slice 0) = true ∧ ringed.dmaStop (ownerIdx (.slice 0)) = none ∧ (entry0 0#8).length = 32 ∧
    firstFail (entryChecks (entry0 0#8) (ringed.indices 0)) = none ∧ (zeros 16).length = fldLe (entry0 0#8) 8 2 ∧
    (entry0 1#8).length = 32 ∧ firstFail (entryChecks (entry0 1#8) (ringed.indices 0)) = some (.unsupported, 0x0012) := by
  decide +kernel

/-- A completed reply of context 0 waits for its reply entry. -/
def done0 : Done := ⟨.ring (.slice 0) 3 0x9000 4096 0, zeros 32, false, true, 0, true⟩
def replying : State := ringed.setCtx 0 { ringed.ctx 0 with outbox := [done0] }

theorem witness_reply :
    replying.nextReply (.slice 0) = some done0 ∧ replying.dmaStop (ownerIdx (.slice 0)) = none ∧
    (replying.ctx (ownerIdx (.slice 0))).outbox = done0 :: [] := by decide +kernel

theorem witness_interrupts :
    svc.hostOn = true ∧ svc.hp.further = 0 ∧ 71 < 72 ∧
    71 ∈ ({ svc with hp := { svc.hp with masked := [71], msixPend := [71] } } : State).hp.msixPend ∧ 71 ∉ svc.hp.msixPend := by
  decide +kernel

theorem witness_dirty_pages :
    svc.hostOn = true ∧ (0#64).getLsbD 2 = false ∧ (svc.dpm 63).swapDone = false ∧ (svc.dpm 63).swapping = false ∧
    (let s := svc.setDpm 63 { svc.dpm 63 with swapping := true, marks := [5] }
     s.hostOn = true ∧ (s.dpm 63).swapping = true ∧ s.hp.d3hot = false ∧ s.dmaStop 64 = none ∧ (s.dpm 63).buffer % 4096 = 0 ∧
     5 ∈ (s.dpm 63).marks) ∧
    (let d : Dpm := { Dpm.init with enable := true, swapping := true }
     d.enable = true ∧ d.swapping = true ∧ (0#64).getLsbD 0 = false) ∧
    (let d : Dpm := { Dpm.init with enable := true, win := 0x10000, pages := 16 }
     d.enable = true ∧ d.win % 4096 = 0 ∧ d.win ≤ 0x10000 ∧ 0x10000 + 65536 ≤ d.win + 4096 * d.pages ∧ 0xFFFF < d.win ∧
     d.win + 4096 * d.pages < 0x10001 + 65536) := by decide +kernel

/-- A pending write of slice 0. -/
def writing : State := svc.setCtx 0 { svc.ctx 0 with pw := [⟨1, 0, 7, 64, zeros 4⟩] }

theorem witness_link :
    svc.pow.main = true ∧ (writing.ctx 0).pw = ⟨1, 0, 7, 64, zeros 4⟩ :: [] ∧ svc.hp.linkUp = true ∧
    ({ svc with hp := { svc.hp with linkUp := false } } : State).hp.linkUp = false := by decide +kernel

theorem witness_registers : svc.hostOn = true ∧
    (∃ u, exec (.registerWrite 0 0x30 8 0x1FFFFF#64) svc = .next u) ∧ ∃ u,
      exec (.registerWrite 0 0x5010 8 0x3FFF#64) svc = .next u :=
  ⟨by decide +kernel, ⟨_, rfl⟩, ⟨_, rfl⟩⟩

/-- A character 0x41 of CONSOLE, or of a card port with even parity, at the levels of its bits; with the parity bit changed. -/
def bits41 (p : Bool) : List Samples :=
  [false, true, false, false, false, false, false, true, false, p, true].map (fun b => ⟨b, b, b⟩)

/-- A console queue as full as it can be, by structure only. -/
def fullConsole : State :=
  svc.setSerial .console { svc.serial .console with queue := List.replicate (queueSize .console) 0x41#16 }

theorem witness_characters :
    svc.pow.main = true ∧ (svc.serial .console).queue.length < queueSize .console ∧
    (fullConsole.serial .console).queue.length = queueSize .console ∧
    ((svc.setSerial .cardA { svc.serial .cardA with powered := true }).serial .cardA).powered = true ∧
    (svc.serial .cardA).queue.length < queueSize .cardA ∧ levelOf (bits41 true) 0 = false ∧ levelOf [] 0 = true ∧
    (svc.serial .cardA).repeats (queueEntry .cardA false (bits41 false)) = false ∧
    (svc.serial .cardA).repeats (queueEntry .cardA false (bits41 true)) = true := by decide +kernel

/-! Vital ports. -/

/-- Port A in PLAIN; in GUARDED with a session that has accepted ALIVE 7. -/
def plain : State := { svc with vpA := { Vp.init with mode := .plain, vio := true } }
def guarded (ss : Session) : State :=
  let v := { Vp.init with mode := .guarded, vio := true, key := some (zeros 32) }
  { svc with vpA := { v with session := ss, number := 0x11223344, last := 7 } }

/-- A frame: TYPE, flags, ALIVE, opcode, PART, body; a GUARDED one carries its CRC. -/
def plainFrame (type flags op part : Nat) (b : List Byte) : Frame :=
  ⟨[byte type, byte flags] ++ zeros 4 ++ be 2 op ++ be 2 part ++ padTo 50 b ++ zeros 4, 512, false⟩
def crcFrame (type flags alive op part : Nat) (b : List Byte) : Frame :=
  let h := [byte (0x80 + type), byte flags] ++ be 2 alive ++ zeros 2 ++ be 2 op ++ be 2 part ++ padTo 50 b
  ⟨h ++ be 4 (crc32c h), 512, false⟩

/-- A request frame runs on a PLAIN port. -/
theorem runs_plain (s : State) (f : Frame) (o : Op)
    (h : (s.rdyHigh .a && (s.vp .a).vio && ((s.vp .a).kind f == .request o.code) &&
      ((s.vp .a).mode != .guarded) && !(s.begun .a f).portPending .a &&
      (firstFail ((s.begun .a f).vitalChecks (.vital .a (fld f.bytes 2 2)) .a o f)).isNone) = true) :
    FrameRuns s .a f o (s.begun .a f) := by
  simp only [Bool.and_eq_true, beq_iff_eq, bne_iff_ne, Option.isNone_iff_eq_none, Bool.not_eq_true'] at h
  obtain ⟨⟨⟨⟨⟨h1, h2⟩, h3⟩, h4⟩, h5⟩, h6⟩ := h
  exact ⟨h1, h2, h3, .inl ⟨h4, rfl⟩, fun hp => (by rw [h5] at hp; exact absurd hp Bool.false_ne_true), h6⟩

theorem witness_vital_commands :
    FrameRuns plain .a (plainFrame 1 0 Op.sysInfo.code 0 []) .sysInfo (plain.begun .a (plainFrame 1 0 Op.sysInfo.code 0 [])) ∧
    FrameRuns plain .a (plainFrame 1 0 Op.stampRead.code 0 []) .stampRead (plain.begun .a
      (plainFrame 1 0 Op.stampRead.code 0 [])) ∧
    (let f := plainFrame 1 0 Op.logRead.code 0 (be 5 4096 ++ [125#8])
     FrameRuns plain .a f .logRead (plain.begun .a f) ∧ f.bytes.length = 64 ∧ zeroAt f.bytes 16 2 = true ∧ 1 ≤ at8 f.bytes 15 ∧
     at8 f.bytes 15 ≤ 125) :=
  ⟨runs_plain _ _ _ (by decide +kernel), runs_plain _ _ _ (by decide +kernel), runs_plain _ _ _ (by decide +kernel),
    by decide +kernel⟩

/-- VP.OPEN on a GUARDED port whose session is closed. -/
def openFrame : Frame := crcFrame 1 0 9 Op.vpOpen.code 0 (zeros 8)
def resyncFrame : Frame := crcFrame 1 0 100 Op.vpResync.code 0 (be 4 0x11223344)

theorem witness_sessions :
    (let s := guarded .closed
     let t := (s.begun .a openFrame).setVp .a { (s.begun .a openFrame).vp .a with misses := 0 }
     FrameRuns s .a openFrame .vpOpen t ∧ openFrame.bytes.length = 64 ∧ t.ph.issuing = true ∧ t.pow.drbgStop = false) ∧
    (let s := guarded .lost
     let t := s.begun .a resyncFrame
     FrameRuns s .a resyncFrame .vpResync t ∧ resyncFrame.bytes.length = 64 ∧ t.ph.issuing = true ∧
     fld resyncFrame.bytes 10 4 = (t.vp .a).number) := by
  refine ⟨⟨⟨by decide +kernel, by decide +kernel, by decide +kernel, .inr (.inl ⟨by decide +kernel, rfl, rfl⟩), by decide +kernel,
    by decide +kernel⟩, by decide +kernel⟩, ⟨⟨by decide +kernel, by decide +kernel, by decide +kernel,
    .inr (.inr (.inr (.inr ⟨by decide +kernel, by decide +kernel, rfl, rfl⟩))), by decide +kernel, by decide +kernel⟩,
    by decide +kernel⟩⟩

/-- A poll of the slot now, and one of the next slot, which opens within 6 µs when the phase is late in its slot. -/
def pollFrame (slot index : Nat) : Frame := plainFrame 1 0 Op.vpPoll.code 0 (be 6 slot ++ be 2 index)

/-- The premises of VP.POLL in a state. -/
def PollFits (s : State) (f : Frame) (soon : Bool) : Prop :=
  let t := s.begun .a f
  FrameRuns s .a f .vpPoll t ∧ f.bytes.length = 64 ∧ t.ph.issuing = true ∧ fld f.bytes 10 6 < 2 ^ 46 ∧
  fld f.bytes 16 2 ≤ 1023 ∧ t.ph.opensSoon (fld f.bytes 10 6) = soon

theorem witness_polls :
    PollFits plain (pollFrame (0x100000 * 64) 1023) false ∧
    PollFits { plain with ph := { plain.ph with phi := 1020 } } (pollFrame (0x100000 * 64 + 1) 0) true ∧
    (({ plain with vpA := { plain.vpA with held := some (1, 0, 7) } } : State).vp .a).held = some (1, 0, 7) ∧
    1 ≤ plain.ph.slot ∧ plain.ph.slot < 0x100000 * 64 + 1 :=
  ⟨⟨runs_plain _ _ _ (by decide +kernel), by decide +kernel⟩, ⟨runs_plain _ _ _ (by decide +kernel), by decide +kernel⟩,
    by decide +kernel⟩

/-- A reply of two parts. -/
def twoParts : VReply := ⟨Op.sysInfo.code, 0, 0, zeros 8, zeros 60, 7⟩

theorem witness_idle_and_fetch :
    (let s := plain
     let f := plainFrame 2 0 0 0 []
     let t := s.begun .a f
     s.rdyHigh .a = true ∧ (s.vp .a).vio = true ∧ (s.vp .a).mode ≠ .guarded ∧ firstFail ((t.vp .a).frameChecks f) = none ∧
     (s.vp .a).kind f = .idle ∧ zeroAt f.bytes 6 4 = true ∧ (t.vp .a).ready = none) ∧
    (let s := guarded .lost
     let f := crcFrame 2 0 10 0 0 []
     s.rdyHigh .a = true ∧ (s.vp .a).mode = .guarded ∧ (s.vp .a).session ≠ .open' ∧ (s.vp .a).kind f = .idle) ∧
    (let s := { guarded .open' with vpA := { (guarded .open').vpA with ready := some twoParts } }
     let f := crcFrame 2 0 10 0 0 []
     let t := (s.begun .a f).setVp .a (((s.begun .a f).vp .a).advance (fld f.bytes 2 2) ((s.vp .a).ahead f))
     s.rdyHigh .a = true ∧ (s.vp .a).vio = true ∧ (s.vp .a).mode = .guarded ∧ (s.vp .a).session = .open' ∧ 1 ≤ (s.vp .a).ahead f ∧
     (s.vp .a).ahead f ≤ 3 ∧ firstFail ((t.vp .a).frameChecks f) = none ∧ (s.vp .a).kind f = .idle ∧
     zeroAt f.bytes 6 4 = true ∧ (t.vp .a).ready = some twoParts) ∧
    (let s := { plain with vpA := { plain.vpA with reply := some twoParts } }
     let f := plainFrame 1 2 Op.logRead.code 1 []
     let t := s.begun .a f
     s.rdyHigh .a = true ∧ (s.vp .a).vio = true ∧ (s.vp .a).mode ≠ .guarded ∧ firstFail ((t.vp .a).frameChecks f) = none ∧
     (s.vp .a).kind f = .fetch ∧ t.portPending .a = false ∧ Op.ofCode (fld f.bytes 6 2) = some .logRead ∧
     firstFail (t.portChecks (.vital .a (fld f.bytes 2 2)) .a .logRead) = none ∧ (t.vp .a).reply = some twoParts ∧
       fld f.bytes 8 2 < twoParts.parts) := by
  decide +kernel

theorem witness_ignored_frames :
    (let s := { plain with vpA := { plain.vpA with held := some (1, 0, 7) } }
     (s.vp .a).vio = true ∧ s.pow.main = true ∧ s.rdyHigh .a = false) ∧
    (let s := guarded .open'
     (s.vp .a).vio = true ∧ s.rdyHigh .a = true ∧ (s.vp .a).mode = .guarded ∧ (s.vp .a).session = .open' ∧ (s.vp .a).misses < 2) ∧
    (let s := { guarded .open' with vpA := { (guarded .open').vpA with misses := 2 } }
     s.rdyHigh .a = true ∧ (s.vp .a).session = .open' ∧ 2 ≤ (s.vp .a).misses) := by decide +kernel

theorem witness_retransmission :
    let s := guarded .open'
    let f := crcFrame 1 0 7 Op.logRead.code 0 (be 5 4096 ++ [1#8])
    s.rdyHigh .a = true ∧ (s.vp .a).vio = true ∧ (s.vp .a).mode = .guarded ∧ (s.vp .a).session = .open' ∧ (s.vp .a).ahead f = 0 ∧
    (s.vp .a).kind f = .request Op.logRead.code := by decide +kernel

/-- A late reply of port A. -/
def late : Live := ⟨⟨.vital .a 7, [], .sysInfo, [], [], calm, 0, 0, 0, false, false, 0, none⟩, .late .ok 0 []⟩

theorem witness_late :
    let s : State := { plain with live := [late] }
    s.takeLive (Live.isLate .a) = some (late, plain) ∧ late.job = .late .ok 0 [] ∧ late.rq.op ≠ .vpOpen := by decide +kernel

/-! Ceremonies. -/

/-- An open ceremony of a TYPE without parameters. -/
def cer (type : Nat) : Cer where
  number := 5
  type := type
  params := []
  nonce := zeros 16
  digest := zeros 32
  st := .open'
  approvals := []
  enrolled := []
  steps := 0
  comp := zeros 32
  since := some (0x100000, 0)
  stop := none
  origin := 0xFF

/-- The module with a ceremony and, perhaps, a card exchange. -/
def ceremonial (c : Cer) (e : Option Exch) : State := { svc with cus := { svc.cus with cer := some c, exch := e } }

/-- An exchange with card A at a stage. -/
def exch (st : Stage) (resets : Nat) (pub : List Byte) : Exch := ⟨.cardA, false, st, resets, pub, 0, 0⟩

/-- The module in BLANK. -/
def blank : State := { svc with tam := { svc.tam with life := .blank } }

/-- The premises of CEREMONY.START. -/
def StartFits (rt : Route) (p : List Byte) (t : State) : Prop :=
  let b := p.drop 16
  rt.tenant = none ∧ 4 ≤ b.length ∧ b.length = 4 + fld b 2 2 ∧ fld b 2 2 ≤ 64 ∧ firstFail (t.startStamp (at8 b 0)) = none ∧
  t.pow.drbgStop = false ∧ zeroAt b 1 1 = true ∧ 1 ≤ at8 b 0 ∧ at8 b 0 ≤ 9 ∧ t.cus.cer = none ∧
  t.tam.life.code ∈ ceremonyStates (at8 b 0) ∧ paramsOk (at8 b 0) (b.drop 4) = true ∧
  (at8 b 0 = 2 → t.registerOk (b.drop 4) = true)

theorem witness_ceremony_requests :
    Mgr blank .ceremonyStart ([1#8, 0#8] ++ be 2 5 ++ [2#8, 0#8, 0#8, 0#8, 0#8]) StartFits ∧
    Mgr svc .ceremonyStart ([2#8, 0#8] ++ be 2 3 ++ [1#8, 7#8, 2#8]) StartFits ∧
    Mgr svc .ceremonyStart ([4#8, 0#8] ++ be 2 0) StartFits ∧
    Mgr (ceremonial (cer 4) none) .ceremonyStep (be 4 5 ++ [1#8, 1#8] ++ zeros 2) (fun rt p t =>
      let b := p.drop 16
      let a : List Byte := [0x3B#8, 0#8]
      let w := ((t.setSerial (stepCard b) { t.serial (stepCard b) with powered := true }).emit
        (.cardPower (stepCard b) true)).mapCus (fun k => { k with exch := some ⟨stepCard b, at8 b 5 == 2, .atr, 0, [], 0, 0⟩ })
      firstFail (t.stepCardChecks (t.request? rt p t.ph.at .ceremonyStep calm)) = none ∧ t.cus.exch = none ∧
      (t.serial (stepCard b)).failed = false ∧
      (parseAtr a).any (fun e => ((w.serial (stepCard b)).adopt a e.1 e.2).isSome) = true) ∧
    Mgr (ceremonial (cer 4) none) .ceremonyCancel (be 4 5) (fun _ p t =>
      calm.intact = true ∧ p.length = 20 ∧ t.cus.cer = some (cer 4) ∧ (cer 4).number = fld p 16 4) ∧
    Mgr svc .ceremonyStatus [] (fun _ p _ => p.length = 16) := by
  and_intros <;> exact ⟨arrives_of _ _ _ _ (by decide +kernel), by first | (unfold StartFits; decide +kernel) | decide +kernel⟩

theorem witness_card_step : [Stage.select, Stage.identity].all (fun st =>
    let s := ceremonial (cer 4) (some (exch st 0 []))
    decide (s.cus.exch = some (exch st 0 [])) && decide (s.cus.cer = some (cer 4)) && !(s.serial .cardA).blockBad &&
      !(s.serial .cardA).charBad) = true := by
  decide +kernel

/-- A T=1 block with a wrong parity: asked for again, and given up after the fourth time. -/
theorem witness_bad_block : [0, 4].all (fun n =>
    let e : Exch := { exch .select 0 [] with bad := n }
    let s := (ceremonial (cer 4) (some e)).setSerial .cardA { svc.serial .cardA with proto := 1, queue := [0x0141#16] }
    decide (s.cus.exch = some e) && (s.serial .cardA).blockBad) = true := by decide +kernel

/-- A registered security officer whose key is the generator of P-256, and a ceremony at the signature of that card. -/
def signingCard : State :=
  { ceremonial (cer 4) (some (exch .sign 0 genP256)) with
    ks := { svc.ks with regs := [(0, some ⟨genP256, 1⟩)] }
    live := [waits .card .ceremonyStep (be 4 5 ++ [1#8, 1#8] ++ zeros 2)] }

theorem witness_approval (data : List Byte)
    (h : firstFail (signingCard.cardChecks (cer 4) (exch .sign 0 genP256) data) = none) :
    let s := signingCard
    let c := cer 4
    let e := exch .sign 0 genP256
    let l := waits .card .ceremonyStep (be 4 5 ++ [1#8, 1#8] ++ zeros 2)
    let r : Reg := ⟨genP256, 1⟩
    let d : Cer := { c with
      approvals := c.approvals ++ [⟨e.pub, 0, r.role⟩], comp := xorBytes c.comp (zeros 32), steps := c.steps + 1
      stop := some (c.stop.getD (s.ph.c + 3000, s.ph.phi)), st := .running, origin := l.rq.route.origin }
    firstFail (s.cardChecks c e data) = none ∧
    (s.cus.exch = some e ∧ s.cus.cer = some c ∧ e.card = .cardA ∧ (s.serial .cardA).blockBad = false ∧
      (s.serial .cardA).charBad = false ∧ e.stage = .sign ∧
      e.enrol = false ∧ c.wantsComponent = false ∧ s.overdue c = false ∧
      s.live.find? (fun l => l.job == .card) = some l ∧ s.regs.find? (fun r => r.2.pub == e.pub) = some (0, r) ∧
      s.approved d = false) :=
  ⟨h, by decide +kernel⟩

theorem witness_failed_card_step :
    (let s := ceremonial (cer 4) (some (exch .atr 0 []))
     s.cus.exch = some (exch .atr 0 []) ∧ (exch .atr 0 []).card = .cardA ∧ (exch .atr 0 []).stage = .atr ∧
       (exch .atr 0 []).resets = 0) ∧
    (let s := ceremonial (cer 4) (some (exch .atr 1 []))
     s.cus.exch = some (exch .atr 1 []) ∧ (exch .atr 1 []).stage = .atr ∧ (exch .atr 1 []).resets ≠ 0) := by decide +kernel

/-- A ceremony whose window ends at a cycle. -/
def cerStop (c : Nat) : Cer := { cer 4 with stop := some (c, 0) }

theorem witness_late_ceremonies :
    (let s := ceremonial (cerStop 0x100000) none
     s.cus.cer = some (cerStop 0x100000) ∧ (cerStop 0x100000).stop = some (0x100000, 0) ∧ s.ph.issuing = true ∧
     s.ph.reached (0x100000, 0) = true) ∧
    (let s := ceremonial (cerStop 0x100001) none
     s.cus.cer = some (cerStop 0x100001) ∧ (cerStop 0x100001).stop = some (0x100001, 0) ∧ s.ph.reached (0x100001, 0) = false) ∧
    (let c : Cer := { cer 4 with since := some (0x100000 - 3000, 0) }
     let s := ceremonial c none
     s.cus.cer = some c ∧ c.stop = none ∧ c.since = some (0x100000 - 3000, 0) ∧ s.ph.issuing = true ∧
     s.ph.reached (0x100000 - 3000 + 3000, 0) = true) ∧
    (let c : Cer := { cer 4 with since := none }
     (ceremonial c none).cus.cer = some c ∧ c.stop = none ∧ c.since = none) := by decide +kernel

/-! Peers. -/

/-- A module paired with another one, an authorised PEER_PAIR ceremony, and slice 0 QUIESCED. -/
def peered : State :=
  { sliced .quiesced with
    ks := { svc.ks with pairKey := some (zeros 32), peerId := List.replicate 8 0x77#8, peerKeys := some (zeros 97, zeros 60, [])
                        eph := some 1, offer := zeros 4 }
    cus := { svc.cus with cer := some { cer 4 with st := .authorised } } }

/-- The same with a transfer of slice 0 open under number 1. -/
def moving : State :=
  { peered with
    slices := [(0, ⟨.emigrating, [7], 100, some run0⟩)]
    ks := { peered.ks with counter := 1, transfer := some ⟨1, 0, zeros 32, 2⟩ } }

theorem witness_peer_commands :
    Mgr peered .peerStatus [] (fun _ p t => p.length = 16 ∧ t.ks.pairKey = some (zeros 32)) ∧
    Mgr svc .peerStatus [] (fun _ p t => p.length = 16 ∧ t.ks.pairKey = none) ∧
    Mgr peered .peerUnpair [] (fun _ p t => p.length = 16 ∧ t.ks.pairKey = some (zeros 32) ∧ t.ks.transfer = none) ∧
    Mgr svc .peerUnpair [] (fun _ p t => p.length = 16 ∧ t.ks.pairKey = none ∧ t.ks.transfer = none) := by
  and_intros <;> exact ⟨arrives_of _ _ _ _ (by decide +kernel), by decide +kernel⟩

theorem witness_emigration :
    Mgr peered .sliceEmigrate ([0#8, 4#8] ++ desc 1024 2 ++ desc 1024 2 ++ desc 1024 2 ++ desc 1024 2) (fun rt p t =>
      let b := p.drop 16
      let rq := t.request? rt p t.ph.at .sliceEmigrate calm
      b.length = 2 + 16 * 4 ∧ t.ph.issuing = true ∧ t.pow.drbgStop = false ∧ firstFail (t.needDescs rq 2 4 2) = none ∧
      (t.slc 0).st = .quiesced ∧ t.ks.pairKey.isSome = true ∧ t.ks.transfer = none ∧
      t.packageLen 0 ≤ ((descsAt b 2 4).map (·.len)).sum ∧ firstFail (t.dualChecks (rt.ctx?.getD 66)) = none ∧
      calm.split = false ∧ calm.misses = 0 ∧ calm.verify = none ∧ t.dmaStop 0xFF = none) :=
  ⟨arrives_of _ _ _ _ (by decide +kernel), by decide +kernel⟩

/-- A module with slice 1 CREATED for the package of its peer. -/
def receiving : State := peered.setSlc 1 ⟨.created, [], 100, some (runAt 0x4F80 1024 128 0)⟩

/-- One descriptor of the package, `n` bytes long. -/
def immigrating (n : Nat) : List Byte := [1#8] ++ desc n 1

theorem witness_immigration_enters : Mgr receiving .sliceImmigrate (immigrating 4096) (fun rt p t =>
    firstFail (t.immigrateChecks (t.request? rt p t.ph.at .sliceImmigrate calm)) = none) :=
  ⟨arrives_of _ _ _ _ (by decide +kernel), by decide +kernel⟩

/-- The same module with the immigration in flight, `n` bytes long, which reads `data`; and the state in which it goes on. -/
def moverRq (n : Nat) (data : List Byte) : Rq :=
  { (waits .card .sliceImmigrate (immigrating n)).rq with
    route := ringRoute .mgr, past := true, x := ⟨[.data data], false, false, 0, [], false, [], none⟩ }
def mover (n : Nat) (data : List Byte) : State :=
  { receiving with
    slices := [(0, ⟨.quiesced, [7], 100, some run0⟩), (1, ⟨.immigrating, [], 100, some (runAt 0x4F80 1024 128 0)⟩)]
    live := [⟨moverRq n data, .held .install⟩] }
def movedIn (n : Nat) (data : List Byte) : State := ({ mover n data with live := [] } : State).setSlcSt 1 .created

/-- The premises of the immigration that do not read the package. -/
def ImmigrateFits (n : Nat) (data : List Byte) : Prop :=
  let rq := moverRq n data
  (mover n data).pending = [] ∧ (mover n data).ruled ⟨rq, .held .install⟩ = false ∧ rq.past = true ∧
  ((mover n data).slc 1).st = .immigrating ∧ rq.body.length = 1 + 16 * 1 ∧ firstFail ((movedIn n data).immigrateChecks rq) = none ∧
  firstFail ((movedIn n data).dualChecks rq.ctx) = none ∧ rq.x.misses = 0 ∧ rq.x.verify = none

theorem immigrateFits_of {n : Nat} {data : List Byte} (h : ImmigrateFits n []) : ImmigrateFits n data := h

theorem witness_immigration (data : List Byte) (v : State) (hl : data.length = 4096)
    (ho : ((movedIn 4096 data).didInput (moverRq 4096 data) (descAt (immigrating 4096) 1)).packageSigned (cutPackage data) = true)
    (hv : ((movedIn 4096 data).didInput (moverRq 4096 data) (descAt (immigrating 4096) 1)).installPackage 1 (cutPackage data) 0xFF
      = .ok v) :
    (ImmigrateFits 4096 data ∧
      (movedIn 4096 data).input (moverRq 4096 data) 0 (descAt (immigrating 4096) 1) = .data data ∧
      ((movedIn 4096 data).didInput (moverRq 4096 data) (descAt (immigrating 4096) 1)).packageSigned (cutPackage data) = true ∧
      ((movedIn 4096 data).didInput (moverRq 4096 data) (descAt (immigrating 4096) 1)).installPackage 1 (cutPackage data) 0xFF
        = .ok v) ∧
    (ImmigrateFits 3040 (zeros 3040) ∧
      (movedIn 3040 (zeros 3040)).input (moverRq 3040 (zeros 3040)) 0 (descAt (immigrating 3040) 1) = .data (zeros 3040) ∧
      ((movedIn 3040 (zeros 3040)).didInput (moverRq 3040 (zeros 3040)) (descAt (immigrating 3040) 1)).packageSigned
        (cutPackage (zeros 3040)) = false) := by
  refine ⟨⟨immigrateFits_of (by unfold ImmigrateFits; decide +kernel), ?_, ho, hv⟩,
    immigrateFits_of (by unfold ImmigrateFits; decide +kernel), ?_, by decide +kernel⟩
  · exact manager_input (show 64 ≤ 0xFF by decide) rfl rfl (by decide +kernel) hl
  · exact manager_input (show 64 ≤ 0xFF by decide) rfl rfl (by decide +kernel) (List.length_replicate ..)

theorem witness_settlement (r n : List Byte) (hr : r.length = 3064) (hn : n.length = 3064) (hr0 : fld r 20 5 = 1)
    (hr1 : moving.settleOk 0x0602 r = true) (hr2 : moving.namesTransfer r = true) (hn0 : fld n 20 5 = 1) (hn1 : fld n 0 2 = 0x0603)
    (hn2 : moving.settleOk 0x0603 n = true) (hn3 : moving.namesTransfer n = true)
    (a : List Byte) (ha : a.length = 3064) (ha0 : fld a 0 2 = 0x0604) (ha1 : peered.settleOk 0x0604 a = true)
    (ha2 : slice a 4 8 = peered.ks.peerId) (ha3 : slice a 12 8 = peered.ks.deviceId) (ha4 : peered.ks.received
      (slice a 4 8) < fld a 20 5) :
    Mgr moving .sliceReceipt r (fun _ p t =>
      let b := p.drop 16
      b.length = 3064 ∧ t.ks.transfer = some ⟨1, 0, zeros 32, 2⟩ ∧ 1 = fld b 20 5 ∧ t.settleOk 0x0602 b = true ∧
      t.namesTransfer b = true) ∧
    Mgr moving .sliceRefuse n (fun _ p t =>
      let b := p.drop 16
      b.length = 3064 ∧ fld b 0 2 = 0x0603 ∧ t.ks.transfer = some ⟨1, 0, zeros 32, 2⟩ ∧ 1 = fld b 20 5 ∧
      t.settleOk 0x0603 b = true ∧ t.namesTransfer b = true) ∧
    Mgr peered .sliceRefuse a (fun _ p t =>
      let b := p.drop 16
      3040 ≤ b.length ∧ fld b 0 2 ≠ 0x0603 ∧
      (t.settleOk 0x0604 b = true ∧ slice b 4 8 = t.ks.peerId ∧ slice b 12 8 = t.ks.deviceId) ∧
      t.ks.received (slice b 4 8) < fld b 20 5) := by
  refine ⟨⟨arrives_data _ _ _ _ 3064 hr (by decide +kernel), ?_⟩, ⟨arrives_data _ _ _ _ 3064 hn (by decide +kernel), ?_⟩,
    ⟨arrives_data _ _ _ _ 3064 ha (by decide +kernel), ?_⟩⟩
  · simp only [packetFrom_drop]
    rw [served_quietly]
    exact ⟨hr, by decide +kernel, hr0.symm, hr1, hr2⟩
  · simp only [packetFrom_drop]
    rw [served_quietly]
    exact ⟨hn, hn1, by decide +kernel, hn0.symm, hn2, hn3⟩
  · simp only [packetFrom_drop]
    rw [served_quietly]
    exact ⟨by omega, by omega, ⟨ha1, ha2, ha3⟩, ha4⟩

/-- The checks of PEER.PAIR read the other module's blob only for its length. -/
theorem pairChecks_tail (s : State) (rq : Rq) (h d : List Byte) (hb : rq.body = h ++ d) (hh : h.length = 36) (hd : d.length ≤ 4000)
    (hs : at8 h 0 ≠ 1) (H : firstFail (s.pairChecks { rq with body := h }) = none) : firstFail (s.pairChecks rq) = none := by
  have hz : ∀ i k, i + k ≤ 36 → slice (h ++ d) i k = slice h i k := by
    intro i k hi
    simp only [slice]
    rw [List.drop_append_of_le_length (by omega), List.take_append_of_le_length (by simp; omega)]
  have h0 : at8 (h ++ d) 0 = at8 h 0 := at8_append (by omega)
  have hl : (h ++ d).length = 36 + d.length := by rw [List.length_append, hh]
  have hi : at8 (h ++ d) 16 = at8 h 16 := at8_append (by omega)
  have hi2 : at8 (h ++ d) 32 = at8 h 32 := at8_append (by omega)
  have hi3 : at8 (h ++ d) 17 = at8 h 17 := at8_append (by omega)
  have hi4 : at8 (h ++ d) 33 = at8 h 33 := at8_append (by omega)
  have ho : (at8 h 0 == 1) = false := by simpa using hs
  have e1 : (decide (36 + d.length < 36) || decide (4036 < 36 + d.length)) = false := by simp; omega
  have e2 : (decide (36 < 36) || decide (4036 < 36)) = false := by decide
  rw [State.pairChecks] at H ⊢
  simp only [hb, hh, hl, h0, ho, e1, e2, Bool.false_and, Bool.or_false, needZero, zeroAt, descAbsent, descAt, State.needDesc,
    descCheck, fld, hz 1 3 (by omega), Nat.reduceAdd, hz _ _ (show 4 + 8 ≤ 36 by omega), hz _ _ (show 12 + 4 ≤ 36 by omega),
    hz _ _ (show 18 + 2 ≤ 36 by omega), hz _ _ (show 20 + 8 ≤ 36 by omega), hz _ _ (show 28 + 4 ≤ 36 by omega),
    hz _ _ (show 34 + 2 ≤ 36 by omega), hz _ _ (show 4 + 16 ≤ 36 by omega), hz _ _ (show 20 + 16 ≤ 36 by omega),
    hi, hi2, hi3, hi4, Rq.owner, State.needStamp, State.needRandom,
    State.mayPair] at H ⊢
  exact H

/-- The 36 bytes of PEER.PAIR before the other module's blob: descriptors of 65,535 bytes out and 100 bytes in. -/
def pairHead (step : Nat) (out : List Byte) : List Byte := [byte step] ++ zeros 3 ++ out ++ desc 100 1

theorem pairHead_checks : [(2, desc 65535 2), (3, zeros 16)].all (fun e =>
    (firstFail ((peered.quietly .mgr).pairChecks
      { (waits .card .peerPair []).rq with route := ringRoute .mgr, body := pairHead e.1 e.2 })).isNone &&
    decide ((pairHead e.1 e.2).length = 36) && decide (at8 (pairHead e.1 e.2) 0 ≠ 1)) = true := by decide +kernel

/-- The premises of STEP 2 and 3 that read the other module's blob, the chain bundle and this module's own bundle (Config) are
taken for values that meet them. -/
theorem witness_pairing (d e bundle : List Byte) (k : PeerKeys) (hd : d.length = 3276) (he : e.length = 3276)
    (hb : (peered.quietly .mgr).chainBundle.length ≤ 65535) (hc : Config.chainKeys bundle peered.ks.rootKeys = some k)
    (hl : bundle.length = 100) (hd1 : (peered.quietly .mgr).pairOk 0x0605 k d = true)
    (he1 : (peered.quietly .mgr).pairOk 0x0606 k e = true) (he2 : slice e 164 16 = (sha256 peered.ks.offer).take 16)
    (he3 : slice e 277 4 = kcv ((peered.quietly .mgr).pairKeyOf 1 e (deviceIdOf k))) :
    let x : Ext := ⟨[.data bundle], false, false, 0, [], false, [], none⟩
    Mgr peered .peerPair ([1#8] ++ zeros 3 ++ desc 65535 2 ++ zeros 16) (fun rt p t =>
      let b := p.drop 16
      firstFail (t.pairChecks (t.request? rt p t.ph.at .peerPair calm)) = none ∧ at8 b 0 = 1 ∧
        t.chainBundle.length ≤ (descAt b 4).len ∧
      firstFail (t.dualChecks (rt.ctx?.getD 66)) = none ∧ t.dmaStop (rt.tenant.getD 0xFF) = none) ∧
    Mgr peered .peerPair (pairHead 2 (desc 65535 2) ++ d) (fun rt p t =>
      let b := p.drop 16
      firstFail (t.pairChecks (t.request? rt p t.ph.at .peerPair x)) = none ∧ at8 b 0 = 2 ∧
        t.chainBundle.length ≤ (descAt b 4).len ∧
      firstFail (t.dualChecks (rt.ctx?.getD 66)) = none ∧ t.dmaStop (rt.tenant.getD 0xFF) = none ∧
      t.input (t.request? rt p t.ph.at .peerPair x) 0 (descAt b 20) = .data bundle ∧
        Config.chainKeys bundle t.ks.rootKeys = some k ∧
      t.pairOk 0x0605 k (b.drop 36) = true) ∧
    Mgr peered .peerPair (pairHead 3 (zeros 16) ++ e) (fun rt p t =>
      let b := p.drop 16
      firstFail (t.pairChecks (t.request? rt p t.ph.at .peerPair x)) = none ∧ at8 b 0 = 3 ∧
      t.input (t.request? rt p t.ph.at .peerPair x) 0 (descAt b 20) = .data bundle ∧
        Config.chainKeys bundle t.ks.rootKeys = some k ∧
      t.ks.eph = some 1 ∧ t.pairOk 0x0606 k (b.drop 36) = true ∧
      slice (b.drop 36) 164 16 = (sha256 t.ks.offer).take 16 ∧
      slice (b.drop 36) 277 4 = kcv (t.pairKeyOf 1 (b.drop 36) (deviceIdOf k))) := by
  have hk := pairHead_checks
  simp only [List.all_cons, List.all_nil, Bool.and_true, Bool.and_eq_true, Option.isNone_iff_eq_none, decide_eq_true_eq] at hk
  obtain ⟨⟨⟨c2, l2⟩, o2⟩, ⟨c3, l3⟩, o3⟩ := hk
  have n2 : (pairHead 2 (desc 65535 2) ++ d).length = 3312 := by rw [List.length_append, l2, hd]
  have n3 : (pairHead 3 (zeros 16) ++ e).length = 3312 := by rw [List.length_append, l3, he]
  have dr : ∀ (h f : List Byte), h.length = 36 → (h ++ f).drop 36 = f := fun h f hh => by simp [← hh]
  refine ⟨⟨arrives_of _ _ _ _ (by decide +kernel), ?_⟩, ⟨arrives_data _ _ _ _ 3312 n2 (by decide +kernel), ?_⟩,
    ⟨arrives_data _ _ _ _ 3312 n3 (by decide +kernel), ?_⟩⟩
  · exact ⟨by decide +kernel, by decide +kernel, by rw [served_quietly]; exact hb, by decide +kernel, by decide +kernel⟩
  · simp only [packetFrom_drop]
    rw [served_quietly, dr _ _ l2]
    refine ⟨?_, ?_, hb, by decide +kernel, by decide +kernel, ?_, hc, hd1⟩
    · exact pairChecks_tail _ _ (pairHead 2 (desc 65535 2)) d (packetFrom_drop peered (ownerIdx .mgr) .peerPair _)
        l2 (by omega) o2 c2
    · rw [at8_append (by omega)]; rfl
    · exact manager_input (show 64 ≤ 0xFF by decide) rfl rfl rfl hl
  · simp only [packetFrom_drop]
    rw [served_quietly, dr _ _ l3]
    refine ⟨?_, ?_, ?_, hc, by decide +kernel, he1, he2, he3⟩
    · exact pairChecks_tail _ _ (pairHead 3 (zeros 16)) e (packetFrom_drop peered (ownerIdx .mgr) .peerPair _) l3 (by omega) o3 c3
    · rw [at8_append (by omega)]; rfl
    · exact manager_input (show 64 ≤ 0xFF by decide) rfl rfl rfl hl

/-! Every request row. -/

/-- A packet with an epoch of its own choice, and the state in which it waits in the manager's ring. -/
def packetOf (epoch : Nat) : List Byte :=
  [1#8, 1#8] ++ be 2 Op.sysInfo.code ++ be 5 1 ++ be 3 epoch ++ [byte (ctxSource 64), 0#8] ++ be 2 0
def waitingIn (s : State) (p : List Byte) : State := s.setCtx 64 { s.ctx 64 with inbox := [⟨0, 0x1000, 4096, 0, p, 0x100000, 0⟩] }

/-- Whether a ring of the manager gives a packet, in a state that `ok` accepts. -/
def finds (s : State) (p : List Byte) (ok : State → Bool) : Bool :=
  match s.find (.ring .mgr) with
  | .packet rt q _ t => decide (rt = ringRoute .mgr) && decide (q = p) && ok t
  | _ => false

theorem witness_stale_epoch :
    finds (waitingIn svc (packetOf 7)) (packetOf 7) (fun t =>
      let p := packetOf 7
      decide (hdrVersion p = 1 ∧ hdrKind p = 1 ∧ p.length = 16 + hdrLength p ∧ p.length ≤ 4096 ∧ hdrFlags p / 2 = 0 ∧
        hdrSource p = ctxSource ((ringRoute .mgr).ctx?.getD 66) ∧ hdrEpoch p ≠ (t.ctx ((ringRoute .mgr).ctx?.getD 66)).epoch))
      = true := by decide +kernel

/-- The manager's context holds the reply to a request of ID 1, of the same digest or of another one. -/
def cached (d : List Byte) : State :=
  waitingIn (svc.setCtx 64 { svc.ctx 64 with cache := [⟨1, d, zeros 32⟩] }) (packetOf (svc.ctx 64).epoch)

theorem witness_cached_reply :
    (let p := packetOf (svc.ctx 64).epoch
     finds (cached (digestOf p)) p (fun t => goodHeaderB t (ringRoute .mgr) .sysInfo p &&
       decide ((t.ctx 64).cache.find? (fun q => q.id == hdrId p) = some ⟨1, digestOf p, zeros 32⟩))) = true ∧
    (let p := packetOf (svc.ctx 64).epoch
     finds (cached []) p (fun t => goodHeaderB t (ringRoute .mgr) .sysInfo p &&
       decide ((t.ctx 64).cache.find? (fun q => q.id == hdrId p) = some ⟨1, [], zeros 32⟩) &&
         decide ([] ≠ digestOf p))) = true := by
  decide +kernel

theorem witness_stamp_field : svc.ph.st = .lock ∧ State.reset.ph.st = .none := by decide +kernel

/-! ### Internal faults -/

/-- An execution that ends in an internal fault, and one that meets a double-bit error in one word of working memory. -/
def faulty : Ext := ⟨[], false, false, 0, [], true, [], none⟩
def badAt (a : Nat) : Ext := ⟨[], false, false, 0, [a], false, [], none⟩

theorem witness_intact : calm.intact = true ∧ ∀ r, (⟨r, false, false, 0, [], false, [],
    none⟩ : Ext).intact = true := ⟨rfl, fun _ => rfl⟩

theorem witness_internal_fault :
    Ten svc .keyGen [] (fun _ _ _ => faulty.fwError = none ∧ faulty.fault = true) ∧
    Ten svc .pkSign [] (fun _ _ _ => faulty.fwError = none ∧ faulty.fault = true) ∧
    Ten svc .sealOnce [] (fun _ _ _ => faulty.fwError = none ∧ faulty.fault = true) ∧
    Ten svc .bnMul [] (fun _ _ _ => (badAt 0x3FFF).fwError = some 0x3FFF) := by
  and_intros <;> exact ⟨arrives_of _ _ _ _ (by decide +kernel), by decide +kernel⟩

/-- R193: a frame-table load whose word at 0x4A00 has a double-bit error meets it, outside the firmware area. -/
theorem witness_load_error :
    Ten fielded .fieldCommand ([0x80#8, 0#8] ++ be 2 127 ++ [1#8, 0#8] ++ be 3 0x4A00 ++ be 2 1 ++ [0#8]) (fun _ p t =>
      let r := refAt (p.drop 16) 6
      (t.meet (badAt 0x4A00).bad [r]).badWord r = some 0x4A00 ∧ (badAt 0x4A00).intact = true) := by
  exact ⟨arrives_of _ _ _ _ (by decide +kernel), by decide +kernel⟩

/-- R193: a write unflags the word. -/
theorem test_write_unflags : ((svc.meet [0x4A00] [⟨0x4A00, 2⟩]).wmWrite 0x4A00 1#40).badWord ⟨0x4A00, 2⟩ = none := by
  decide +kernel

/-! ### Well-formedness: for each check one command that it refuses, beside one that it accepts -/

theorem test_wf_slice : (Instr.quiesceComplete 63).wf = true ∧ (Instr.quiesceComplete 64).wf = false := by decide
theorem test_wf_owner : (Instr.sqTail (.slice 63) 0).wf = true ∧ (Instr.sqTail (.slice 64) 0).wf = false ∧
    (Instr.sqTail .mgr 0).wf = true := by decide
theorem test_wf_push : (Instr.rngDraw (.push 63 3 []) calm).wf = true ∧ (Instr.rngDraw (.push 63 4 []) calm).wf = false ∧
    (Instr.rngDraw (.push 64 0 []) calm).wf = false := by decide
theorem test_wf_via_ring : (Instr.sysInfo (.ring (.slice 64)) calm).wf = false ∧
    (Instr.sysInfo .console calm).wf = true := by decide
theorem test_wf_self_test : (Instr.sysSelftest (.ring .mgr) calm [⟨14, 0, 0⟩]).wf = true ∧
    (Instr.sysSelftest (.ring .mgr) calm [⟨15, 0, 0⟩]).wf = false := by decide
theorem test_wf_channel : (Instr.inSequenceCommit 255 0).wf = true ∧ (Instr.inSequenceCommit 256 0).wf = false ∧
    (Instr.slotOpen ⟨none, some (.record 256 0)⟩).wf = false := by decide
theorem test_wf_binding_entry : (Instr.bindingEntryFetch 5 (zeros 64)).wf = true ∧
    (Instr.bindingEntryFetch 5 (zeros 63)).wf = false ∧
    (Instr.bindingEntryFetch 256 (zeros 64)).wf = false := by decide
theorem test_wf_key_slot : (Instr.keyDestroyComplete 16383).wf = true ∧ (Instr.keyDestroyComplete 16384).wf = false := by decide
theorem test_wf_lane : (Instr.laneDrained 3).wf = true ∧ (Instr.laneDrained 4).wf = false := by decide
theorem test_wf_loop : (Instr.loopSupplyLimit 7).wf = true ∧ (Instr.loopSupplyLimit 8).wf = false := by decide
theorem test_wf_source : (Instr.sourceClears 15).wf = true ∧ (Instr.sourceClears 16).wf = false := by decide
theorem test_wf_domain : (Instr.domainIdleGate 7).wf = true ∧ (Instr.domainIdleGate 8).wf = false := by decide
theorem test_wf_card : (Instr.cardRemoved .cardB).wf = true ∧ (Instr.cardRemoved .console).wf = false := by decide
theorem test_wf_status_word : (Instr.cardApduResponse .cardA [] 0x9000 false []).wf = true ∧
    (Instr.cardApduResponse .cardA [] 0x10000 false []).wf = false ∧ (Instr.cardApduResponse
      .console [] 0x9000 false []).wf = false := by
  decide
theorem test_wf_register : (Instr.registerWrite 2 0 8 0).wf = true ∧ (Instr.registerWrite 1 0 8 0).wf = false ∧
    (Instr.registerWrite 0 0 9 0).wf = false := by decide
theorem test_wf_vector : (Instr.msixUnmask 71).wf = true ∧ (Instr.msixUnmask 72).wf = false := by decide
theorem test_wf_read : (Instr.dmaReadFailure (.packet .mgr (zeros 32)) .timeout).wf = true ∧
    (Instr.dmaReadFailure (.packet .mgr (zeros 31)) .timeout).wf = false ∧
      (Instr.dmaReadFailure (.ringFetch (.slice 64)) .timeout).wf = false ∧
    (Instr.dmaReadFailure (.input (.push 0 4 [])) .timeout).wf = false ∧
      (Instr.dmaReadFailure (.binding 256) .timeout).wf = false ∧
    (Instr.dmaReadFailure (.dirtyMap 64) .timeout).wf = false := by decide
theorem test_wf_device_reset : (Instr.deviceReset 4 []).wf = true ∧ (Instr.deviceReset 4 [⟨15, 0, 0⟩]).wf = false := by decide
theorem test_wf_power_up : (Instr.mainPowerUp ⟨0, true, [3], [(16383, true)], [255], [], []⟩).wf = true ∧
    (Instr.mainPowerUp ⟨0, true, [4], [], [], [], []⟩).wf = false ∧
    (Instr.mainPowerUp ⟨0, true, [], [(16384, true)], [], [], []⟩).wf = false ∧
    (Instr.mainPowerUp ⟨0, true, [], [], [256], [], []⟩).wf = false := by decide
theorem test_wf_record : (Instr.heldPollResponse ⟨.a, some (255, 0)⟩).wf = true ∧
    (Instr.heldPollResponse ⟨.a, some (256, 0)⟩).wf = false ∧
    (Instr.vpPoll .console ⟨calm, some (256, 0)⟩).wf = false := by decide
theorem test_wf_character (b : Samples) : (Instr.receivedCharacter .console b (List.replicate 9 b)).wf = true ∧
    (Instr.receivedCharacter .cardA b (List.replicate 9 b)).wf = false := by
  simp [Instr.wf]
theorem test_words_spell_no_command : decodeTableWord 16 0x0101 = none := rfl

/-! ### Single steps -/

/-- What is asked of the state that a step gives. -/
def after (c : Instr) (s : State) (ok : State → Bool) : Bool :=
  match step { s with pending := [c] } with
  | .next t => ok t
  | _ => false

/-- The status, DETAIL and payload of the reply that waits in the ring of an owner. -/
def replied (w : Owner) (t : State) (st : Status) (d : Nat) (payload : List Byte) : Bool :=
  match (t.ctx (ownerIdx w)).outbox with
  | [r] => fld r.reply 16 2 == st.code && fld r.reply 18 2 == d && r.reply.drop 28 == payload
  | _ => false

/-- A request of an owner runs and is answered so. -/
def answers (c : Instr) (s : State) (w : Owner) (o : Op) (b : List Byte) (st : Status) (d : Nat) (payload : List Byte) : Bool :=
  after c (s.asks w o b) (fun t => replied w t st d payload)

-- R51: C increases by one and the phase begins at 0.
theorem test_stamp_increment : after .stampIncrement svc (fun t => t.ph.c == 0x100001 &&
    t.ph.phi == 0) = true := by decide +kernel
-- R577, Table 17-5: SYS.INFO of a module with Drinum 3.2 begins with the part number D256 and version 0302.
theorem test_sys_info : after (.sysInfo (.ring .mgr) calm) (svc.asks .mgr .sysInfo []) (fun t =>
    match (t.ctx 64).outbox with
    | [r] => slice r.reply 28 4 == [0xD2#8, 0x56#8, 0x03#8, 0x02#8]
    | _ => false) = true := by decide +kernel
-- A SYS.RESET whose payload has the wrong length is refused with ST_LENGTH.
theorem test_sys_reset_length : answers (.sysReset (.ring .mgr) calm) svc .mgr .sysReset [] .length 0 [] = true :=
    by decide +kernel
-- A tenant may not send a command of the manager: ST_ACCESS.
theorem test_access_level : after (.sysReset (.ring (.slice 0)) calm) (svc.asks (.slice 0) .sysReset ([2#8] ++ zeros 3)) (fun t =>
    match (t.ctx 0).outbox with
    | [r] => fld r.reply 16 2 == Status.access.code
    | _ => false) = true := by decide +kernel
-- R324: a key of another owner is answered like an empty slot.
theorem test_foreign_key : answers (.keyDestroy (.ring (.slice 0)) calm) svc (.slice 0) .keyDestroy
    (be 2 0x80) .noKey 0 [] = true := by
  decide +kernel
-- Table 09-10: a root is not destroyed.
theorem test_root_key : answers (.keyDestroy (.ring (.slice 0)) calm) svc (.slice 0) .keyDestroy
    (be 2 0x40) .policy 0x0098 [] = true := by
  decide +kernel
-- R118: RNG.DRAW of no byte, and of more than 1,024 bytes, is refused.
theorem test_draw_bounds : answers (.rngDraw (.ring .mgr) calm) svc .mgr .rngDraw (be 2 0) .length 0 [] = true ∧
    answers (.rngDraw (.ring .mgr) calm) svc .mgr .rngDraw (be 2 1025) .length 0 [] = true := by decide +kernel
-- R409: the last lane in service is not retired.
theorem test_last_lane : answers (.laneRetire (.ring .mgr) calm) oneLane .mgr .laneRetire (zeros 4) .policy 0x00B6 [] = true := by
  decide +kernel
-- A slice that runs is not removed.
theorem test_remove_active : answers (.sliceRemove (.ring .mgr) calm) svc .mgr .sliceRemove [0#8] .policy 0x0050 [] = true := by
  decide +kernel
-- R135: a tail doorbell beyond the ring sets DB_ERR and moves nothing.
theorem test_doorbell_beyond : after (.sqTail (.slice 0) 20) ringed (fun t => (t.ctx 0).dbErr &&
    (t.ctx 0).sq.tail == 5) = true := by
  decide +kernel
-- R101: a request of a stale epoch is refused.
theorem test_stale_epoch : after (.sysInfo (.ring .mgr) calm) (waitingIn svc (packetOf 7))
    (fun t => replied .mgr t .staleEpoch 0 []) = true := by
  decide +kernel
-- R494: below LOW the threshold is on; at LOW + HYST it is off again.
theorem test_threshold : ({ Loop.init with low := 4, hyst := 1 } : Loop).lowNext 3 = true ∧
    ({ Loop.init with low := 4, hyst := 1, lowOn := true } : Loop).lowNext 4 = true ∧
    ({ Loop.init with low := 4, hyst := 1, lowOn := true } : Loop).lowNext 5 = false := by decide +kernel
-- R422: SHIFT gives the low word and divides by 2^40.
theorem test_shift : let m : Mult := { State.reset.mult with acc := (2 ^ 40 + 3 : BitVec 96) :: List.replicate 15 0 }
    m.shift.1 = 3#40 ∧ m.shift.2.acc.getD 0 0 = 1 := by decide +kernel
-- R259, Table 07-6: CRC-32C of the nine ASCII digits.
theorem test_crc32c : crc32c (ascii "123456789") = 0xE3069283 := by decide +kernel
-- FIPS 180-4: SHA-256 of "abc".
theorem test_sha256 : (sha256 (ascii "abc")).take 4 = [0xBA#8, 0x78#8, 0x16#8, 0xBF#8] := by decide +kernel
end Sys2Proof.Tests
end

section
/-! PROOFS. The resets of chapter 17: what DEVICE_RESET and FUNCTION_LEVEL_RESET do to the contexts, the requests in flight, the
release records, the key store and the power state. -/

namespace Sys2Proof.Machine

/-! ### Contexts under a reset -/

theorem State.ctx_of_ctxs {s t : State} (h : s.ctxs = t.ctxs) (j : Nat) : s.ctx j = t.ctx j := by rw [State.ctx, State.ctx, h]

/-- One update of each of the first contexts. -/
theorem State.foldl_range_ctx (g : Ctx → Ctx) (s : State) (n j : Nat) :
    ((List.range n).foldl (fun s i => s.setCtx i (g (s.ctx i))) s).ctx j = if j < n then g (s.ctx j) else s.ctx j := by
  induction n with
  | zero => rfl
  | succ n ih =>
    rw [List.range_succ, List.foldl_append, List.foldl_cons, List.foldl_nil, State.setCtx_ctx]
    by_cases hj : j = n
    · subst hj
      simp [ih]
    · have hlt : j < n + 1 ↔ j < n := by omega
      simp [hj, ih, hlt]

theorem State.advance_range_ctx (s : State) (n j : Nat) :
    (s.advance (List.range n)).ctx j = if j < n then (s.ctx j).advance else s.ctx j :=
  (State.ctx_of_ctxs (by simp [State.advance]) j).trans (State.foldl_range_ctx Ctx.advance s n j)

theorem State.clearHost_ctx (s : State) (j : Nat) : s.clearHost.ctx j = if j < 65 then (s.ctx j).clear else s.ctx j :=
  (State.ctx_of_ctxs (by simp [State.clearHost, State.clearPort]) j).trans (State.foldl_range_ctx Ctx.clear s 65 j)

@[simp] theorem State.clearHost_epoch (s : State) (j : Nat) : (s.clearHost.ctx j).epoch = (s.ctx j).epoch := by
  rw [State.clearHost_ctx]
  split <;> rfl

@[simp] theorem State.closeStreams_epoch (s : State) (p : Stream → Bool) (j : Nat) :
    ((s.closeStreams p).ctx j).epoch = (s.ctx j).epoch := by
  refine foldl_keep (g := fun s => (State.ctx s j).epoch) (fun s i => ?_) _ s
  dsimp only
  split
  · rw [State.setCtx_ctx]
    split
    · next h => subst h; rfl
    · rfl
  · rfl

@[simp] theorem State.zeroEngines_epoch (s : State) (j : Nat) : (s.zeroEngines.ctx j).epoch = (s.ctx j).epoch := by
  rw [← State.closeStreams_epoch s (fun _ => true) j]
  exact congrArg Ctx.epoch (State.ctx_of_ctxs (by simp [State.zeroEngines]) j)

/-! ### What parts of a reset leave unchanged -/

@[simp] theorem State.zeroData_frame (s : State) : s.zeroData.ctxs = s.ctxs ∧ s.zeroData.live = s.live ∧
    s.zeroData.hp = s.hp ∧ s.zeroData.recs = s.recs ∧ s.zeroData.ks = s.ks ∧ s.zeroData.tam = s.tam ∧
    s.zeroData.pow = s.pow := by
  have hstep {γ : Type} {g : State → γ} (h : ∀ s a n, g (State.wmZero s a n) = g s) : g s.zeroData = g s := by
    refine (foldl_keep (fun s e => ?_) _ _).trans (h _ _ _)
    obtain ⟨-, -, -, -, _ | r⟩ := e
    · rfl
    · exact h _ _ _
  refine ⟨?_, ?_, ?_, ?_, ?_, ?_, ?_⟩ <;> exact hstep (by simp)

@[simp] theorem State.rehome_frame (s : State) (ws : List Work) : (s.rehome ws).ctxs = s.ctxs ∧ (s.rehome ws).live = s.live ∧
    (s.rehome ws).ks = s.ks ∧ (s.rehome ws).tam = s.tam := by
  have hstep {γ : Type} {g : State → γ} (h : ∀ s i w, g ((State.startWork s i w).noteLane i w) = g s) :
      g (s.rehome ws) = g s := by
    refine foldl_keep (fun s w => ?_) ws s
    split
    · rfl
    · exact h _ _ _
  refine ⟨?_, ?_, ?_, ?_⟩ <;> exact hstep (by simp)

@[simp] theorem State.flrLane_frame (s : State) (i : Nat) : (s.flrLane i).ctxs = s.ctxs ∧ (s.flrLane i).live = s.live ∧
    (s.flrLane i).ks = s.ks ∧ (s.flrLane i).tam = s.tam := by
  unfold State.flrLane
  dsimp only
  split <;> simp

@[simp] theorem State.endCeremony_slots (s : State) (outcome origin : Nat) :
    (s.endCeremony outcome origin).ks.slots = s.ks.slots := by
  unfold State.endCeremony
  split
  · rfl
  · dsimp only
    split <;> simp

@[simp] theorem State.zeroEngines_slots (s : State) : s.zeroEngines.ks.slots = s.ks.slots := by simp [State.zeroEngines]

/-! ### MGR_PASID.VALID under interrupts and events -/

@[simp] theorem State.msix_valid (s : State) (v : Nat) : (s.msix v).hp.valid = s.hp.valid := by
  unfold State.msix
  split
  · split <;> rfl
  · rfl

@[simp] theorem State.fire_valid (s : State) (i : Nat) : (s.fire i).hp.valid = s.hp.valid := by
  unfold State.fire
  split
  · rfl
  · simp

@[simp] theorem State.event_valid (s : State) (code origin : Nat) (detail : List Byte) :
    (s.event code origin detail).hp.valid = s.hp.valid := by
  have hwrite (t : State) : (t.write code origin detail).hp.valid = t.hp.valid := by
    unfold State.write
    dsimp only
    split
    · simp
    · rfl
  unfold State.event
  dsimp only
  (repeat' split) <;> simp [hwrite]

/-! ### DEVICE_RESET: what is cleared -/

@[simp] theorem State.clearDevice_frame (s : State) : s.clearDevice.tam = s.tam ∧ s.clearDevice.pow = s.pow ∧
    s.clearDevice.ks.slots = s.ks.slots := by
  simp [State.clearDevice]

@[simp] theorem State.clearDevice_live (s : State) : s.clearDevice.live = [] := by simp [State.clearDevice]

@[simp] theorem State.clearDevice_recs (s : State) :
    s.clearDevice.recs = s.recs.filter (fun r => r.st == .confirmed || r.st == .offered) := by
  simp [State.clearDevice]

/-- The parts of a device reset before the advance keep every epoch. -/
theorem State.clearParts_epoch (s : State) (i : Nat) :
    (s.zeroEngines.resetLanes.clearHost.clearTable.zeroData.clearSerial.clearLoops.ctx i).epoch = (s.ctx i).epoch :=
  calc (State.ctx _ i).epoch
    _ = (s.zeroEngines.resetLanes.clearHost.ctx i).epoch := by
      rw [State.ctx_of_ctxs (t := s.zeroEngines.resetLanes.clearHost) (by simp) i]
    _ = (s.zeroEngines.resetLanes.ctx i).epoch := State.clearHost_epoch _ i
    _ = (s.zeroEngines.ctx i).epoch := by rw [State.ctx_of_ctxs (t := s.zeroEngines) (by simp) i]
    _ = (s.ctx i).epoch := State.zeroEngines_epoch s i

theorem State.clearDevice_ctxs (s : State) : ∃ e : State, e.ctxs = s.ctxs ∧ s.clearDevice.ctxs =
    (e.zeroEngines.resetLanes.clearHost.clearTable.zeroData.clearSerial.clearLoops.advance (List.range 66)).ctxs :=
  ⟨{ s with live := [], recs := s.recs.filter (fun r => r.st == RecSt.confirmed || r.st == RecSt.offered) }.endCeremony 2
    noOrigin, by simp, by simp only [State.clearDevice]⟩

theorem State.clearDevice_ctx_reset (s : State) {i : Nat} (hi : i < 66) :
    (s.clearDevice.ctx i).epoch = nextEpoch (s.ctx i).epoch ∧ (s.clearDevice.ctx i).cache = [] ∧
      (s.clearDevice.ctx i).credits = 32 := by
  obtain ⟨e, he, hclear⟩ := s.clearDevice_ctxs
  rw [State.ctx_of_ctxs hclear, State.advance_range_ctx, if_pos hi]
  simp [Ctx.advance, e.clearParts_epoch, State.ctx_of_ctxs he]

/-! ### The start without failing self-tests -/

theorem State.evaluate_starting {s : State} (h : s.pow.ready = false) (origin : Nat) : s.evaluate origin = s := by
  simp [State.evaluate, h]

theorem Power.bankAt_zero_or_one (p : Power) (i : Nat) : p.bankAt i = p.bankAt 0 ∨ p.bankAt i = p.bankAt 1 := by
  by_cases h : i = 0 <;> simp [Power.bankAt, h]

theorem Power.anyBank_of_bankOk {p : Power} {i : Nat} (h : p.bankOk i = true) : p.anyBank = true := by
  rw [Power.anyBank, Bool.or_eq_true]
  rcases p.bankAt_zero_or_one i with e | e
  · exact .inl (by rwa [Power.bankOk, e] at h)
  · exact .inr (by rwa [Power.bankOk, e] at h)

/-- The boot ROM takes the bank it tries first when that bank holds a valid image (R579). -/
theorem State.boot_of_bankOk {s : State} (hb : s.pow.bankOk s.pow.firstBank = true) :
    s.boot 0 = s.mapPow (fun p => { p with running := p.firstBank }) := if_pos hb

theorem State.start_nil (s : State) : s.start [] =
    ((if (s.boot 0).pow.anyBank then s.boot 0 else (s.boot 0).event 0x0C04 noOrigin [0#8, 4#8]).mapPow
      (fun p => Power.result { p with failed := [] })).evaluate noOrigin := by
  simp [State.start, State.runTests, State.mapPow]

theorem State.start_nil_of_bankOk {s : State} (hr : s.pow.ready = false) (hb : s.pow.bankOk s.pow.firstBank = true) :
    s.start [] = s.mapPow (fun p => Power.result { p with running := p.firstBank, failed := [] }) := by
  have hany : (s.boot 0).pow.anyBank = true := by
    rw [State.boot_of_bankOk hb]
    exact Power.anyBank_of_bankOk (p := s.pow) hb
  rw [State.start_nil, if_pos hany, State.boot_of_bankOk hb]
  exact State.evaluate_starting
    (s := s.mapPow (fun p => Power.result { p with running := p.firstBank, failed := [] })) hr noOrigin

theorem State.evaluate_bankAt (s : State) (origin i : Nat) : (s.evaluate origin).pow.bankAt i = s.pow.bankAt i := by
  unfold State.evaluate
  dsimp only
  split
  · rfl
  · simp [Power.bankAt]

theorem State.boot_zero_bankAt (s : State) (i : Nat) : (s.boot 0).pow.bankAt i = s.pow.bankAt i := by
  simp only [State.boot, Nat.reduceLeDiff, reduceIte]
  repeat' split
  all_goals simp [State.dropPending, State.haltModule, Power.bankAt]

/-- A start whose self-tests pass leaves the banks as they are. -/
theorem State.start_nil_bankAt (s : State) (i : Nat) : (s.start []).pow.bankAt i = s.pow.bankAt i := by
  rw [State.start_nil, State.evaluate_bankAt, ← State.boot_zero_bankAt s i]
  simp [Power.result, Power.bankAt]

theorem State.started_fault {s : State} {f : Fault} (h : s.started = .fault f) :
    f = .ungovernedFirmware ∧ (s.pow.bankAt s.pow.running).version ≠ 0x0302 := by
  unfold State.started at h
  split at h
  · next hc =>
    cases h
    rw [Bool.and_eq_true, bne_iff_ne] at hc
    exact ⟨rfl, hc.2⟩
  · cases h

theorem State.started_next {s : State} (h : (s.pow.bankAt s.pow.running).version = 0x0302) : s.started = .next s := by
  simp [State.started, h]

/-- A start that finds a valid image of Drinum 3.2 in the active bank, with no image pending. -/
theorem State.start_nil_started {s : State} (hr : s.pow.ready = false) (hp : s.pow.pendBank = none)
    (hb : s.pow.bankOk s.pow.active = true) (hv : (s.pow.bankAt s.pow.active).version = 0x0302) :
    (s.start []).started = .next (s.mapPow (fun p => Power.result { p with running := s.pow.active, failed := [] })) := by
  have hfirst : s.pow.firstBank = s.pow.active := by rw [Power.firstBank, hp]; rfl
  have hstart : s.start [] = s.mapPow (fun p => Power.result { p with running := s.pow.active, failed := [] }) := by
    rw [State.start_nil_of_bankOk hr (hfirst ▸ hb)]
    simp only [State.mapPow, hfirst]
  rw [hstart]
  exact State.started_next hv

/-! ### DEVICE_RESET -/

/-- The module when a device reset has cleared it and starts it again. -/
def State.restarting (s : State) (cause : Nat) : State :=
  (s.clearDevice.mapHp (fun h => { h with d3hot := false })).mapPow (fun p => p.begin cause)

theorem State.restarting_pow (s : State) (cause : Nat) : (s.restarting cause).pow = s.pow.begin cause := by
  simp [State.restarting]

theorem execDeviceReset_due {s : State} {cause : Nat} (h : s.resetDue cause = true) (fails : List TestFail) :
    execDeviceReset cause fails s = ((s.restarting cause).start fails).started := by
  simp [execDeviceReset, h, State.restarting]

/-- What a device reset leaves when the active bank holds a valid image of Drinum 3.2 and no image is pending. -/
theorem execDeviceReset_restarts {s : State} {cause : Nat} (hd : s.resetDue cause = true) (hp : s.pow.pendBank = none)
    (hb : s.pow.bankOk s.pow.active = true) (hv : (s.pow.bankAt s.pow.active).version = 0x0302) :
    ∃ u, execDeviceReset cause [] s = .next u ∧ u.live = [] ∧
      u.recs = s.recs.filter (fun r => r.st == .confirmed || r.st == .offered) ∧
      (∀ i, i < 66 → (u.ctx i).epoch = nextEpoch (s.ctx i).epoch ∧ (u.ctx i).cache = [] ∧ (u.ctx i).credits = 32) ∧
      u.pow.ready = false ∧ u.pow.starting = some cause ∧ u.pow.armed = none ∧ u.tam.life = s.tam.life ∧
      (∀ k, (u.slot k).key = (s.slot k).key) := by
  have hpow := s.restarting_pow cause
  have hnext := State.start_nil_started (s := s.restarting cause) (by rw [hpow]; rfl) (by rw [hpow]; exact hp)
    (by rw [hpow]; exact hb) (by rw [hpow]; exact hv)
  refine ⟨_, (execDeviceReset_due hd []).trans hnext, by simp [State.restarting], by simp [State.restarting], fun i hi => ?_,
    by simp [hpow, Power.begin, Power.result], by simp [hpow, Power.begin, Power.result],
    by simp [hpow, Power.begin, Power.result], by simp [State.restarting], fun k => by simp [State.slot, State.restarting]⟩
  rw [State.ctx_of_ctxs (t := s.clearDevice) (by simp [State.restarting])]
  exact s.clearDevice_ctx_reset hi

/-- A device reset stops the model only where a bank holds firmware that R17 leaves ungoverned. -/
theorem execDeviceReset_fault {s : State} {cause : Nat} {f : Fault} (h : execDeviceReset cause [] s = .fault f) :
    f = .ungovernedFirmware ∧ ((s.pow.bankAt 0).version ≠ 0x0302 ∨ (s.pow.bankAt 1).version ≠ 0x0302) := by
  by_cases hd : s.resetDue cause = true
  · rw [execDeviceReset_due hd] at h
    obtain ⟨hf, hv⟩ := State.started_fault h
    rw [State.start_nil_bankAt, State.restarting_pow] at hv
    refine ⟨hf, ?_⟩
    rcases s.pow.bankAt_zero_or_one ((s.restarting cause).start []).pow.running with e | e
    · exact .inl (e ▸ hv)
    · exact .inr (e ▸ hv)
  · simp [execDeviceReset, hd] at h

/-! ### FUNCTION_LEVEL_RESET -/

/-- Without a slice reset in flight there is none to complete. -/
theorem State.endResets_none {s : State} (h : ∀ l ∈ s.live, ∀ n, l.job ≠ .sliceReset n) : s.endResets = s :=
  calc s.endResets
    _ = s.live.foldl (fun t _ => t) s := List.foldl_ext _ _ _ fun t l hl => by
      split
      · next n hn => exact absurd hn (h l hl n)
      · rfl
    _ = s := List.foldl_fixed _

@[simp] theorem State.dropHost_live (s : State) : s.dropHost.live = s.live.filter (fun l => !l.rq.fromHost) := by
  unfold State.dropHost
  dsimp only
  split <;> simp

@[simp] theorem State.clearHost_valid (s : State) : s.clearHost.hp.valid = false := rfl

/-- The contexts of the host port are cleared and advance; that of CONSOLE is left alone. -/
theorem State.clearHost_advance_ctx (s : State) (i : Nat) :
    (s.clearHost.clearTable.zeroData.advance (List.range 65)).ctx i =
      if i < 65 then (s.ctx i).clear.advance else s.ctx i := by
  rw [State.advance_range_ctx, State.ctx_of_ctxs (t := s.clearHost) (by simp) i, State.clearHost_ctx]
  split <;> rfl

theorem State.clearFunction_spec {s : State} (h : ∀ l ∈ s.live, ∀ n, l.job ≠ .sliceReset n) :
    s.clearFunction.live = s.live.filter (fun l => !l.rq.fromHost) ∧
      (∀ i, s.clearFunction.ctx i = if i < 65 then (s.ctx i).clear.advance else s.ctx i) ∧
      s.clearFunction.hp.valid = false ∧ s.clearFunction.ks = { s.ks with cache := [] } ∧ s.clearFunction.tam = s.tam := by
  rw [State.clearFunction, State.endResets_none h]
  refine ⟨by simp, fun i => ?_, by simp, by simp, by simp⟩
  rw [State.clearHost_advance_ctx, State.ctx_of_ctxs (t := s) (by simp) i]

theorem execFunctionLevelReset_clears {s : State} {cause : Nat} (hm : s.pow.main = true) (hw : s.pow.warned = false)
    (hl : 1 ≤ cause) (hu : cause ≤ 3) (h : ∀ l ∈ s.live, ∀ n, l.job ≠ .sliceReset n) :
    ∃ u, execFunctionLevelReset cause s = .next u ∧ (∀ l ∈ u.live, l.rq.fromHost = false) ∧
      (∀ i, i < 65 → (u.ctx i).epoch = nextEpoch (s.ctx i).epoch ∧ (u.ctx i).sq = .init ∧ (u.ctx i).credits = 32) ∧
      u.ctx 65 = s.ctx 65 ∧ u.hp.valid = false ∧ u.ks.slots = s.ks.slots ∧ u.ks.cache = [] ∧ u.tam.life = s.tam.life := by
  obtain ⟨hlive, hctx, hvalid, hks, htam⟩ := State.clearFunction_spec h
  have hnext : execFunctionLevelReset cause s = .next ((s.clearFunction.mapHp (fun h => { h with d3hot := false })).event
      0x0C03 noOrigin [byte cause]) := by simp [execFunctionLevelReset, hm, hw, hl, hu]
  refine ⟨_, hnext, by simp [hlive], fun i hi => ?_, ?_, by simp [hvalid], by simp [hks], by simp [hks], by simp [htam]⟩
  · rw [State.ctx_of_ctxs (t := s.clearFunction) (by simp), hctx, if_pos hi]
    exact ⟨rfl, rfl, rfl⟩
  · rw [State.ctx_of_ctxs (t := s.clearFunction) (by simp), hctx]
    rfl

/-- Settles O46: each clause by what the reset's own meaning leaves (`execDeviceReset_restarts`, `execDeviceReset_fault`,
`execFunctionLevelReset_clears`). -/
theorem resetsClearTheModule : Obligations.ResetsClearTheModule := by
  refine ⟨fun s hm hw hr _ hp hb hv => ⟨fun ha => ?_, ?_⟩, ?_, ?_⟩
  · exact execDeviceReset_restarts (by simp [State.resetDue, hm, hw, hr, ha]) hp hb hv
  · obtain ⟨u, hnext, hlive, -, -, hready, hstarting, -⟩ :=
      execDeviceReset_restarts (cause := 6) (by simp [State.resetDue, hm, hw, hr]) hp hb hv
    exact ⟨u, hnext, hlive, hstarting, hready⟩
  · exact fun s f h => execDeviceReset_fault h
  · exact fun s cause hm hw hl hu h => execFunctionLevelReset_clears hm hw hl hu h

end Sys2Proof.Machine
end

section
/-! PROOFS. Mains time (chapter 02): the stamp field and the status commands, the slots that open, the stamp and its
persistence, the phase unit, and the statements that carry the dual signature. -/

namespace Sys2Proof.Machine

/-! ### The stamp field (Table 02-4) -/

/-- Settles O6: the stamp field in each state of the phase unit. -/
theorem theStampFieldIsZeroWhileNoStampIsIssued : Obligations.TheStampFieldIsZeroWhileNoStampIsIssued := by
  refine fun p => ⟨?_, ?_⟩
  · rintro (h | h | h | h | h) <;> simp [Phase.stamp, Phase.issuing, h]
  · rintro (h | h | h) <;> simp [Phase.stamp, Phase.issuing, h]

/-! ### Checks of a request's form -/

@[simp] theorem firstFail_needLength {rq : Rq} {n : Nat} : firstFail (needLength rq n) = none ↔ rq.body.length = n := by
  simp [needLength]

@[simp] theorem firstFail_needZero {rq : Rq} {i n : Nat} :
    firstFail (needZero rq i n) = none ↔ zeroAt rq.body i n = true := by
  simp [needZero]

@[simp] theorem State.firstFail_needRandom {s : State} : firstFail s.needRandom = none ↔ s.pow.drbgStop = false := by
  simp [State.needRandom]

/-- A byte that reads zero meets the check of one reserved byte (R94). -/
theorem zeroAt_one {b : List Byte} {i : Nat} (h : at8 b i = 0) : zeroAt b i 1 = true := by
  have hb : b.getD i 0#8 = 0#8 := BitVec.eq_of_toNat_eq h
  cases hi : b[i]? with
  | none => simp [zeroAt, slice, List.take_one, hi]
  | some w =>
    rw [List.getD_eq_getElem?_getD, hi] at hb
    simpa [zeroAt, slice, List.take_one, hi] using hb

/-! ### Status commands (R63, R521, Tables 11-9, 17-5) -/

/-- Settles O5: each command passes the check of its length and replies what its meaning computes from the state. -/
theorem statusCommandsReplyWhatTheModuleShows : Obligations.StatusCommandsReplyWhatTheModuleShows := by
  intro s t v x rt arr p
  have hlen (o : Op) {n : Nat} (hp : p.length = 16 + n) :
      firstFail (needLength (t.request? rt p arr o x) n) = none := by simp [hp]
  refine ⟨fun h hp => ?_, fun h hp => ?_, fun h hp => ?_, fun h hp hz hview => ?_, fun h hp => ?_⟩
  · exact completes rfl h rfl (guard_none (hlen .sysInfo hp))
  · exact completes rfl h rfl (guard_none (hlen .stampRead hp))
  · exact completes rfl h rfl (guard_none (hlen .fwStatus hp))
  · have hform : firstFail (needLength (t.request? rt p arr .tamperStatus x) 4 ++
        needZero (t.request? rt p arr .tamperStatus x) 1 3 ++ [(decide (1 < at8 (p.drop 16) 0), .unsupported, 0)]) = none := by
      simp [hp, hz, hview]
    refine completes rfl h rfl ((guard_none hform).trans ?_)
    simp
  · refine completes rfl h rfl ((guard_none (hlen .laneStatus hp)).trans ?_)
    simp [List.range_succ]

/-! ### Release records while slots open (Table 08-5) -/

@[simp] theorem State.windfall_frame (s : State) (r : Rec) (st : Status) (d : Nat) (e : Bool) :
    (s.windfall r st d e).ph = s.ph ∧ (s.windfall r st d e).ks = s.ks ∧
      (s.windfall r st d e).recs = (s.dropRecord r.ch r.seq).recs := by
  unfold State.windfall
  dsimp only
  split
  · simp
  · next hl =>
    obtain ⟨-, -, rfl⟩ := takeLive_some hl
    simp

@[simp] theorem State.roll_frame (s : State) (r : Rec) : (s.roll r).ph = s.ph ∧ (s.roll r).ks = s.ks := by
  unfold State.roll
  dsimp only
  (repeat' split) <;> simp

@[simp] theorem State.openRecord_frame (a : Nat) (s : State) (r : Rec) :
    (s.openRecord a r).ph = s.ph ∧ (s.openRecord a r).ks = s.ks := by
  unfold State.openRecord
  (repeat' split) <;> simp

@[simp] theorem State.openSlot_frame (s : State) (a : Nat) : (s.openSlot a).ph = s.ph ∧ (s.openSlot a).ks = s.ks := by
  simp [State.openSlot]

theorem State.dropRecord_subset (s : State) (ch seq : Nat) : (s.dropRecord ch seq).recs ⊆ s.recs := by
  simp [State.dropRecord]

theorem State.windfall_subset {s : State} {r : Rec} {st : Status} {d : Nat} {e : Bool} :
    (s.windfall r st d e).recs ⊆ s.recs := by
  have hrecs : (s.windfall r st d e).recs = (s.dropRecord r.ch r.seq).recs := by simp
  rw [hrecs]
  exact s.dropRecord_subset _ _

/-- A record put in place that is not GREEN makes no other record GREEN. -/
theorem State.setRecord_green {s : State} {r q : Rec} (hr : r.st ≠ .green) (hq : q ∈ (s.setRecord r).recs)
    (hg : q.st = .green) : q ∈ s.recs := by
  obtain ⟨w, hw, rfl⟩ := List.mem_map.mp hq
  split at hg
  · exact absurd hg hr
  · next hne => rwa [if_neg hne]

theorem State.roll_green {s : State} {r q : Rec} (hr : r.st ≠ .green) (hq : q ∈ (s.roll r).recs) (hg : q.st = .green) :
    q ∈ s.recs := by
  unfold State.roll at hq
  dsimp only at hq
  split at hq
  · exact State.windfall_subset hq
  · split at hq
    · simpa using State.windfall_subset hq
    · simpa using State.setRecord_green (by exact hr) hq hg

theorem State.openRecord_green {a : Nat} {s : State} {r q : Rec} (hq : q ∈ (s.openRecord a r).recs) (hg : q.st = .green) :
    q ∈ s.recs := by
  unfold State.openRecord at hq
  split at hq
  · exact State.setRecord_green (by simp) hq hg
  · split at hq
    · next h =>
      obtain ⟨hripe, -⟩ : r.st = .ripe ∧ r.target = a := by simpa using h
      exact State.roll_green (by simp [hripe]) hq hg
    · split at hq
      · exact s.dropRecord_subset _ _ hq
      · exact hq

theorem State.foldl_openRecord_green {a : Nat} {q : Rec} (hg : q.st = .green) (rs : List Rec) {s : State}
    (hq : q ∈ (rs.foldl (State.openRecord a) s).recs) : q ∈ s.recs := by
  induction rs generalizing s with
  | nil => exact hq
  | cons r rs ih => exact State.openRecord_green (ih hq) hg

/-- A slot that opens makes no record GREEN. -/
theorem State.openSlot_green {a : Nat} {s : State} {q : Rec} (hq : q ∈ (s.openSlot a).recs) (hg : q.st = .green) :
    q ∈ s.recs := State.foldl_openRecord_green hg s.recs hq

@[simp] theorem State.openRest_ph (s : State) : s.openRest.ph = s.ph := by simp [State.openRest]

/-! ### A stamp cycle (R51, R83) -/

@[simp] theorem Phase.beginCycle_frame (p : Phase) : p.beginCycle.st = p.st ∧ p.beginCycle.c = p.c ∧ p.beginCycle.phi = p.phi ∧
    p.beginCycle.cSet = p.cSet ∧ p.beginCycle.waiting = p.waiting ∧ p.beginCycle.resume = p.resume ∧
    p.beginCycle.resumed = p.resumed := by
  unfold Phase.beginCycle
  split <;> exact ⟨rfl, rfl, rfl, rfl, rfl, rfl, rfl⟩

@[simp] theorem State.newCycle_ph (s : State) : s.newCycle.ph = s.ph := by
  unfold State.newCycle
  dsimp only
  split <;> simp

@[simp] theorem State.newCycle_sigs (s : State) : s.newCycle.ks.sigs = 0 := by
  unfold State.newCycle
  dsimp only
  split <;> simp

@[simp] theorem State.enterPh_ph (s : State) (st : PhSt) : (s.enterPh st).ph = { s.ph with st := st } := by
  unfold State.enterPh
  dsimp only
  split <;> simp

theorem State.setStamp_next {s : State} {c : Nat} (h : c < stampEnd) :
    s.setStamp c = (s.mapPh (fun p => { p with c := c, phi := 0 }.beginCycle)).newCycle := if_neg (Nat.not_le.mpr h)

theorem State.setStamp_end {s : State} {c : Nat} (h : stampEnd ≤ c) : s.setStamp c = s.enterPh .fault := if_pos h

theorem execStampIncrement_issuing {s : State} (h : s.ph.issuing = true) :
    execStampIncrement s = .next (s.openRest.setStamp (s.ph.c + 1)) := by simp [execStampIncrement, h]

theorem execSlotOpen_clean {s : State} (h : s.ph.issuing = true) (hk : s.ph.phi / 1024 < 63) :
    execSlotOpen ⟨none, none⟩ s = .next ((s.mapPh (fun p => { p with phi := (s.ph.phi / 1024 + 1) * 1024 })).openSlot
      (s.ph.c * 64 + (s.ph.phi / 1024 + 1))) := by
  have hlt : ¬ 64 ≤ s.ph.phi / 1024 + 1 := by omega
  simp [execSlotOpen, State.findEcc, h, hlt]

/-! ### Persistence (R64, R65) -/

/-- The copy that a persistence writes stands in the slot of its sequence number in both stores. -/
theorem State.persist_copies {s : State} (h : s.ph.copies.length = 4) :
    s.persist.ph.copies[s.persist.ph.seq % 2]? = some (some ⟨s.ph.c, s.ph.ticks, s.persist.ph.seq, s.epochs, true⟩) ∧
      s.persist.ph.copies[s.persist.ph.seq % 2 + 2]? =
        some (some ⟨s.ph.c, s.ph.ticks, s.persist.ph.seq, s.epochs, true⟩) := by
  have hk : (s.ph.seq + 1) % 2 < 2 := Nat.mod_lt _ (by decide)
  have hepochs : ({ s with ph := { s.ph with cp := s.ph.c, tp := s.ph.ticks } } : State).epochs = s.epochs := rfl
  constructor <;> (simp [State.persist, State.writeCopy, hepochs, List.getElem?_set, h]; omega)

theorem execPeriodicPersistence_due {s : State} (n : Nat) (hi : s.ph.issuing = true) (hc : s.ph.c % 65536 = 0)
    (hn : s.ph.cp ≠ s.ph.c ∨ s.ph.seq = 0) : execPeriodicPersistence n s = .next (s.tick n).persist := by
  have hi' : (s.tick n).ph.issuing = true := hi
  have hc' : (s.tick n).ph.c % 65536 = 0 := hc
  have hn' : (s.tick n).ph.cp ≠ (s.tick n).ph.c ∨ (s.tick n).ph.seq = 0 := hn
  simp only [execPeriodicPersistence, hi', hc', Bool.and_eq_true, Bool.or_eq_true, bne_iff_ne, beq_iff_eq, hn', and_self,
    if_true]

/-- Settles O11: the increment by `setStamp`, the opening of a slot by `openSlot`, the persistence by `persist`. -/
theorem theStampAdvancesAndIsPersisted : Obligations.TheStampAdvancesAndIsPersisted := by
  refine ⟨fun s => ⟨fun hi hc => ?_, fun hi hc => ?_, fun hi => ?_⟩, fun s hi hk => ?_, fun s n hi hc hn hl => ?_⟩
  · refine ⟨_, execStampIncrement_issuing hi, ?_⟩
    simp [State.setStamp_next hc]
  · refine ⟨_, execStampIncrement_issuing hi, ?_⟩
    simp [State.setStamp_end hc]
  · show execStampIncrement s = .next s
    simp [execStampIncrement, hi]
  · refine ⟨_, execSlotOpen_clean hi hk, by simp, fun r hr hg => ⟨r, ?_, rfl, rfl, hg⟩⟩
    simpa using State.openSlot_green hr hg
  · obtain ⟨hlow, hhigh⟩ := State.persist_copies (s := s.tick n) hl
    exact ⟨_, execPeriodicPersistence_due n hi hc hn, rfl, rfl, rfl, hlow, hhigh⟩

/-! ### The phase unit (Table 02-3) -/

@[simp] theorem Phase.correct_frame (p : Phase) (err : Int) : (p.correct err).st = p.st ∧ (p.correct err).c = p.c ∧
    (p.correct err).phi = p.phi ∧ (p.correct err).cSet = p.cSet ∧ (p.correct err).waiting = p.waiting ∧
    (p.correct err).resume = p.resume ∧ (p.correct err).resumed = p.resumed := by
  unfold Phase.correct
  dsimp only
  split <;> simp

theorem State.enterLock_ph (s : State) (err : Int) : (s.enterLock err).ph =
    Phase.correct { s.ph with unlocked := false, missing := 0, since := 0, st := .lock } err := by
  simp [State.enterLock]

theorem State.enterCoast_ph (s : State) : s.enterCoast.ph =
    { s.ph with unlocked := true, left := 0, corr := 0, st := .coast } := by
  simp [State.enterCoast]

/-- The stamp begins at C = 0 the first time (R54). -/
theorem State.beginStamp_first {s : State} (enter : State → State) (hc : s.ph.cSet = false) :
    s.beginStamp enter = (enter (s.mapPh (fun p => { p with cSet := true, c := 0, phi := 0 }))).newCycle.persist := by
  simp [State.beginStamp, hc]

/-- Later the stamp goes on at the resume value (R68, R70). -/
theorem State.beginStamp_resumes {s : State} (enter : State → State) {r : Resume} (hc : s.ph.cSet = true)
    (hw : s.ph.waiting = some r) (hr : r.start < stampEnd) :
    s.beginStamp enter = ((enter (s.mapPh (fun p => { p with
      waiting := none, resume := r.start, resumed := true, fresh := true, c := r.start, phi := 0 }))).event 0x0105 noOrigin
        (be 5 r.cp ++ [byte r.rule])).newCycle := by
  simp [State.beginStamp, hc, hw, Nat.not_le.mpr hr, State.mapPh]

theorem State.measure_ph (s : State) (m : MainsCycle) (g : Bool) :
    (s.measure m g).ph.st = s.ph.st ∧ (s.measure m g).ph.c = s.ph.c ∧ (s.measure m g).ph.phi = s.ph.phi ∧
      (s.measure m g).ph.cSet = s.ph.cSet ∧ (s.measure m g).ph.waiting = s.ph.waiting ∧
      (s.measure m g).ph.good = if g then min 8 (s.ph.good + 1) else 0 := by
  unfold State.measure
  dsimp only
  split <;> simp

theorem State.observing_of {s : State} (hm : s.pow.main = true)
    (hs : s.ph.st = .acquire ∨ s.ph.st = .lock ∨ s.ph.st = .hold ∨ s.ph.st = .coast ∨ s.ph.st = .slew) :
    s.observing = true := by
  rcases hs with h | h | h | h | h <;> simp [State.observing, hm, h]

/-- The eighth good cycle in a row in ACQUIRE begins the stamp in LOCK. -/
theorem execMainsCycleEnd_acquired {s : State} {m : MainsCycle} (hm : s.pow.main = true) (hs : s.ph.st = .acquire)
    (hg : s.ph.goodCycle m = true) (h7 : 7 ≤ s.ph.good) :
    ∃ t : State, execMainsCycleEnd m s = .next (t.beginStamp (fun s => s.enterLock 0)) ∧ t.ph.cSet = s.ph.cSet ∧
      t.ph.waiting = s.ph.waiting := by
  obtain ⟨hst, -, -, hset, hwait, hgood⟩ := s.measure_ph m true
  have hobs : s.observing = true := State.observing_of hm (.inl hs)
  have height : min 8 (s.ph.good + 1) = 8 := by omega
  refine ⟨if s.ph.inWindow m then (s.measure m true).mapPh Phase.crossed else s.measure m true, ?_, ?_, ?_⟩
  · unfold execMainsCycleEnd
    by_cases hw : s.ph.inWindow m = true <;> simp [hobs, hg, hw, hst, hs, hgood, height, Phase.crossed]
  · split <;> simp [hset, Phase.crossed]
  · split <;> simp [hwait, Phase.crossed]

/-- A cycle that is not good is measured and does nothing else. -/
theorem execMainsCycleEnd_bad {s : State} {m : MainsCycle} (ho : s.observing = true) (hg : s.ph.goodCycle m = false) :
    execMainsCycleEnd m s = .next (s.measure m false) := by
  unfold execMainsCycleEnd
  simp only [ho, hg, Bool.false_and, Bool.not_true, Bool.false_eq_true, if_false, Bool.not_false, if_true]
  split <;> rfl

theorem execCrossingMissing_locked {s : State} (hm : s.pow.main = true) (hs : s.ph.st = .lock ∨ s.ph.st = .slew) :
    execCrossingMissing s = .next ((s.mapPh (fun p => { p with missing := min 4 (p.missing + 1) })).enterPh .hold) := by
  have ho : s.observing = true := State.observing_of hm (by tauto)
  rcases hs with h | h <;> simp [execCrossingMissing, ho, h]

theorem execCrossingMissing_hold {s : State} (hm : s.pow.main = true) (hs : s.ph.st = .hold) :
    execCrossingMissing s = .next (if 4 ≤ s.ph.missing + 1
      then (s.mapPh (fun p => { p with missing := min 4 (p.missing + 1) })).enterCoast
      else s.mapPh (fun p => { p with missing := min 4 (p.missing + 1) })) := by
  simp [execCrossingMissing, State.observing_of hm (by tauto), hs]

theorem execCrossingMissing_coast {s : State} (hm : s.pow.main = true) (hs : s.ph.st = .coast) (hp : s.ph.period ≠ 0) :
    execCrossingMissing s = .next (s.mapPh (fun p => { p with missing := min 4 (p.missing + 1) })) := by
  simp [execCrossingMissing, State.observing_of hm (by tauto), hs, hp]

theorem execAcquireTimeout_set {s : State} (hm : s.pow.main = true) (hs : s.ph.st = .acquire) (hc : s.ph.cSet = true) :
    execAcquireTimeout s = .next (s.beginStamp State.enterCoast) := by
  simp [execAcquireTimeout, State.observing_of hm (.inl hs), hs, hc]

/-- Settles O12: missing crossings by the state they are met in, good and bad cycles by `execMainsCycleEnd_acquired` and
`execMainsCycleEnd_bad`, and what the beginning of the stamp leaves by `State.beginStamp_first` and
`State.beginStamp_resumes`. -/
theorem phaseUnitFollowsTheMains : Obligations.PhaseUnitFollowsTheMains := by
  refine ⟨fun s hm => ⟨fun hs => ?_, fun hs hlt => ?_, fun hs hle => ?_, fun hs hp => ?_⟩,
    fun s m hm hs hg h7 _ => ⟨fun hc => ?_, fun r hc hw hr => ?_⟩, fun s m ho hg => ?_, fun s r hm hs hc hw hr => ?_⟩
  · exact ⟨_, execCrossingMissing_locked hm hs, by simp⟩
  · refine ⟨_, execCrossingMissing_hold hm hs, ?_⟩
    have hmin : min 4 (s.ph.missing + 1) = s.ph.missing + 1 := Nat.min_eq_right (by omega)
    simp [Nat.not_le.mpr hlt, hmin]
  · refine ⟨_, execCrossingMissing_hold hm hs, ?_⟩
    simp [hle, State.enterCoast_ph]
  · exact execCrossingMissing_coast hm hs hp
  · obtain ⟨t, hnext, hset, -⟩ := execMainsCycleEnd_acquired hm hs hg h7
    refine ⟨_, hnext, ?_⟩
    simp [State.beginStamp_first _ (hset.trans hc), State.enterLock_ph, State.persist, State.writeCopy]
  · obtain ⟨t, hnext, hset, hwait⟩ := execMainsCycleEnd_acquired hm hs hg h7
    refine ⟨_, hnext, ?_⟩
    simp [State.beginStamp_resumes _ (hset.trans hc) (hwait.trans hw) hr, State.enterLock_ph]
  · obtain ⟨hst, hcount, hphi, -, -, hgood⟩ := s.measure_ph m false
    exact ⟨_, execMainsCycleEnd_bad ho hg, by simpa using hgood, hcount, hphi, hst⟩
  · refine ⟨_, execAcquireTimeout_set hm hs hc, ?_⟩
    simp [State.beginStamp_resumes _ hc hw hr, State.enterCoast_ph]

/-! ### Statements under the dual signature (R371-R375, R378) -/

/-- A statement whose signature passes its checks, made while the hash units agree (R387), goes through the verification inside
the module (R373). -/
theorem statement_signs {t : State} {rq : Rq} (body : List Byte) (hd : firstFail (t.dualChecks rq.ctx) = none)
    (hm : rq.x.misses = 0) : t.statement rq body =
      Act.verified t rq (.done .ok 0 (body ++ t.dualSign body) (t.dualSigned rq.ctx)) := by
  simp [State.statement, guard_none hd, Act.onHash, hm]

theorem statement_verifies {t : State} {rq : Rq} (body : List Byte) (hd : firstFail (t.dualChecks rq.ctx) = none)
    (hm : rq.x.misses = 0) (hv : rq.x.verify = none) : t.statement rq body =
      .done .ok 0 (body ++ t.dualSign body) (t.dualSigned rq.ctx) := by
  rw [statement_signs body hd hm, Act.verified, hv]

/-- A statement whose signature fails its verification keeps the leaf used and answers ST_FAULT (R373, R383). -/
theorem statement_faults {t : State} {rq : Rq} (body : List Byte) {kat : Bool} (hd : firstFail (t.dualChecks rq.ctx) = none)
    (hm : rq.x.misses = 0) (hv : rq.x.verify = some kat) : t.statement rq body =
      .refuse ((t.dualSigned rq.ctx).pkFault rq 1 kat) .fault 0x00C6 := by
  rw [statement_signs body hd hm, Act.verified, hv]

/-- STAMP.REPORT for the identity key is a statement over the stamp report body (R73, R74). -/
theorem doStampReport_statement {t : State} {rq : Rq} (hi : t.ph.issuing = true) (hr : t.pow.drbgStop = false)
    (hl : rq.body.length = 20) (hsel : at8 rq.body 0 = 0) (hz : at8 rq.body 1 = 0) (hk : fld rq.body 2 2 = 0) :
    doStampReport rq t = t.statement rq (t.stampBody rq.owner (rq.body.drop 4)) := by
  have hform : firstFail (needLength rq 20 ++ t.needStamp ++ t.needRandom ++ needZero rq 1 1 ++
      selectorChecks (at8 rq.body 0) (fld rq.body 2 2)) = none := by
    simp [needStamp_issuing hi, hr, zeroAt_one hz, selectorChecks, hsel, hk, hl]
  rw [doStampReport, guard_none hform, signReport, if_pos hsel]

/-- ATTEST.DEVICE without the chain bundle is a statement over the device body (R375). -/
theorem doAttestDevice_statement {t : State} {rq : Rq} (hi : t.ph.issuing = true) (hr : t.pow.drbgStop = false)
    (hlife : t.tam.life ≠ .decommissioned) (hl : rq.body.length = 36) (hz : zeroAt rq.body 17 3 = true)
    (hchain : at8 rq.body 16 = 0) (hd : descAbsent rq.body 20 = true) :
    doAttestDevice rq t = t.statement rq (t.deviceBody t.vpCfgs (rq.body.take 16)) := by
  have hform : firstFail (needLength rq 36 ++ t.needStamp ++ t.needRandom ++ (needLength rq 36 ++ needZero rq 17 3 ++
      [(decide (1 < at8 rq.body 16) || (at8 rq.body 16 == 0 && !descAbsent rq.body 20), .unsupported, 0)])) = none := by
    simp [needStamp_issuing hi, hr, hl, hz, hchain, hd]
  have hissued : (t.tam.life == .decommissioned) = false := by simpa using hlife
  simp only [doAttestDevice, hissued, Bool.false_eq_true, if_false]
  rw [guard_none hform, if_pos hchain]

/-- ATTEST.KEY of a key that its context may name is a statement over the key's provenance (R378). -/
theorem doAttestKey_statement {t : State} {rq : Rq} {key : Key} (hi : t.ph.issuing = true) (hr : t.pow.drbgStop = false)
    (hl : rq.body.length = 20) (hz : zeroAt rq.body 2 2 = true) (hk : t.keyFor rq.owner (fld rq.body 0 2) = some key)
    (hc : firstFail (t.keyChecks rq (fld rq.body 0 2) (fun _ => true)) = none) :
    doAttestKey rq t = t.statement rq (t.provenance (fld rq.body 0 2) key (rq.body.drop 4)) := by
  have hform : firstFail (needLength rq 20 ++ t.needStamp ++ t.needRandom ++ needZero rq 2 2 ++
      t.keyChecks rq (fld rq.body 0 2) (fun _ => true)) = none := by
    simp [needStamp_issuing hi, hr, hl, hz, hc]
  simp only [doAttestKey, guard_none hform, hk]

/-- Settles O43: each command is a statement over its body, which a signature that verifies completes and one that does not
ends with ST_FAULT. -/
theorem statementsCarryTheDualSignature : Obligations.StatementsCarryTheDualSignature := by
  intro s t v x rt arr p b signed own after hi hr hd hm
  refine ⟨fun hv => ⟨fun h hp hsel hz hk => ?_, fun h hp hlife hz hchain hdesc => ?_, fun key h hp hz hkey hc => ?_⟩,
    fun kat hv hx h hp hsel hz hk => ⟨_, ?_, rfl⟩⟩
  · exact completes rfl h rfl ((doStampReport_statement hi hr (by simp [hp]) hsel hz hk).trans (statement_verifies _ hd hm hv))
  · exact completes rfl h rfl ((doAttestDevice_statement hi hr hlife (by simp [hp]) hz hchain hdesc).trans
      (statement_verifies _ hd hm hv))
  · exact completes rfl h rfl ((doAttestKey_statement (rq := t.request? rt p arr .attestKey x) hi hr (by simp [hp]) hz hkey
      hc).trans (statement_verifies _ hd hm hv))
  · have hexec : exec (.stampReport v x) s = .next (s.request v x (fun o _ => o == .stampReport) doStampReport) := rfl
    rw [hexec, request_arrives h hx _ _ rfl, doStampReport_statement hi hr (by simp [hp]) hsel hz hk,
      statement_faults _ hd hm hv, settle_of_refuse, State.closePart_other (by simp) (by simp)]
    rfl

end Sys2Proof.Machine
end

section
/-! PROOFS. Lirov packets (chapter 03): the delivered module, the refusal of a stale epoch, the reply cache, and the frame of a
reply. -/

namespace Sys2Proof.Machine

/-! ### The delivered module -/

@[simp] theorem State.reset_ctx (i : Nat) : State.reset.ctx i = .init := rfl
@[simp] theorem State.reset_slc (n : Nat) : State.reset.slc n = .init := rfl
@[simp] theorem State.reset_slot (k : Nat) : State.reset.slot k = .init := rfl
@[simp] theorem State.reset_lane (i : Nat) : State.reset.lane i = .init := rfl

/-- Guard words read zero, and no other word has been written. -/
@[simp] theorem State.reset_wmRead (a : Nat) : State.reset.wmRead a = 0#40 := ite_self _

/-- Settles O2: contexts, slices, key slots and lanes are unlisted in their tables, so each reads as its initial value. -/
theorem resetHoldsTheDeliveredModule : Obligations.ResetHoldsTheDeliveredModule := by
  refine ⟨fun n _ => ?context, rfl, rfl, rfl, rfl, fun n => ?slice, State.reset_wmRead, fun k => ?slot, fun i => ?lane, rfl, rfl,
    rfl, rfl⟩
  case context => rw [State.reset_ctx]; exact ⟨rfl, rfl, rfl⟩
  case slice => rw [State.reset_slc]; rfl
  case slot => rw [State.reset_slot]; rfl
  case lane => rw [State.reset_lane]; rfl

/-! ### Fields of a reply (Table 03-2) -/

@[simp] theorem be_length (len n : Nat) : (be len n).length = len := by
  induction len with
  | zero => rfl
  | succ len ih => rw [be, List.length_cons, ih]

/-- Reading on over a field of `len` bytes appends its number to what was read before. -/
theorem foldl_be (len n a : Nat) :
    (be len n).foldl (fun a b => a * 256 + b.toNat) a = a * 256 ^ len + n % 256 ^ len := by
  induction len generalizing a with
  | zero => simp [be, Nat.mod_one]
  | succ len ih =>
    have hsplit : n % 256 ^ (len + 1) = n % 256 ^ len + 256 ^ len * (n / 256 ^ len % 256) := by
      rw [pow_succ, Nat.mod_mul]
    have hbyte : (byte (n / 256 ^ len)).toNat = n / 256 ^ len % 256 := by simp [byte]
    rw [be, List.foldl_cons, ih, hbyte, hsplit]
    ring

theorem fromBe_be (len n : Nat) : fromBe (be len n) = n % 256 ^ len := by simp [fromBe, foldl_be]

/-- A field between what stands before it and what follows it. -/
theorem fld_between {l a c : List Byte} {i len n : Nat} (hl : l = a ++ (be len n ++ c)) (hi : a.length = i) :
    fld l i len = n % 256 ^ len := by
  subst hl hi
  rw [fld, slice, List.drop_left, List.take_left' (be_length len n), fromBe_be]

/-- The EPOCH field of a reply. -/
theorem fld_replyBytes_epoch (hdr : List Byte) (epoch source fl : Nat) (st : Status) (detail : Nat) (stamp payload : List Byte) :
    fld (replyBytes hdr epoch source fl st detail stamp payload) 9 3 = epoch % 2 ^ 24 := by
  refine fld_between (a := [1#8, 2#8] ++ be 2 (fld hdr 2 2) ++ be 5 (fld hdr 4 5)) (c := [byte source, byte fl] ++
    be 2 payload.length ++ be 2 st.code ++ be 2 detail ++ stamp ++ payload) ?_ (by simp)
  simp only [replyBytes, List.append_assoc]

theorem Status.code_lt (st : Status) : st.code < 256 ^ 2 := by cases st <;> decide

/-- The STATUS field of a reply. -/
theorem fld_replyBytes_status (hdr : List Byte) (epoch source fl : Nat) (st : Status) (detail : Nat) (stamp payload : List Byte) :
    fld (replyBytes hdr epoch source fl st detail stamp payload) 16 2 = st.code := by
  rw [← Nat.mod_eq_of_lt st.code_lt]
  refine fld_between (a := [1#8, 2#8] ++ be 2 (fld hdr 2 2) ++ be 5 (fld hdr 4 5) ++ be 3 epoch ++ [byte source, byte fl] ++
    be 2 payload.length) (c := be 2 detail ++ stamp ++ payload) ?_ (by simp)
  simp only [replyBytes, List.append_assoc]

/-! ### Entry checks and the reply cache (Tables 03-6 and 03-3) -/

/-- A packet that a row finds, and that no row of another command claims, goes through the entry checks. -/
theorem request_takeIn {s s' : State} {v : Via} {rt : Route} {arr : Nat × Nat} {p : List Byte} (x : Ext)
    {mine : Op → List Byte → Bool} (run : Rq → State → Act) (hf : s.find v = .packet rt p arr s')
    (hm : ∀ o, Op.ofCode (hdrOpcode p) = some o → mine o (p.drop 16) = true) :
    s.request v x mine run = s'.takeIn rt p arr x run := by
  have hv := find_noVital hf
  cases ho : Op.ofCode (hdrOpcode p) with
  | none =>
    cases v with
    | vital q f => exact absurd rfl (hv q f)
    | _ => simp only [State.request, hf, ho]
  | some o =>
    have hmine := hm o ho
    cases v with
    | vital q f => exact absurd rfl (hv q f)
    | _ => simp only [State.request, hf, ho, hmine, if_true]

/-- A packet that fails steps 1 to 4 is answered with the first failure. -/
theorem takeIn_refused {s : State} {rt : Route} {p : List Byte} {st : Status} {d : Nat} (arr : Nat × Nat) (x : Ext)
    (run : Rq → State → Act) (h : firstFail (s.headChecks (rt.ctx?.getD 66) p) = some (st, d)) :
    ∃ credit, s.takeIn rt p arr x run = s.answer rt (rt.ctx?.getD 66) p st d credit := by
  cases rt with
  | ring o a b c e => exact ⟨true, by simp only [State.takeIn, h]⟩
  | push n w => exact ⟨false, by simp only [State.takeIn, h]⟩
  | console => exact ⟨false, by simp only [State.takeIn, h]⟩
  | vital q al => exact ⟨false, by simp only [State.takeIn, h]⟩

/-- A ring packet that passes steps 1 to 4 holds a credit already, and the reply cache decides. -/
theorem takeIn_ring {s : State} {o : Owner} {a b c d : Nat} {p : List Byte} (arr : Nat × Nat) (x : Ext)
    (run : Rq → State → Act) (h : firstFail (s.headChecks (ownerIdx o) p) = none) :
    s.takeIn (.ring o a b c d) p arr x run = s.fromCache (.ring o a b c d) (ownerIdx o) p arr x run := by
  simp only [State.takeIn, Route.ctx?, Option.getD_some, h]

/-- Checks that follow checks that all pass. -/
theorem firstFail_append_of_none {a b : List (Bool × Status × Nat)} (h : firstFail a = none) :
    firstFail (a ++ b) = firstFail b := by
  induction a with
  | nil => rfl
  | cons c a ih =>
    obtain ⟨f, st, d⟩ := c
    obtain ⟨rfl, ha⟩ := firstFail_cons_none.mp h
    simpa [firstFail] using ih ha

theorem headChecks_stale {s : State} {i : Nat} {p : List Byte} (hform : firstFail (formChecks p) = none)
    (hs : hdrSource p = ctxSource i) (he : hdrEpoch p ≠ (s.ctx i).epoch) :
    firstFail (s.headChecks i p) = some (.staleEpoch, 0) := by
  rw [State.headChecks, firstFail_append_of_none hform]
  simp [firstFail, hs, bne_iff_ne.mpr he]

/-- Settles O58: the epoch is the first check that fails, so the packet is answered and goes no further. -/
theorem aStaleEpochIsRefused : Obligations.AStaleEpochIsRefused := by
  intro s s' v x rt arr p mine run i hf hm hver hkind hlen hsize hflags hsrc hepoch reply
  have hform : firstFail (formChecks p) = none := by simp [formChecks, hver, hkind, ← hlen, hsize, hflags]
  obtain ⟨credit, hans⟩ := takeIn_refused arr x run (headChecks_stale hform hsrc hepoch)
  exact ⟨credit, (request_takeIn x run hf hm).trans hans, fld_replyBytes_epoch .., fld_replyBytes_status ..⟩

/-- Settles O59: the request passes steps 1 to 4, and its digest decides between the cached reply and the conflict. -/
theorem aDuplicateRequestDoesNotRunAgain : Obligations.ADuplicateRequestDoesNotRunAgain := by
  intro s s' o a b c d x arr p mine run k e rt hf hg hm hfind
  have hcode : ∀ k', Op.ofCode (hdrOpcode p) = some k' → mine k' (p.drop 16) = true := by
    rw [hg.opcode, ofCode_code]
    rintro _ ⟨⟩
    exact hm
  have hcache : s.request (.ring o) x mine run = s'.fromCache rt (ownerIdx o) p arr x run :=
    (request_takeIn x run hf hcode).trans (takeIn_ring arr x run (headChecks_good hg))
  refine ⟨fun hd => ?same, fun hd => ?other⟩
  case same =>
    have hverdict : s'.cacheCheck (ownerIdx o) p (digestOf p) = .replay e.reply := by simp [State.cacheCheck, hfind, hd]
    rw [hcache, State.fromCache, hverdict]
  case other =>
    have hverdict : s'.cacheCheck (ownerIdx o) p (digestOf p) = .conflict 0x0001 := by simp [State.cacheCheck, hfind, hd]
    rw [hcache, State.fromCache, hverdict]

/-! ### Replies and internal faults (R122, R193) -/

/-- Completing a request writes no word of working memory. -/
@[simp] theorem State.complete_wmRead (s : State) (rq : Rq) (ev : Bool) (st : Status) (d : Nat) (b : List Byte) (a : Nat) :
    (s.complete rq ev st d b).wmRead a = s.wmRead a :=
  State.wmRead_congr (by simp) (by simp) a

section
variable {s t : State} {v : Via} {x : Ext} {o : Op} {rt : Route} {arr : Nat × Nat} {p : List Byte}

/-- An internal fault takes the place of the command's own part (R122). -/
theorem request_fault (h : Arrives s v o rt p arr t) (hx : x.fwError = none) (hf : x.fault = true)
    (mine : Op → List Byte → Bool) (run : Rq → State → Act) (hm : mine o (p.drop 16) = true) :
    s.request v x mine run =
      (t.closePart (t.request? rt p arr o x) .fault).complete (t.request? rt p arr o x) false .fault 0 [] := by
  rw [request_sound h x mine run hm, sound_fault (rq := t.request? rt p arr o x) hx hf, settle_of_refuse, bne_self_eq_false]

/-- A double-bit error in the firmware area flags its word, is recorded, and takes the place of the command's own part (R193). -/
theorem request_fwError {a : Nat} (h : Arrives s v o rt p arr t) (hx : x.fwError = some a)
    (mine : Op → List Byte → Bool) (run : Rq → State → Act) (hm : mine o (p.drop 16) = true) :
    let m := (t.meet [a] [⟨a, 1⟩]).wmEcc rt.origin .command a
    s.request v x mine run =
      (m.closePart (t.request? rt p arr o x) .fault).complete (t.request? rt p arr o x) (m.evr.next != t.evr.next) .fault
        0x0042 [] := by
  rw [request_sound h x mine run hm, sound_firmware (rq := t.request? rt p arr o x) hx, settle_of_refuse, request?_route]

end

/-- Settles O60: the frame by what `State.complete` keeps, the faults by `request_fault` and `request_fwError`, which hold for
whatever a command would have done. -/
theorem repliesAndInternalFaults : Obligations.RepliesAndInternalFaults := by
  refine ⟨fun s rq ev st d b => by simp only [State.complete_frame, State.complete_wmRead, implies_true, and_self], ?_⟩
  intro s t v x o rt arr p rq h
  refine ⟨fun hx hf => ?fault, fun a hx => ?firmware⟩
  case fault =>
    have hall := request_fault h hx hf
    refine ⟨hall, ?_, ?_, ?_⟩
    · rintro rfl
      exact congrArg _ (hall (fun o _ => o == .keyGen) doKeyGen rfl)
    · rintro rfl
      exact congrArg _ (hall (fun o _ => o == .pkSign) doPkSign rfl)
    · rintro rfl
      exact congrArg (fun u : State => Host.Outcome.next u.schedule) (hall (fun o _ => o == .sealOnce) doSealOnce rfl)
  case firmware =>
    have hall := request_fwError h hx
    refine ⟨hall, ?_⟩
    rintro rfl
    exact congrArg _ (hall (fun o _ => o == .bnMul) doBn rfl)

end Sys2Proof.Machine
end

section
/-! PROOFS. Doorbells, ring configuration and the registers of BAR0 and BAR2 (chapter 04): what a host access changes. -/

namespace Sys2Proof.Machine

/-! ### Doorbells and ring configuration (R133, R135, R140) -/

/-- A host access that reaches a register changes the context of its owner. -/
theorem State.hostCtx_of_on {s : State} {o : Owner} (hs : s.hostOn = true) (ho : ownerOk o = true) (f : Ctx → Ctx) :
    s.hostCtx o f = s.setCtx (ownerIdx o) (f (s.ctx (ownerIdx o))) := by simp [State.hostCtx, hs, ho]

theorem Ctx.bellSq_accepted {c : Ctx} {v : Nat} (he : c.sq.enable = true)
    (hv : diff16 (v % 65536) c.sq.tail ≤ c.sq.size - diff16 c.sq.tail c.sq.head) :
    c.bellSq v = { c with sq := { c.sq with tail := v % 65536 } } := by simp [Ctx.bellSq, Ring.tailOk, he, hv]

theorem Ctx.bellSq_refused {c : Ctx} {v : Nat}
    (h : c.sq.enable = false ∨ c.sq.size - diff16 c.sq.tail c.sq.head < diff16 (v % 65536) c.sq.tail) :
    c.bellSq v = { c with dbErr := true } := by
  rcases h with h | h <;> simp [Ctx.bellSq, Ring.tailOk, h]

theorem Ctx.bellCq_accepted {c : Ctx} {v : Nat} (he : c.cq.enable = true)
    (hv : diff16 (v % 65536) c.cq.head ≤ diff16 c.cq.tail c.cq.head) :
    c.bellCq v = { c with cq := { c.cq with head := v % 65536 } } := by simp [Ctx.bellCq, Ring.headOk, he, hv]

theorem Ctx.bellCq_refused {c : Ctx} {v : Nat}
    (h : c.cq.enable = false ∨ diff16 c.cq.tail c.cq.head < diff16 (v % 65536) c.cq.head) :
    c.bellCq v = { c with dbErr := true } := by
  rcases h with h | h <;> simp [Ctx.bellCq, Ring.headOk, h]

theorem Ring.configure_enabled {r : Ring} (h : r.enable = true) (pasid : Bool) (v : BitVec 64) :
    r.configure pasid v = { r with enable := v.getLsbD 4 } := by simp [Ring.configure, h]

theorem Ring.configure_enables {r : Ring} {v : BitVec 64} (h : r.enable = false) (hv : v.getLsbD 4 = true)
    (hl : 4 ≤ regFld v 0 4) (hu : regFld v 0 4 ≤ 10) :
    r.configure true v = { r with sizeLog2 := regFld v 0 4, enable := true, head := 0, tail := 0 } := by
  simp [Ring.configure, h, hv, hl, hu]

section
variable {s : State} {o : Owner} (hs : s.hostOn = true) (ho : ownerOk o = true)
include hs ho

theorem exec_sqTail_on (v : Nat) :
    exec (.sqTail o v) s = .next (s.setCtx (ownerIdx o) ((s.ctx (ownerIdx o)).bellSq v)) :=
  congrArg Host.Outcome.next (State.hostCtx_of_on hs ho _)

theorem exec_cqHead_on (v : Nat) :
    exec (.cqHead o v) s = .next (s.setCtx (ownerIdx o) ((s.ctx (ownerIdx o)).bellCq v)) :=
  congrArg Host.Outcome.next (State.hostCtx_of_on hs ho _)

theorem exec_sqCfg_submission_on (v : BitVec 64) :
    exec (.sqCfg o false v) s = .next (s.setCtx (ownerIdx o) { s.ctx (ownerIdx o) with
      sq := (s.ctx (ownerIdx o)).sq.configure (s.ringPasid (ownerIdx o)) v }) := by
  show Host.Outcome.next (s.ringCfg o false v) = _
  rw [State.ringCfg, State.hostCtx_of_on hs ho]
  rfl

theorem exec_sqCfg_reply_on (v : BitVec 64) :
    exec (.sqCfg o true v) s = .next (s.setCtx (ownerIdx o) { s.ctx (ownerIdx o) with
      cq := (s.ctx (ownerIdx o)).cq.configure (s.ringPasid (ownerIdx o)) v }) := by
  show Host.Outcome.next (s.ringCfg o true v) = _
  rw [State.ringCfg, State.hostCtx_of_on hs ho]
  rfl

end

/-- Settles O47: each access changes the owner's context by `Ctx.bellSq`, `Ctx.bellCq` or `Ring.configure`. -/
theorem doorbellsMoveTheIndices : Obligations.DoorbellsMoveTheIndices := by
  intro s o n hs ho
  refine ⟨fun he hv => ?_, fun h => ?_, fun he hv => ?_, fun h => ?_, fun v he hv hp hl hu => ?_, fun v he => ?_⟩
  · rw [exec_sqTail_on hs ho, Ctx.bellSq_accepted he hv]
  · rw [exec_sqTail_on hs ho, Ctx.bellSq_refused h]
  · rw [exec_cqHead_on hs ho, Ctx.bellCq_accepted he hv]
  · rw [exec_cqHead_on hs ho, Ctx.bellCq_refused h]
  · rw [exec_sqCfg_submission_on hs ho, hp, Ring.configure_enables he hv hl hu]
  · rw [exec_sqCfg_reply_on hs ho, Ring.configure_enabled he]

/-! ### Registers (R128, R149, R552) -/

theorem exec_mgrEvent_on {s : State} (hs : s.hostOn = true) (v : BitVec 64) :
    exec (.mgrEvent v) s = .next (s.writeEvent v) := congrArg Host.Outcome.next (if_pos hs)

/-- An aligned write of 8 bytes to BAR0. -/
theorem exec_registerWrite_bar0 {s : State} (hs : s.hostOn = true) {off : Nat} (ha : off % 8 = 0) (v : BitVec 64) :
    exec (.registerWrite 0 off 8 v) s = .next (s.write0 off v) := by
  show execRegisterWrite 0 off 8 v s = _
  simp [execRegisterWrite, hs, ha]

/-- A misaccess of an assigned register of BAR0. -/
theorem exec_registerWrite_misaccess {s : State} (hs : s.hostOn = true) {off size : Nat} (ha : size ≠ 8 ∨ off % 8 ≠ 0)
    (hr : (s.bar0 (off / 8 * 8)).isSome = true) (v : BitVec 64) :
    exec (.registerWrite 0 off size v) s = .next (s.misaccess 64) := by
  have hna : ¬(size = 8 ∧ off % 8 = 0) := by tauto
  show execRegisterWrite 0 off size v s = _
  simp [execRegisterWrite, hs, hna, hr]

theorem exec_registerWrite_bar2 {s : State} (hs : s.hostOn = true) {off : Nat} (ho : off < 0x40000) (size : Nat)
    (v : BitVec 64) : exec (.registerWrite 2 off size v) s = .next (s.write2 off size v) := by
  show execRegisterWrite 2 off size v s = _
  simp [execRegisterWrite, hs, ho]

/-- A write to a push window that is no 64-byte packet. -/
theorem State.write2_window (s : State) {n off : Nat} (ho : off < 0x100) (size : Nat) (v : BitVec 64) :
    s.write2 (n * 0x1000 + off) size v = s.setCtx n { s.ctx n with pwErr := true } := by
  have hn : (n * 0x1000 + off) / 0x1000 = n := by omega
  have hm : (n * 0x1000 + off) % 0x1000 = off := by omega
  simp only [State.write2, hn, hm, if_pos ho]

/-- An aligned write of 8 bytes to a register of a slice page. -/
theorem State.write2_page (s : State) {n off : Nat} (hl : 0x100 ≤ off) (hu : off < 0x1000) (ha : off % 8 = 0) (v : BitVec 64) :
    s.write2 (n * 0x1000 + off) 8 v = s.writePage n off v := by
  have hn : (n * 0x1000 + off) / 0x1000 = n := by omega
  have hm : (n * 0x1000 + off) % 0x1000 = off := by omega
  have h8 : (n * 0x1000 + off) % 8 = 0 := by omega
  simp [State.write2, hn, hm, h8, Nat.not_lt.mpr hl]

theorem packReg_one_toNat (p w v : Nat) (h : p + w ≤ 64) : (packReg [(p, w, v)]).toNat = v % 2 ^ w * 2 ^ p := by
  have hlt : v % 2 ^ w * 2 ^ p < 2 ^ 64 :=
    calc v % 2 ^ w * 2 ^ p
      _ < 2 ^ w * 2 ^ p := Nat.mul_lt_mul_of_pos_right (Nat.mod_lt _ (Nat.two_pow_pos w)) (Nat.two_pow_pos p)
      _ = 2 ^ (p + w) := by rw [← pow_add, Nat.add_comm]
      _ ≤ 2 ^ 64 := Nat.pow_le_pow_right (by decide) h
  simpa [packReg] using hlt

/-- A field that fills a register of its own reads back. -/
theorem regFld_packReg_one (v : BitVec 64) (p w : Nat) (h : p + w ≤ 64) :
    regFld (packReg [(p, w, regFld v p w)]) p w = regFld v p w := by
  rw [regFld, packReg_one_toNat _ _ _ h, Nat.mul_div_cancel _ (Nat.two_pow_pos p), Nat.mod_mod, regFld, Nat.mod_mod]

/-- A field and the bit above it are the field that is one bit wider. -/
theorem regFld_add_bit (v : BitVec 64) (p w : Nat) :
    regFld v p w + b01 (v.getLsbD (p + w)) * 2 ^ w = regFld v p (w + 1) := by
  have hb : b01 (v.getLsbD (p + w)) = v.toNat / 2 ^ p / 2 ^ w % 2 := by
    rw [BitVec.getLsbD, Nat.testBit_eq_decide_div_mod_eq, Nat.div_div_eq_div_mul, ← pow_add]
    rcases Nat.mod_two_eq_zero_or_one (v.toNat / 2 ^ (p + w)) with h | h <;> simp [b01, h]
  rw [hb, regFld, regFld, pow_succ, Nat.mod_mul, Nat.mul_comm]

/-- A field at the bottom with a bit above it, packed from a register value, is that register's wider field. -/
theorem packReg_field_bit (v : BitVec 64) (w : Nat) :
    packReg [(0, w, regFld v 0 w), (w, 1, b01 (v.getLsbD w))] = BitVec.ofNat 64 (regFld v 0 (w + 1)) := by
  have hw := regFld_add_bit v 0 w
  have hb : b01 (v.getLsbD w) % 2 = b01 (v.getLsbD w) := by cases v.getLsbD w <;> rfl
  have hf : regFld v 0 w % 2 ^ w = regFld v 0 w := Nat.mod_mod _ _
  rw [Nat.zero_add] at hw
  simp only [packReg, List.foldl_cons, List.foldl_nil, pow_zero, pow_one, Nat.zero_add, Nat.mul_one, hb, hf, hw]

theorem regFld_ofNat_regFld (v : BitVec 64) (w : Nat) (h : w ≤ 64) :
    regFld (BitVec.ofNat 64 (regFld v 0 w)) 0 w = regFld v 0 w := by
  simp only [regFld, pow_zero, Nat.div_one, BitVec.toNat_ofNat, Nat.mod_mod_of_dvd _ (Nat.pow_dvd_pow 2 h), Nat.mod_mod]

/-- What MGR_PASID reads as (Table 04-3). -/
theorem State.readReg_mgrPasid (s : State) :
    s.readReg 0 0x30 8 = packReg [(0, 20, s.hp.pasid), (20, 1, b01 s.hp.valid)] := rfl

/-- What EVR_NOTICE reads as (Table 16-3). -/
theorem State.readReg_evrNotice (s : State) : s.readReg 0 0x5010 8 = packReg [(1, 13, s.evr.notice)] := rfl

/-- What MGR_PASID takes (R149). -/
theorem exec_registerWrite_mgrPasid {s : State} (hs : s.hostOn = true) (v : BitVec 64) : exec (.registerWrite 0 0x30 8 v) s =
    .next (s.mapHp (fun h => { h with pasid := regFld v 0 20, valid := v.getLsbD 20 })) := exec_registerWrite_bar0 hs rfl v

/-- What EVR_NOTICE takes (R552). -/
theorem exec_registerWrite_evrNotice {s : State} (hs : s.hostOn = true) (v : BitVec 64) :
    exec (.registerWrite 0 0x5010 8 v) s = .next (s.mapEvr (fun e => { e with notice := regFld v 1 13 })) :=
  exec_registerWrite_bar0 hs rfl v

/-- Settles O50: an aligned write is that of `State.write0` or `State.writePage` at its offset; MGR_PASID and EVR_NOTICE read
as the fields that their writes took. -/
theorem registerWritesTakeTheirFields : Obligations.RegisterWritesTakeTheirFields := by
  refine ⟨fun s v hs => ⟨?tail, ?event, exec_registerWrite_mgrPasid hs v, exec_registerWrite_evrNotice hs v, ?irqEn, ?misaccess,
    fun n hn => ⟨?pageIrqEn, ?window⟩⟩, fun s u v hs => ⟨fun h => ?readPasid, fun h => ?readNotice⟩⟩
  case tail =>
    rw [exec_registerWrite_bar0 hs rfl]
    rfl
  case event =>
    rw [exec_registerWrite_bar0 hs rfl, exec_mgrEvent_on hs]
    rfl
  case irqEn => exact exec_registerWrite_bar0 hs rfl v
  case misaccess => exact exec_registerWrite_misaccess hs (.inl (by decide)) rfl v
  case pageIrqEn =>
    rw [exec_registerWrite_bar2 hs (by omega), State.write2_page s (by decide) (by decide) rfl]
    rfl
  case window => rw [exec_registerWrite_bar2 hs (by omega), State.write2_window s (by decide)]
  case readPasid =>
    cases (exec_registerWrite_mgrPasid hs v).symm.trans h
    rw [State.readReg_mgrPasid]
    exact (congrArg (regFld · 0 21) (packReg_field_bit v 20)).trans (regFld_ofNat_regFld v 21 (by decide))
  case readNotice =>
    cases (exec_registerWrite_evrNotice hs v).symm.trans h
    rw [State.readReg_evrNotice]
    exact regFld_packReg_one v 1 13 (by decide)

end Sys2Proof.Machine
end

section
/-! PROOFS. The rings of chapter 04: the fetch of an entry and of its packet, the write of a reply entry, and reads that fail.
-/

namespace Sys2Proof.Machine

/-! ### The host port but for what interrupts change -/

/-- The host port without its interrupt causes and its pending messages, which is all of it that an event may change (R148). -/
def HostPort.wired (h : HostPort) : HostPort := { h with causes := 0, further := 0, msixPend := [] }

/-- Any other part of the host port is the same in two host ports that agree in this. -/
theorem HostPort.of_wired {α : Type} (f : HostPort → α) (hf : ∀ h : HostPort, f h.wired = f h) {h k : HostPort}
    (e : h.wired = k.wired) : f h = f k := by rw [← hf h, e, hf]

@[simp] theorem State.msix_wired (s : State) (v : Nat) : (s.msix v).hp.wired = s.hp.wired := by
  unfold State.msix
  split
  · split <;> rfl
  · rfl

@[simp] theorem State.fire_wired (s : State) (i : Nat) : (s.fire i).hp.wired = s.hp.wired := by
  unfold State.fire
  split
  · rfl
  · exact State.msix_wired _ _

@[simp] theorem State.write_wired (s : State) (code origin : Nat) (detail : List Byte) :
    (s.write code origin detail).hp.wired = s.hp.wired := by
  unfold State.write
  dsimp only
  split
  · exact State.fire_wired _ _
  · rfl

@[simp] theorem State.event_wired (s : State) (code origin : Nat) (detail : List Byte) :
    (s.event code origin detail).hp.wired = s.hp.wired := by
  unfold State.event
  dsimp only
  (repeat' split) <;> simp [State.overflow]

@[simp] theorem State.dmaEvent_wired (s : State) (origin slice kind completion : Nat) :
    (s.dmaEvent origin slice kind completion).hp.wired = s.hp.wired := State.event_wired _ _ _ _

/-- What may issue DMA depends on the link and on MGR_PASID, which events leave alone. -/
theorem State.dmaStop_of_wired {s t : State} (h : s.hp.wired = t.hp.wired) (i : Nat) : s.dmaStop i = t.dmaStop i := by
  have hlink : s.hp.linkUp = t.hp.linkUp := HostPort.of_wired HostPort.linkUp (fun _ => rfl) h
  have hvalid : s.hp.valid = t.hp.valid := HostPort.of_wired HostPort.valid (fun _ => rfl) h
  simp only [State.dmaStop, hlink, hvalid]

@[simp] theorem State.dmaEvent_ctx (s : State) (origin slice kind completion j : Nat) :
    (s.dmaEvent origin slice kind completion).ctx j = s.ctx j := State.ctx_of_ctxs (by simp) j

/-! ### Entries and packets that are fetched (R134, R136, R154) -/

/-- A read whose bytes are all given draws on no free value. -/
theorem State.readBytes_exact (s : State) {bs : List Byte} {n : Nat} (h : bs.length = n) : s.readBytes bs n = bs := by
  subst h
  simp [State.readBytes]

/-- The state after the next entry of an owner was read, at HEAD under PASID index 0 (R134, R149). -/
def State.entryRead (s : State) (o : Owner) : State :=
  s.dmaRead (s.pasidOf (ownerIdx o) 0) ((s.ctx (ownerIdx o)).sq.entryAt (s.ctx (ownerIdx o)).sq.head) 32

/-- An entry that may be read is taken. -/
theorem State.ringFetch_takes {s : State} {o : Owner} {e : List Byte} (hf : s.fetches o = true)
    (hd : s.dmaStop (ownerIdx o) = none) (he : e.length = 32) (packet : Except Nat (List Byte)) :
    s.ringFetch o e packet = (s.entryRead o).takeEntry o e packet := by
  simp [State.ringFetch, State.entryRead, hf, hd, State.readBytes_exact s he]

@[simp] theorem State.dmaRead_ctx (s : State) (pasid addr len j : Nat) : (s.dmaRead pasid addr len).ctx j = s.ctx j := rfl

@[simp] theorem State.setCtx_indices (s : State) (i j : Nat) (c : Ctx) : (s.setCtx i c).indices j = s.indices j := rfl

theorem State.takeEntry_refused {s : State} {o : Owner} {e : List Byte} {st : Status} {d : Nat}
    (h : firstFail (entryChecks e (s.indices (ownerIdx o))) = some (st, d)) (packet : Except Nat (List Byte)) :
    s.takeEntry o e packet =
      (s.setCtx (ownerIdx o) (s.ctx (ownerIdx o)).takeEntry).unreadable o (s.ctx (ownerIdx o)).sq.head false st d := by
  simp only [State.takeEntry, State.setCtx_indices, h]

theorem State.takeEntry_taken {s : State} {o : Owner} {e : List Byte}
    (h : firstFail (entryChecks e (s.indices (ownerIdx o))) = none) (packet : Except Nat (List Byte)) :
    s.takeEntry o e packet =
      (s.setCtx (ownerIdx o) (s.ctx (ownerIdx o)).takeEntry).takePacket o (s.ctx (ownerIdx o)).sq.head e packet := by
  simp only [State.takeEntry, State.setCtx_indices, h]

/-- A packet that was read joins the packets fetched, with the time of its arrival. -/
theorem State.takePacket_ok (s : State) (o : Owner) (index : Nat) (e : List Byte) {p : List Byte}
    (hp : p.length = fldLe e 8 2) :
    let u := s.dmaRead (s.pasidOf (ownerIdx o) (at8 e 12)) (fldLe e 0 8) p.length
    s.takePacket o index e (.ok p) = u.setCtx (ownerIdx o) { u.ctx (ownerIdx o) with inbox := (u.ctx (ownerIdx o)).inbox ++
      [⟨index, fldLe e 16 8, fldLe e 10 2, at8 e 12, p, s.ph.c, s.ph.phi⟩] } := by
  simp only [State.takePacket, State.readBytes_exact s hp, hp]

/-- A request that cannot be read is answered and changes its context in no other way. -/
theorem State.unreadable_ctx (s : State) (o : Owner) (index : Nat) (ev : Bool) (st : Status) (d : Nat) :
    ∃ r : Done, (s.unreadable o index ev st d).ctx (ownerIdx o) =
      { s.ctx (ownerIdx o) with outbox := (s.ctx (ownerIdx o)).outbox ++ [r] } :=
  ⟨_, State.setCtx_ctx_same _ _ _⟩

/-- A packet that cannot be read is answered. -/
theorem State.takePacket_error (s : State) (o : Owner) (index : Nat) (e : List Byte) (c : Nat) :
    ∃ r : Done, (s.takePacket o index e (.error c)).ctx (ownerIdx o) =
      { s.ctx (ownerIdx o) with outbox := (s.ctx (ownerIdx o)).outbox ++ [r] } := by
  obtain ⟨r, hr⟩ := State.unreadable_ctx ((s.dmaRead (s.pasidOf (ownerIdx o) (at8 e 12)) (fldLe e 0 8) (fldLe e 8 2)).dmaEvent
    (ctxSource (ownerIdx o)) (dmaSlice (ownerIdx o)) 2 c) o index _ .access 0x0020
  exact ⟨r, hr.trans (by rw [State.dmaEvent_ctx, State.dmaRead_ctx])⟩

section
variable {s : State} {o : Owner} (hf : s.fetches o = true) (hd : s.dmaStop (ownerIdx o) = none)
include hf hd

theorem exec_ringEntryFetch_taken {e p : List Byte} (he : e.length = 32)
    (hc : firstFail (entryChecks e (s.indices (ownerIdx o))) = none) (hp : p.length = fldLe e 8 2) :
    let i := ownerIdx o
    let c := s.ctx i
    let r := s.dmaRead (s.pasidOf i 0) (c.sq.base + 32 * (c.sq.head % c.sq.size)) 32
    let u := (r.setCtx i c.takeEntry).dmaRead (s.pasidOf i (at8 e 12)) (fldLe e 0 8) p.length
    exec (.ringEntryFetch o e p) s = .next (u.setCtx i { c.takeEntry with
      inbox := c.inbox ++ [⟨c.sq.head, fldLe e 16 8, fldLe e 10 2, at8 e 12, p, s.ph.c, s.ph.phi⟩] }) := by
  intro i c r u
  show Host.Outcome.next (s.ringFetch o e (.ok p)) = _
  rw [State.ringFetch_takes hf hd he, State.takeEntry_taken (s := s.entryRead o) hc, State.takePacket_ok _ _ _ _ hp]
  simp only [State.dmaRead_ctx, State.setCtx_ctx_same]
  rfl

theorem exec_ringEntryFetch_refused {e p : List Byte} {st : Status} {d : Nat} (he : e.length = 32)
    (hc : firstFail (entryChecks e (s.indices (ownerIdx o))) = some (st, d)) :
    ∃ (u : State) (r : Done), exec (.ringEntryFetch o e p) s = .next u ∧ u.ctx (ownerIdx o) =
      { (s.ctx (ownerIdx o)).takeEntry with outbox := (s.ctx (ownerIdx o)).outbox ++ [r] } := by
  obtain ⟨r, hr⟩ := State.unreadable_ctx ((s.entryRead o).setCtx (ownerIdx o) (s.ctx (ownerIdx o)).takeEntry) o
    (s.ctx (ownerIdx o)).sq.head false st d
  refine ⟨_, r, ?_, hr.trans (by rw [State.setCtx_ctx_same]; rfl)⟩
  show Host.Outcome.next (s.ringFetch o e (.ok p)) = _
  rw [State.ringFetch_takes hf hd he, State.takeEntry_refused (s := s.entryRead o) hc]
  rfl

/-- A ring whose entry cannot be read halts (R167). -/
theorem exec_dmaReadFailure_ringFetch (e : DmaErr) :
    ∃ u : State, exec (.dmaReadFailure (.ringFetch o) e) s = .next u ∧
      u.ctx (ownerIdx o) = { s.ctx (ownerIdx o) with halt := true, dmaErr := true } := by
  refine ⟨s.haltRing o (dmaCode e), ?_, ?_⟩
  · show Host.Outcome.next (if s.fetches o then s.haltRing o ((s.dmaStop (ownerIdx o)).getD (dmaCode e)) else s) = _
    rw [if_pos hf, hd]
    rfl
  · rw [State.haltRing, State.dmaEvent_ctx, State.setCtx_ctx_same]

/-- A packet that cannot be read is answered (R167). -/
theorem exec_dmaReadFailure_packet {entry : List Byte} (he : entry.length = 32)
    (hc : firstFail (entryChecks entry (s.indices (ownerIdx o))) = none) (e : DmaErr) :
    ∃ (u : State) (r : Done), exec (.dmaReadFailure (.packet o entry) e) s = .next u ∧ u.ctx (ownerIdx o) =
      { (s.ctx (ownerIdx o)).takeEntry with outbox := (s.ctx (ownerIdx o)).outbox ++ [r] } := by
  obtain ⟨r, hr⟩ := State.takePacket_error ((s.entryRead o).setCtx (ownerIdx o) (s.ctx (ownerIdx o)).takeEntry) o
    (s.ctx (ownerIdx o)).sq.head entry (dmaCode e)
  refine ⟨_, r, ?_, hr.trans (by rw [State.setCtx_ctx_same]; rfl)⟩
  show Host.Outcome.next (s.ringFetch o entry (.error (dmaCode e))) = _
  rw [State.ringFetch_takes hf hd he, State.takeEntry_taken (s := s.entryRead o) hc]
  rfl

end

/-! ### Reply entries (R140, R141) -/

theorem State.mapFails_ctx (s : State) (n completion : Nat) {j : Nat} (hj : j ≠ 64) :
    (s.mapFails n completion).ctx j = s.ctx j := by
  rw [State.mapFails, State.dmaEvent_ctx, State.setCtx_ctx_ne _ _ hj, State.setDpm_ctx_frame]

theorem State.mapFails_dmaStop (s : State) (n completion i : Nat) : (s.mapFails n completion).dmaStop i = s.dmaStop i := by
  rw [State.mapFails, State.dmaStop_of_wired (State.dmaEvent_wired _ _ _ _ _)]
  rfl

/-- The flush of dirty-page marks changes no context but the manager's. -/
theorem State.flushWord_ctx (s : State) (n w : Nat) (got : Dma) {j : Nat} (hj : j ≠ 64) :
    (s.flushWord n w got).ctx j = s.ctx j := by
  unfold State.flushWord
  dsimp only
  split
  · exact State.mapFails_ctx _ _ _ hj
  · exact State.mapFails_ctx _ _ _ hj
  · rfl

theorem State.flushWord_dmaStop (s : State) (n w : Nat) (got : Dma) (i : Nat) :
    (s.flushWord n w got).dmaStop i = s.dmaStop i := by
  unfold State.flushWord
  dsimp only
  split
  · exact State.mapFails_dmaStop _ _ _ _
  · exact State.mapFails_dmaStop _ _ _ _
  · rfl

theorem State.flushMarks_ctx (s : State) (n : Nat) (reads : List Dma) {j : Nat} (hj : j ≠ 64) :
    (s.flushMarks n reads).ctx j = s.ctx j := by
  have hstep (t : State) (e : Nat × Nat) : (t.flushWord n e.1 (reads.getD e.2 (.data []))).ctx j = t.ctx j :=
    t.flushWord_ctx n e.1 _ hj
  exact foldl_keep (g := fun t : State => t.ctx j) hstep (s.dpm n).words.zipIdx s

theorem State.flushMarks_dmaStop (s : State) (n : Nat) (reads : List Dma) (i : Nat) :
    (s.flushMarks n reads).dmaStop i = s.dmaStop i := by
  have hstep (t : State) (e : Nat × Nat) : (t.flushWord n e.1 (reads.getD e.2 (.data []))).dmaStop i = t.dmaStop i :=
    t.flushWord_dmaStop n e.1 _ i
  exact foldl_keep (g := fun t : State => t.dmaStop i) hstep (s.dpm n).words.zipIdx s

/-- What stands before a reply entry is written: the whole reply at RPL_ADDR, and the marks of the entry's page (R139, R161). -/
def State.beforeEntry (s : State) (i : Nat) (d : Done) : State :=
  let w := (s.writeReply i d none).1
  if i < 64 then (w.setDpm i ((w.dpm i).write 0 ((w.ctx i).cq.replyAt (w.ctx i).cq.tail) 64)).flushMarks i [] else w

/-- A reply whose DMA goes through is written, and then its entry. -/
theorem exec_replyEntryWrite_next {s : State} {o : Owner} {d : Done} (h : s.nextReply o = some d)
    (hd : (s.beforeEntry (ownerIdx o) d).dmaStop (ownerIdx o) = none) :
    exec (.replyEntryWrite o ⟨none, [], none⟩) s =
      .next ((s.beforeEntry (ownerIdx o) d).writeEntry (ownerIdx o) d (s.writeReply (ownerIdx o) d none).2) := by
  have hfails : (s.beforeEntry (ownerIdx o) d).dmaFails (ownerIdx o) none = none := by simp [State.dmaFails, hd]
  show execReplyEntryWrite o _ s = _
  unfold execReplyEntryWrite
  simp only [h]
  rw [← State.beforeEntry, hfails]

@[simp] theorem State.writeReply_frame (s : State) (i : Nat) (d : Done) (e : Option DmaErr) :
    (s.writeReply i d e).1.ctxs = s.ctxs ∧ (s.writeReply i d e).1.ks = s.ks ∧ (s.writeReply i d e).1.tam = s.tam := by
  unfold State.writeReply
  split
  · split <;> simp
  · simp

theorem State.hostWrite_dmaStop (s : State) (owner idx pasid addr : Nat) (bytes : List Byte) (i : Nat) :
    (s.hostWrite owner idx pasid addr bytes).dmaStop i = s.dmaStop i := by
  unfold State.hostWrite
  dsimp only
  split <;> rfl

theorem State.writeReply_dmaStop (s : State) (i : Nat) (d : Done) (e : Option DmaErr) (j : Nat) :
    (s.writeReply i d e).1.dmaStop j = s.dmaStop j := by
  unfold State.writeReply
  split
  · split
    · exact State.dmaStop_of_wired (State.dmaEvent_wired _ _ _ _ _) j
    · exact State.hostWrite_dmaStop _ _ _ _ _ _ _
  · rfl

theorem State.beforeEntry_dmaStop (s : State) (i : Nat) (d : Done) (j : Nat) :
    (s.beforeEntry i d).dmaStop j = s.dmaStop j := by
  unfold State.beforeEntry
  dsimp only
  split
  · rw [State.flushMarks_dmaStop]
    exact State.writeReply_dmaStop s i d none j
  · exact State.writeReply_dmaStop s i d none j

/-- Only a slice's reply may fail to set a mark, which the manager's context notes (R169). -/
theorem State.beforeEntry_ctx (s : State) (i : Nat) (d : Done) {j : Nat} (hj : j ≠ 64 ∨ 64 ≤ i) :
    (s.beforeEntry i d).ctx j = s.ctx j := by
  have hreply : (s.writeReply i d none).1.ctx j = s.ctx j := State.ctx_of_ctxs (by simp) j
  unfold State.beforeEntry
  dsimp only
  split
  · rw [State.flushMarks_ctx _ _ _ (by omega), State.setDpm_ctx_frame, hreply]
  · exact hreply

@[simp] theorem State.beforeEntry_frame (s : State) (i : Nat) (d : Done) :
    (s.beforeEntry i d).ks = s.ks ∧ (s.beforeEntry i d).tam = s.tam := by
  unfold State.beforeEntry
  dsimp only
  split <;> simp

theorem State.writeEntry_ctx (s : State) (i : Nat) (d : Done) (full : Bool) (j : Nat) :
    (s.writeEntry i d full).ctx j = if j = i then
      { s.ctx i with outbox := (s.ctx i).outbox.drop 1, cq := { (s.ctx i).cq with tail := ((s.ctx i).cq.tail + 1) % 65536 },
                     credits := if d.credit then min 32 ((s.ctx i).credits + 1) else (s.ctx i).credits }
      else s.ctx j := by
  refine Eq.trans ?_ (State.setCtx_ctx s i j _)
  unfold State.writeEntry
  dsimp only
  split
  · exact State.ctx_of_ctxs (by simp; rfl) j
  · rfl

/-- Settles O48: entries by what `State.takeEntry` does with them, replies by `State.writeEntry` after `State.beforeEntry`. -/
theorem ringsAreServed : Obligations.RingsAreServed := by
  refine ⟨fun s o e p hf hd he => ⟨fun hc hp => exec_ringEntryFetch_taken hf hd he hc hp, fun st d hc => ?refused⟩,
    fun s o d r hn hd hr => ?reply, fun s o e hf hd => ⟨?halt, fun entry he hc => ?packet⟩⟩
  case refused =>
    obtain ⟨u, r, hu, hctx⟩ := exec_ringEntryFetch_refused (p := p) hf hd he hc
    exact ⟨u, hu, by rw [hctx]; rfl, by rw [hctx]; rfl, by rw [hctx]; simp⟩
  case reply =>
    have hi : ownerIdx o ≠ 64 ∨ 64 ≤ ownerIdx o := by omega
    refine ⟨_, exec_replyEntryWrite_next hn ((s.beforeEntry_dmaStop _ d _).trans hd), ?_, ?_, ?_, fun j hj hm => ?_,
      by simp, by simp⟩
    · rw [State.writeEntry_ctx, if_pos rfl, s.beforeEntry_ctx _ d hi, hr]
      rfl
    · rw [State.writeEntry_ctx, if_pos rfl, s.beforeEntry_ctx _ d hi]
    · rw [State.writeEntry_ctx, if_pos rfl, s.beforeEntry_ctx _ d hi]
    · rw [State.writeEntry_ctx, if_neg hj, s.beforeEntry_ctx _ d (.inl hm)]
  case halt =>
    obtain ⟨u, hu, hctx⟩ := exec_dmaReadFailure_ringFetch hf hd e
    exact ⟨u, hu, by rw [hctx], by rw [hctx], by rw [hctx], by rw [hctx]⟩
  case packet =>
    obtain ⟨u, r, hu, hctx⟩ := exec_dmaReadFailure_packet hf hd he hc e
    exact ⟨u, hu, by rw [hctx]; rfl, by rw [hctx]; simp⟩

end Sys2Proof.Machine
end

section
/-! PROOFS. The host port beside its rings (chapter 04): interrupt causes and masks, DMA requests, dirty-page maps, pending
writes, the power state and the link. -/

namespace Sys2Proof.Machine

/-! ### Bits of a number -/

theorem bit_eq_testBit (n i : Nat) : bit n i = n.testBit i := by
  rw [bit, Nat.testBit_eq_decide_div_mod_eq]
  rfl

/-- A number with bit `i` written, as the bits above, at and below it. -/
theorem setBit_eq (n i : Nat) (v : Bool) : setBit n i v = 2 ^ i * (2 * (n / 2 ^ i / 2) + b01 v) + n % 2 ^ i := by
  have hn := Nat.div_add_mod n (2 ^ i)
  have hq := Nat.div_add_mod (n / 2 ^ i) 2
  have hsplit : 2 ^ i * (n / 2 ^ i) = 2 ^ i * (2 * (n / 2 ^ i / 2)) + 2 ^ i * (n / 2 ^ i % 2) := by rw [← mul_add, hq]
  have hbase : (if bit n i then n - 2 ^ i else n) = 2 ^ i * (2 * (n / 2 ^ i / 2)) + n % 2 ^ i := by
    rcases Nat.mod_two_eq_zero_or_one (n / 2 ^ i) with h | h
    · rw [if_neg (by simp [bit, h])]
      rw [h] at hsplit
      omega
    · rw [if_pos (by simp [bit, h])]
      rw [h] at hsplit
      omega
  rw [setBit, hbase, mul_add, Nat.mul_comm (b01 v)]
  omega

theorem testBit_setBit (n i j : Nat) (v : Bool) : (setBit n i v).testBit j = if j = i then v else n.testBit j := by
  rw [setBit_eq, Nat.testBit_two_pow_mul_add _ (Nat.mod_lt _ (Nat.two_pow_pos i))]
  rcases lt_trichotomy j i with h | rfl | h
  · simp [h, h.ne, Nat.testBit_mod_two_pow]
  · cases v <;> simp [b01, Nat.testBit_zero]
  · obtain ⟨k, rfl⟩ := Nat.exists_eq_add_of_lt h
    have hk : i + k + 1 - i = k + 1 := by omega
    have hdiv : (2 * (n / 2 ^ i / 2) + b01 v) / 2 = n / 2 ^ (i + 1) := by
      rw [pow_succ, ← Nat.div_div_eq_div_mul]
      have hv : b01 v < 2 := by cases v <;> decide
      omega
    rw [if_neg (by omega), if_neg (by omega), hk, Nat.testBit_succ, hdiv, Nat.testBit_div_two_pow]
    congr 1
    omega

/-! ### MGR_EVENT and MSI-X (R148, R166) -/

/-- What a write of MGR_EVENT does at one bit. -/
def State.writeEventBit (v : BitVec 64) (s : State) (i : Nat) : State :=
  if v.getLsbD i && bit s.hp.causes i then s.clearCause i else s

/-- Without a further cause, clearing one sends nothing. -/
theorem State.clearCause_quiet {s : State} {i : Nat} (h : s.hp.further = 0) :
    s.clearCause i = s.mapHp (fun h => { h with causes := setBit h.causes i false }) := by
  have hb : bit 0 i = false := by simp [bit]
  simp [State.clearCause, h, hb, State.mapHp]

theorem State.writeEventBit_quiet (v : BitVec 64) {s : State} (i : Nat) (h : s.hp.further = 0) :
    (s.writeEventBit v i).hp.further = 0 ∧ (s.writeEventBit v i).out = s.out ∧
      ∀ j, bit (s.writeEventBit v i).hp.causes j = (bit s.hp.causes j && !(decide (j = i) && v.getLsbD i)) := by
  unfold State.writeEventBit
  split
  · next hc =>
    obtain ⟨hv, hb⟩ := Bool.and_eq_true_iff.mp hc
    rw [State.clearCause_quiet h]
    refine ⟨h, rfl, fun j => ?_⟩
    by_cases hj : j = i <;> simp [bit_eq_testBit, testBit_setBit, hj, hv]
  · next hc =>
    refine ⟨h, rfl, fun j => ?_⟩
    by_cases hj : j = i
    · subst hj
      have hclear : (bit s.hp.causes j && v.getLsbD j) = false := by rwa [Bool.and_comm, ← Bool.not_eq_true]
      revert hclear
      cases bit s.hp.causes j <;> simp
    · simp [hj]

theorem State.foldl_writeEventBit_quiet (v : BitVec 64) (is : List Nat) {s : State} (h : s.hp.further = 0) :
    (is.foldl (State.writeEventBit v) s).out = s.out ∧
      ∀ j, bit (is.foldl (State.writeEventBit v) s).hp.causes j = (bit s.hp.causes j && !(decide (j ∈ is) && v.getLsbD j)) := by
  induction is generalizing s with
  | nil => simp
  | cons i is ih =>
    obtain ⟨hf, ho, hc⟩ := State.writeEventBit_quiet v i h
    obtain ⟨ihOut, ihCauses⟩ := ih hf
    refine ⟨ihOut.trans ho, fun j => ?_⟩
    rw [List.foldl_cons, ihCauses, hc]
    by_cases hj : j = i
    · subst hj
      cases bit s.hp.causes j <;> cases v.getLsbD j <;> simp
    · simp [hj]

/-- A write of MGR_EVENT clears the bits that it writes as one. -/
theorem State.writeEvent_quiet {s : State} (v : BitVec 64) (h : s.hp.further = 0) :
    (∀ i, i < 7 → bit (s.writeEvent v).hp.causes i = (bit s.hp.causes i && !v.getLsbD i)) ∧
      (s.writeEvent v).out = s.out := by
  obtain ⟨ho, hc⟩ := State.foldl_writeEventBit_quiet v (List.range 7) h
  exact ⟨fun i hi => (hc i).trans (by simp [hi]), ho⟩

theorem exec_msixUnmask_on {s : State} (hs : s.hostOn = true) {n : Nat} (hn : n < 72) :
    exec (.msixUnmask n) s = .next (s.unmask n) := by
  show Host.Outcome.next (if s.hostOn && n < 72 then s.unmask n else s) = _
  simp [hs, hn]

theorem State.unmask_spec (s : State) (n : Nat) : n ∉ (s.unmask n).hp.masked ∧ n ∉ (s.unmask n).hp.msixPend ∧
    (n ∈ s.hp.msixPend → (s.unmask n).out = s.out ++ [.msix n]) ∧ (n ∉ s.hp.msixPend → (s.unmask n).out = s.out) := by
  by_cases h : n ∈ s.hp.msixPend <;> simp [State.unmask, h]

/-! ### DMA requests (R152) -/

/-- A request of a range lies within it, is no longer than the limit, and crosses no 4 KiB boundary. -/
theorem mem_cuts {limit : Nat} (hl : 0 < limit) {f addr len : Nat} {e : Nat × Nat} (h : e ∈ cuts limit f addr len) :
    addr ≤ e.1 ∧ 0 < e.2 ∧ e.2 ≤ limit ∧ e.1 + e.2 ≤ addr + len ∧ e.1 % 4096 + e.2 ≤ 4096 := by
  induction f generalizing addr len with
  | zero => simp [cuts] at h
  | succ f ih =>
    rw [cuts] at h
    split at h
    · simp at h
    · rcases List.mem_cons.mp h with rfl | h
      · dsimp only
        omega
      · obtain ⟨ha, hp, hm, hb, hc⟩ := ih h
        omega

@[simp] theorem cuts_zero (limit f addr : Nat) : cuts limit f addr 0 = [] := by cases f <;> simp [cuts]

/-- A range that needs no cut is one request. -/
theorem cuts_whole {limit addr len : Nat} (f : Nat) (hn : 0 < len) (hl : len ≤ limit) (ha : addr % 4096 + len ≤ 4096) :
    cuts limit (f + 1) addr len = [(addr, len)] := by
  have hk : min len (min limit (4096 - addr % 4096)) = len := by omega
  simp [cuts, hk, hn.ne']

theorem slice_length {bs : List Byte} {i n : Nat} (h : i + n ≤ bs.length) : (slice bs i n).length = n := by
  simp only [slice, List.length_take, List.length_drop]
  omega

theorem State.dmaWrite_pieces (pasid addr : Nat) (bs : List Byte) (s : State) :
    ∃ l, (s.dmaWrite pasid addr bs).out = s.out ++ l ∧ ∀ o ∈ l, ∃ a b, o = .dma pasid a b ∧ 0 < b.length ∧ b.length ≤ 256 ∧
      a / 4096 = (a + b.length - 1) / 4096 ∧ addr ≤ a ∧ b = slice bs (a - addr) b.length := by
  refine ⟨_, rfl, fun o ho => ?_⟩
  obtain ⟨_, hp, rfl⟩ := List.mem_map.mp ho
  obtain ⟨⟨a, n⟩, he, rfl⟩ := List.mem_map.mp hp
  obtain ⟨hlo, hpos, hmax, hhi, hpage⟩ := mem_cuts (by decide) he
  dsimp only at hlo hpos hmax hhi hpage
  have hlen : (slice bs (a - addr) n).length = n := slice_length (by omega)
  exact ⟨a, _, rfl, by omega, by omega, by rw [hlen]; omega, hlo, by rw [hlen]⟩

/-- A write that needs no cut is one request. -/
theorem State.dmaWrite_whole (s : State) (pasid : Nat) {addr : Nat} {bs : List Byte} (hn : 0 < bs.length)
    (hl : bs.length ≤ 256) (ha : addr % 4096 + bs.length ≤ 4096) :
    (s.dmaWrite pasid addr bs).out = s.out ++ [.dma pasid addr bs] := by
  simp [State.dmaWrite, cutBytes, cutFuel, cuts_whole _ hn hl ha, slice]

/-! ### Dirty-page marks (R161) -/

/-- Whether a map shows a page of host memory that was written under a PASID index: as a mark, or as ALL_DIRTY. -/
def Dpm.shows (d : Dpm) (idx page : Nat) : Prop :=
  if idx ≠ 0 ∨ page < d.win / 4096 ∨ d.win / 4096 + d.pages ≤ page then d.allDirty = true else page - d.win / 4096 ∈ d.marks

/-- A mark adds to what the map shows, and moves no window. -/
theorem Dpm.mark_grows (d : Dpm) (idx page : Nat) : (d.mark idx page).win = d.win ∧ (d.mark idx page).pages = d.pages ∧
    (d.allDirty = true → (d.mark idx page).allDirty = true) ∧ ∀ m ∈ d.marks, m ∈ (d.mark idx page).marks := by
  unfold Dpm.mark
  dsimp only
  split
  · exact ⟨rfl, rfl, fun _ => rfl, fun _ h => h⟩
  split
  · exact ⟨rfl, rfl, id, fun _ h => h⟩
  · exact ⟨rfl, rfl, id, fun _ h => List.mem_append_left _ h⟩

theorem Dpm.mark_outside {d : Dpm} {idx page : Nat}
    (h : idx ≠ 0 ∨ page < d.win / 4096 ∨ d.win / 4096 + d.pages ≤ page) : (d.mark idx page).allDirty = true := by
  have hc : (decide (idx ≠ 0) || decide (page < d.win / 4096) || decide (d.win / 4096 + d.pages ≤ page)) = true := by
    simpa [or_assoc] using h
  exact congrArg Dpm.allDirty (if_pos hc)

theorem Dpm.mark_inside {d : Dpm} {idx page : Nat}
    (h : ¬(idx ≠ 0 ∨ page < d.win / 4096 ∨ d.win / 4096 + d.pages ≤ page)) :
    page - d.win / 4096 ∈ (d.mark idx page).marks := by
  have hc : ¬(decide (idx ≠ 0) || decide (page < d.win / 4096) || decide (d.win / 4096 + d.pages ≤ page)) = true := by
    simpa [or_assoc] using h
  rw [Dpm.mark, if_neg hc]
  split
  · next hm => exact hm
  · exact List.mem_append_right _ (List.mem_singleton_self _)

theorem Dpm.mark_shows (d : Dpm) (idx page : Nat) : (d.mark idx page).shows idx page := by
  obtain ⟨hw, hp, -, -⟩ := d.mark_grows idx page
  rw [Dpm.shows, hw, hp]
  split
  · next h => exact Dpm.mark_outside h
  · next h => exact Dpm.mark_inside h

theorem Dpm.shows_mark {d : Dpm} {i q : Nat} (h : d.shows i q) (idx page : Nat) : (d.mark idx page).shows i q := by
  obtain ⟨hw, hp, ha, hm⟩ := d.mark_grows idx page
  unfold Dpm.shows at h ⊢
  rw [hw, hp]
  split
  · next hc => exact ha (by rwa [if_pos hc] at h)
  · next hc => exact hm _ (by rwa [if_neg hc] at h)

theorem Dpm.shows_foldl_mark {d : Dpm} {i q : Nat} (h : d.shows i q) (idx first : Nat) (ks : List Nat) :
    (ks.foldl (fun d k => d.mark idx (first + k)) d).shows i q := by
  induction ks generalizing d with
  | nil => exact h
  | cons k ks ih => exact ih (Dpm.shows_mark h _ _)

theorem Dpm.foldl_mark_shows (d : Dpm) (idx first : Nat) {ks : List Nat} {k : Nat} (h : k ∈ ks) :
    (ks.foldl (fun d k => d.mark idx (first + k)) d).shows idx (first + k) := by
  induction ks generalizing d with
  | nil => cases h
  | cons j ks ih =>
    rcases List.mem_cons.mp h with rfl | h
    · exact Dpm.shows_foldl_mark (d.mark_shows idx (first + k)) idx first ks
    · exact ih _ h

section
variable {d : Dpm} {addr len : Nat} (he : d.enable = true) (hl : 0 < len)
include he hl

theorem Dpm.write_eq (idx : Nat) : d.write idx addr len = (List.range ((addr + len - 1) / 4096 + 1 - addr / 4096)).foldl
    (fun d k => d.mark idx (addr / 4096 + k)) d := by simp [Dpm.write, he, hl.ne']

theorem Dpm.write_window (idx : Nat) : (d.write idx addr len).win = d.win ∧ (d.write idx addr len).pages = d.pages := by
  rw [Dpm.write_eq he hl]
  exact ⟨foldl_keep (g := Dpm.win) (fun d k => (d.mark_grows idx _).1) _ d,
    foldl_keep (g := Dpm.pages) (fun d k => (d.mark_grows idx _).2.1) _ d⟩

/-- Every page that a write touches is shown. -/
theorem Dpm.write_shows (idx : Nat) {page : Nat} (hf : addr / 4096 ≤ page) (ht : page ≤ (addr + len - 1) / 4096) :
    (d.write idx addr len).shows idx page := by
  obtain ⟨k, rfl⟩ := Nat.exists_eq_add_of_le hf
  rw [Dpm.write_eq he hl]
  exact d.foldl_mark_shows idx _ (List.mem_range.mpr (by omega))

theorem Dpm.write_allDirty {idx page : Nat} (hf : addr / 4096 ≤ page) (ht : page ≤ (addr + len - 1) / 4096)
    (hc : idx ≠ 0 ∨ page < d.win / 4096 ∨ d.win / 4096 + d.pages ≤ page) : (d.write idx addr len).allDirty = true := by
  have h := Dpm.write_shows he hl idx hf ht
  obtain ⟨hw, hp⟩ := Dpm.write_window (addr := addr) he hl idx
  rwa [Dpm.shows, hw, hp, if_pos hc] at h

theorem Dpm.write_marks {page : Nat} (hf : addr / 4096 ≤ page) (ht : page ≤ (addr + len - 1) / 4096)
    (hlo : d.win / 4096 ≤ page) (hhi : page < d.win / 4096 + d.pages) :
    page - d.win / 4096 ∈ (d.write 0 addr len).marks := by
  have h := Dpm.write_shows he hl 0 hf ht
  obtain ⟨hw, hp⟩ := Dpm.write_window (addr := addr) he hl 0
  rwa [Dpm.shows, hw, hp, if_neg (by omega)] at h

/-- What a write marks, address by address. -/
theorem Dpm.write_spec (hw : d.win % 4096 = 0) :
    (∀ a, addr ≤ a → a < addr + len → d.win ≤ a → a < d.win + 4096 * d.pages →
      (a - d.win) / 4096 ∈ (d.write 0 addr len).marks) ∧
    (addr < d.win → (d.write 0 addr len).allDirty = true) ∧
    (d.win + 4096 * d.pages < addr + len → (d.write 0 addr len).allDirty = true) ∧
    (∀ i, i ≠ 0 → (d.write i addr len).allDirty = true) := by
  refine ⟨fun a hlo hhi hin hout => ?_, fun h => ?_, fun h => ?_, fun i hi => ?_⟩
  · have hpage : (a - d.win) / 4096 = a / 4096 - d.win / 4096 := by omega
    rw [hpage]
    exact Dpm.write_marks he hl (by omega) (by omega) (by omega) (by omega)
  · exact Dpm.write_allDirty he hl (page := addr / 4096) le_rfl (by omega) (.inr (.inl (by omega)))
  · exact Dpm.write_allDirty he hl (page := (addr + len - 1) / 4096) (by omega) le_rfl (.inr (.inr (by omega)))
  · exact Dpm.write_allDirty he hl (page := addr / 4096) le_rfl (by omega) (.inl hi)

end

/-! ### Map words written back (R160, R162, R163) -/

theorem fromLe_le (len n : Nat) : fromLe (le len n) = n % 256 ^ len := by
  rw [fromLe, le, List.reverse_reverse, fromBe_be]

/-- The marks of a word that are set one by one. -/
theorem testBit_foldl_marks (w j : Nat) (ms : List Nat) (a : Nat) :
    (ms.foldl (fun a p => if p / 64 = w then setBit a (p % 64) true else a) a).testBit j =
      (a.testBit j || ms.any (fun p => decide (p / 64 = w ∧ p % 64 = j))) := by
  induction ms generalizing a with
  | nil => simp
  | cons p ms ih =>
    rw [List.foldl_cons, ih, List.any_cons]
    by_cases hw : p / 64 = w
    · by_cases hj : p % 64 = j
      · simp [hw, hj, testBit_setBit]
      · simp [hw, hj, testBit_setBit, Ne.symm hj]
    · simp [hw]

theorem Dpm.testBit_wordMarks {d : Dpm} {p : Nat} (h : p ∈ d.marks) : (d.wordMarks (p / 64)).testBit (p % 64) = true := by
  rw [Dpm.wordMarks, testBit_foldl_marks, Bool.or_eq_true, List.any_eq_true]
  exact .inr ⟨p, h, by simp⟩

/-- The state `t` after the map words `ws` of slice `n` were read and written back with their marks, from the state `s`. -/
structure State.Flushed (s : State) (n : Nat) (ws : List Nat) (t : State) : Prop where
  dpm : t.dpm n = { s.dpm n with marks := (s.dpm n).marks.filter (fun p => decide (p / 64 ∉ ws)) }
  pasid : t.hp.pasid = s.hp.pasid
  stop : t.dmaStop 64 = s.dmaStop 64
  out : s.out ⊆ t.out
  written : ∀ p ∈ (s.dpm n).marks, p / 64 ∈ ws → ∃ bs, Out.dma s.hp.pasid ((s.dpm n).buffer + 8 * (p / 64)) bs ∈ t.out ∧
    bs.length = 8 ∧ bit (fromLe bs) (p % 64) = true

theorem State.Flushed.refl (s : State) (n : Nat) : s.Flushed n [] s :=
  ⟨by simp, rfl, rfl, List.Subset.refl _, fun p _ h => by cases h⟩

theorem State.Flushed.trans {s t u : State} {n : Nat} {ws vs : List Nat} (h : s.Flushed n ws t) (k : t.Flushed n vs u) :
    s.Flushed n (ws ++ vs) u := by
  refine ⟨?_, k.pasid.trans h.pasid, k.stop.trans h.stop, List.Subset.trans h.out k.out, fun p hp hm => ?_⟩
  · rw [k.dpm, h.dpm]
    simp [List.filter_filter, Bool.and_comm]
  · by_cases hw : p / 64 ∈ ws
    · obtain ⟨bs, hout, hbs⟩ := h.written p hp hw
      exact ⟨bs, k.out hout, hbs⟩
    · have hv : p / 64 ∈ vs := (List.mem_append.mp hm).resolve_left hw
      have hp' : p ∈ (t.dpm n).marks := by
        rw [h.dpm]
        exact List.mem_filter.mpr ⟨hp, by simpa using hw⟩
      have hbuf : (t.dpm n).buffer = (s.dpm n).buffer := by
        rw [h.dpm]
        rfl
      obtain ⟨bs, hbs⟩ := k.written p hp' hv
      rw [h.pasid, hbuf] at hbs
      exact ⟨bs, hbs⟩

/-- One word is read, its marks are set in it, and it is written back. -/
theorem State.flushWord_data {s : State} (n w : Nat) (hs : s.dmaStop 64 = none) (bs : List Byte) :
    s.flushWord n w (.data bs) =
      ((s.setDpm n { s.dpm n with marks := (s.dpm n).marks.filter (fun p => p / 64 != w) }).dmaRead s.hp.pasid
        ((s.dpm n).buffer + 8 * w) 8).dmaWrite s.hp.pasid ((s.dpm n).buffer + 8 * w)
          (le 8 (fromLe (s.readBytes bs 8) ||| (s.dpm n).wordMarks w)) := by
  simp only [State.flushWord, hs]

theorem State.flushWord_flushed {s : State} {n : Nat} (hs : s.dmaStop 64 = none) (hb : (s.dpm n).buffer % 4096 = 0) (w : Nat)
    (bs : List Byte) : s.Flushed n [w] (s.flushWord n w (.data bs)) := by
  have hlen (x : Nat) : (le 8 x).length = 8 := by simp [le]
  rw [State.flushWord_data n w hs]
  have hout := State.dmaWrite_whole ((s.setDpm n { s.dpm n with
    marks := (s.dpm n).marks.filter (fun p => p / 64 != w) }).dmaRead s.hp.pasid ((s.dpm n).buffer + 8 * w) 8) s.hp.pasid
    (addr := (s.dpm n).buffer + 8 * w) (bs := le 8 (fromLe (s.readBytes bs 8) ||| (s.dpm n).wordMarks w))
    (by rw [hlen]; decide) (by rw [hlen]; decide) (by rw [hlen]; omega)
  refine ⟨?dpm, rfl, rfl, ?out, fun p hp hw => ?written⟩
  case dpm =>
    have hw : (fun p => p / 64 != w) = fun p => decide (p / 64 ∉ [w]) := by
      funext p
      by_cases h : p / 64 = w <;> simp [h]
    exact (State.setDpm_dpm_same s n _).trans (by rw [hw])
  case out =>
    rw [hout]
    exact fun o ho => List.mem_append_left _ (List.mem_append_left _ ho)
  case written =>
    obtain rfl := List.mem_singleton.mp hw
    refine ⟨_, hout ▸ List.mem_append_right _ (List.mem_singleton_self _), hlen _, ?_⟩
    have h64 : 256 ^ 8 = 2 ^ 64 := by norm_num
    rw [bit_eq_testBit, fromLe_le, h64, Nat.testBit_mod_two_pow, Nat.testBit_or, Dpm.testBit_wordMarks hp]
    simp [Nat.mod_lt]

theorem State.foldl_flushWord_flushed {maps : List Dma} (hm : ∀ m ∈ maps, ∃ bs, m = .data bs) (n : Nat)
    (es : List (Nat × Nat)) {s : State} (hs : s.dmaStop 64 = none) (hb : (s.dpm n).buffer % 4096 = 0) :
    s.Flushed n (es.map Prod.fst) (es.foldl (fun s e => s.flushWord n e.1 (maps.getD e.2 (.data []))) s) := by
  induction es generalizing s with
  | nil => exact .refl s n
  | cons e es ih =>
    have hdata : ∃ bs, maps.getD e.2 (.data []) = .data bs := by
      rw [List.getD_eq_getElem?_getD]
      cases h : maps[e.2]? with
      | none => exact ⟨[], rfl⟩
      | some m => exact hm m (List.mem_of_getElem? h)
    obtain ⟨bs, hbs⟩ := hdata
    have hword := State.flushWord_flushed (n := n) hs hb e.1 bs
    rw [← hbs] at hword
    have hbuf : ((s.flushWord n e.1 (maps.getD e.2 (.data []))).dpm n).buffer = (s.dpm n).buffer := by
      rw [hword.dpm]
      rfl
    exact hword.trans (ih (hword.stop.trans hs) (hbuf ▸ hb))

/-- Every mark of a slice is written. -/
theorem State.flushMarks_flushed {s : State} {n : Nat} {maps : List Dma} (hm : ∀ m ∈ maps, ∃ bs, m = .data bs)
    (hs : s.dmaStop 64 = none) (hb : (s.dpm n).buffer % 4096 = 0) :
    s.Flushed n (s.dpm n).words (s.flushMarks n maps) := by
  have h := State.foldl_flushWord_flushed hm n (s.dpm n).words.zipIdx hs hb
  rwa [List.zipIdx_map_fst] at h

theorem Dpm.mem_words {d : Dpm} {p : Nat} (h : p ∈ d.marks) : p / 64 ∈ d.words :=
  List.mem_eraseDups.mpr (List.mem_map.mpr ⟨p, h, rfl⟩)

theorem State.fire_out (s : State) (i : Nat) : s.out ⊆ (s.fire i).out := by
  have hmsix (t : State) (v : Nat) : t.out ⊆ (t.msix v).out := by
    unfold State.msix
    split
    · split <;> exact List.Subset.refl _
    · exact List.subset_append_left _ _
  unfold State.fire
  split
  · exact List.Subset.refl _
  · exact hmsix { s with hp := { s.hp with causes := setBit s.hp.causes i true } } (65 + i)

theorem State.fire_dpm (s : State) (i n : Nat) : (s.fire i).dpm n = s.dpm n :=
  HostPort.of_wired (fun h => h.dpm.get Dpm.init n) (fun _ => rfl) (s.fire_wired i)

theorem exec_dpmSwapDone_swapping {s : State} (hs : s.hostOn = true) {n : Nat} (hw : (s.dpm n).swapping = true)
    (maps : List Dma) : exec (.dpmSwapDone ⟨n, maps⟩) s = .next (((s.flushMarks n maps).setDpm n
      ((s.flushMarks n maps).dpm n).swapped).fire 4) := by
  simp only [State.hostOn, Bool.and_eq_true] at hs
  obtain ⟨⟨hmain, -⟩, hd0⟩ := hs
  exact congrArg Host.Outcome.next (if_pos (by simp [hmain, hd0, hw]))

/-- A swap writes every mark of the slice and changes its map. -/
theorem State.swap_spec {s : State} {n : Nat} {maps : List Dma} (hm : ∀ m ∈ maps, ∃ bs, m = .data bs)
    (hs : s.dmaStop 64 = none) (hb : (s.dpm n).buffer % 4096 = 0) :
    let u := ((s.flushMarks n maps).setDpm n ((s.flushMarks n maps).dpm n).swapped).fire 4
    u.dpm n = { (s.dpm n).swapped with marks := [] } ∧
      ∀ p ∈ (s.dpm n).marks, ∃ bs, Out.dma s.hp.pasid ((s.dpm n).buffer + 8 * (p / 64)) bs ∈ u.out ∧ bs.length = 8 ∧
        bit (fromLe bs) (p % 64) = true := by
  have h := State.flushMarks_flushed hm hs hb
  have hnone : (s.dpm n).marks.filter (fun p => decide (p / 64 ∉ (s.dpm n).words)) = [] := by
    rw [List.filter_eq_nil_iff]
    exact fun p hp => by simpa using Dpm.mem_words hp
  refine ⟨?_, fun p hp => ?_⟩
  · rw [State.fire_dpm, State.setDpm_dpm_same, h.dpm, hnone]
    rfl
  · obtain ⟨bs, hout, hbs⟩ := h.written p hp (Dpm.mem_words hp)
    exact ⟨bs, State.fire_out _ 4 hout, hbs⟩

theorem exec_dpmEnable_noSwap {s : State} (hs : s.hostOn = true) {n : Nat} (hn : n < 64) {v : BitVec 64}
    (hv : v.getLsbD 2 = false) : exec (.dpmEnable n v) s = .next (s.setDpm n ((s.dpm n).control v)) := by
  show Host.Outcome.next (if s.hostOn && n < 64 then s.writeDpmCtrl n v else s) = _
  rw [if_pos (by simp [hs, hn]), State.writeDpmCtrl, hv]
  rfl

theorem exec_dpmSwap_idle {s : State} (hs : s.hostOn = true) {n : Nat} (hn : n < 64) (hd : (s.dpm n).swapDone = false)
    (hw : (s.dpm n).swapping = false) : exec (.dpmSwap n) s = .next (s.setDpm n { s.dpm n with swapping := true }) := by
  show Host.Outcome.next (if s.hostOn && n < 64 then s.requestSwap n else s) = _
  simp [hs, hn, hd, hw, State.requestSwap]

/-- An ENABLE that is cleared while a swap is in progress clears when the swap completes (Table 04-11). -/
theorem Dpm.control_closing {d : Dpm} {v : BitVec 64} (he : d.enable = true) (hw : d.swapping = true)
    (hv : v.getLsbD 0 = false) : (d.control v).enable = true ∧ (d.control v).swapped.enable = false := by
  simp only [Dpm.control, Dpm.swapped, he, hw, hv]
  decide

/-! ### Output writes of a context (R155, R156, R170) -/

/-- The output writes of a context: those pending and those that wait. -/
def State.writesOf (s : State) (j : Nat) : List Pw × List Pw := ((s.ctx j).pw, (s.ctx j).stalled)

theorem State.writesOf_of_ctxs {s t : State} (h : s.ctxs = t.ctxs) (j : Nat) : s.writesOf j = t.writesOf j := by
  rw [State.writesOf, State.writesOf, State.ctx_of_ctxs h]

theorem State.writesOf_setCtx {s : State} {i : Nat} {c : Ctx} (hp : c.pw = (s.ctx i).pw) (hs : c.stalled = (s.ctx i).stalled)
    (j : Nat) : (s.setCtx i c).writesOf j = s.writesOf j := by
  rw [State.writesOf, State.setCtx_ctx]
  split
  · next h =>
    subst h
    rw [hp, hs, State.writesOf]
  · rfl

theorem State.setVp_ctxs (s : State) (p : Port) (v : Vp) : (s.setVp p v).ctxs = s.ctxs := by simp

/-- A reply on its way is no output write. -/
@[simp] theorem State.deliver_writesOf (s : State) (rt : Route) (reply : List Byte) (irq credit : Bool) (j : Nat) :
    (s.deliver rt reply irq credit).writesOf j = s.writesOf j := by
  cases rt with
  | ring o i a c k => exact State.writesOf_setCtx (by rfl) (by rfl) j
  | push n w => exact State.writesOf_setCtx (by rfl) (by rfl) j
  | console => rfl
  | vital p alive => exact State.writesOf_of_ctxs (State.setVp_ctxs _ _ _) j

@[simp] theorem State.answerAgain_writesOf (s : State) (ctx : Nat) (hdr digest reply : List Byte) (credit : Bool) (j : Nat) :
    (s.answerAgain ctx hdr digest reply credit).writesOf j = s.writesOf j := by
  unfold State.answerAgain
  exact foldl_keep (g := fun t : State => t.writesOf j) (fun t l => t.deliver_writesOf _ _ _ _ j) _ _

theorem Ctx.enter_writes (c : Ctx) (e : Cached) : (c.enter e).pw = c.pw ∧ (c.enter e).stalled = c.stalled := by
  unfold Ctx.enter
  dsimp only
  split
  · exact ⟨rfl, rfl⟩
  · split <;> exact ⟨rfl, rfl⟩

theorem Ctx.setStreams_writes (c : Ctx) (keep : Option Stream) (close : Option Nat) :
    (c.setStreams keep close).pw = c.pw ∧ (c.setStreams keep close).stalled = c.stalled := by
  cases keep <;> exact ⟨rfl, rfl⟩

@[simp] theorem State.complete_writesOf (s : State) (rq : Rq) (ev : Bool) (st : Status) (d : Nat) (b : List Byte) (j : Nat) :
    (s.complete rq ev st d b).writesOf j = s.writesOf j := by
  unfold State.complete
  split
  · exact State.deliver_writesOf _ _ _ _ _ j
  · dsimp only
    rw [State.answerAgain_writesOf, State.deliver_writesOf]
    split
    · exact State.writesOf_setCtx (Ctx.enter_writes _ _).1 (Ctx.enter_writes _ _).2 j
    · rfl

@[simp] theorem State.closePart_writesOf (s : State) (rq : Rq) (st : Status) (j : Nat) :
    (s.closePart rq st).writesOf j = s.writesOf j := by
  unfold State.closePart
  dsimp only
  split
  · exact State.writesOf_setCtx (Ctx.setStreams_writes _ _ _).1 (Ctx.setStreams_writes _ _ _).2 j
  · rfl

@[simp] theorem State.endAll_writesOf (s : State) (p : Live → Bool) (st : Status) (d j : Nat) :
    (s.endAll p st d).writesOf j = s.writesOf j := by
  have hstep (t : State) (l : Live) : (({ t with live := t.live.erase l }.closePart l.rq st).complete l.rq false st d
      []).writesOf j = t.writesOf j :=
    (State.complete_writesOf _ _ _ _ _ _ j).trans (State.closePart_writesOf _ _ _ j)
  exact foldl_keep (g := fun t : State => t.writesOf j) hstep _ s

/-- Binding entries that cannot be fetched end requests, and no output write. -/
theorem State.entryFails_writesOf (s : State) (ch origin completion j : Nat) :
    (s.entryFails ch origin completion).writesOf j = s.writesOf j :=
  (State.endAll_writesOf _ _ _ _ j).trans (State.writesOf_of_ctxs (by simp) j)

theorem State.entryFails_wired (s : State) (ch origin completion : Nat) :
    (s.entryFails ch origin completion).hp.wired = s.hp.wired := by
  simp [State.entryFails]

/-- One channel of `State.failEntries`. -/
def State.failEntry (s : State) (ch : Nat) : State :=
  match s.live.find? (Live.wantsEntry ch) with
  | none => s
  | some l => s.entryFails ch l.rq.route.origin 6

theorem State.failEntry_keep {γ : Type} {g : State → γ} (h : ∀ s ch origin c, g (State.entryFails s ch origin c) = g s)
    (s : State) (ch : Nat) : g (s.failEntry ch) = g s := by
  unfold State.failEntry
  split
  · rfl
  · exact h _ _ _ _

theorem State.failEntries_eq (s : State) : s.failEntries = (List.range 256).foldl State.failEntry s := rfl

theorem State.failEntries_spec (s : State) : (∀ j, s.failEntries.writesOf j = s.writesOf j) ∧
    s.failEntries.hp.wired = s.hp.wired ∧ s.failEntries.ks = s.ks := by
  have hall {γ : Type} {g : State → γ} (h : ∀ s ch origin c, g (State.entryFails s ch origin c) = g s) :
      g s.failEntries = g s := by
    rw [State.failEntries_eq]
    exact foldl_keep (State.failEntry_keep h) (List.range 256) s
  exact ⟨fun j => hall (g := fun t => t.writesOf j) fun t ch o c => t.entryFails_writesOf ch o c j,
    hall (g := fun t => t.hp.wired) State.entryFails_wired, hall (g := State.ks) (by simp)⟩

theorem State.failWritesOf_ctx (s : State) (i j : Nat) :
    (s.failWritesOf i).ctx j = if j = i then { s.ctx i with pw := [], stalled := [] } else s.ctx j :=
  (State.ctx_of_ctxs (times_keep (g := State.ctxs) (by simp) _ _) j).trans (State.setCtx_ctx s i j _)

theorem State.failWritesOf_wired (s : State) (i : Nat) : (s.failWritesOf i).hp.wired = s.hp.wired :=
  times_keep (g := fun t : State => t.hp.wired) (fun t => t.dmaEvent_wired _ _ _ _) _ _

/-- Every output write fails with the link (R170). -/
theorem State.failWrites_writesOf (s : State) {j : Nat} (hj : j < 65) : s.failWrites.writesOf j = ([], []) := by
  have hfold (n : Nat) (hn : j < n) : ((List.range n).foldl State.failWritesOf s).writesOf j = ([], []) := by
    induction n with
    | zero => cases hn
    | succ n ih =>
      rw [List.range_succ, List.foldl_append, List.foldl_cons, List.foldl_nil, State.writesOf, State.failWritesOf_ctx]
      split
      · rfl
      · next hne => exact ih (by omega)
  exact hfold 65 hj

theorem State.failWrites_wired (s : State) : s.failWrites.hp.wired = s.hp.wired :=
  foldl_keep (g := fun t : State => t.hp.wired) State.failWritesOf_wired (List.range 65) s

/-! ### Pending writes, power state, link (R127, R156, R170) -/

section
variable {s : State} (hm : s.pow.main = true)
include hm

theorem exec_pendingWriteComplete_ok {n : Nat} {w : Pw} {r : List Pw} (hn : n < 64) (hw : (s.ctx n).pw = w :: r) :
    exec (.pendingWriteComplete n none) s = .next ((s.setCtx n { s.ctx n with pw := r }).drain n).pump := by
  show Host.Outcome.next (if n < 64 && s.pow.main then (s.endWrite n none).pump else s) = _
  rw [if_pos (by simp [hn, hm]), State.endWrite, hw]

theorem exec_powerStateChange_linked (hl : s.hp.linkUp = true) (d3hot : Bool) : exec (.powerStateChange d3hot) s =
    .next (if d3hot then s.mapHp (fun h => { h with d3hot := d3hot })
      else (s.mapHp (fun h => { h with d3hot := d3hot })).drainAll.sendPending.pump) := by
  show Host.Outcome.next (if s.pow.main && s.hp.linkUp then _ else s) = _
  rw [if_pos (by simp [hm, hl])]

theorem exec_linkLoss_linked (hl : s.hp.linkUp = true) : exec .linkLoss s = .next
    ((s.mapHp (fun h => { h with linkUp := false })).event 0x0202 noOrigin [0#8, 0#8, 0#8]).failWrites.failEntries.pump :=
  congrArg Host.Outcome.next (if_pos (by simp [hm, hl]))

theorem exec_hostLinkUp_unlinked (hl : s.hp.linkUp = false) {rate width : Nat} (h1 : 1 ≤ rate) (h4 : rate ≤ 4)
    (hw : width = 1 ∨ width = 2 ∨ width = 4) : exec (.hostLinkUp rate width) s =
    .next ((s.mapHp (fun h => { h with linkUp := true, rate := rate, width := width })).event 0x0202 noOrigin
      [1#8, byte rate, byte width]).sendPending :=
  congrArg Host.Outcome.next (if_pos (by simpa [hm, hl, h1, h4, or_assoc] using hw))

end

theorem State.sendPending_wired (s : State) : s.sendPending.hp.wired = s.hp.wired := by
  have hstep (t : State) (v : Nat) : (t.emit (.msix v)).hp.wired = t.hp.wired := rfl
  unfold State.sendPending
  split
  · rfl
  · exact foldl_keep (g := fun t : State => t.hp.wired) hstep _ _

/-- A lost link takes every output write with it. -/
theorem exec_linkLoss_spec {s : State} (hm : s.pow.main = true) (hl : s.hp.linkUp = true) :
    ∃ u : State, exec .linkLoss s = .next u.pump ∧ u.hp.linkUp = false ∧
      (∀ n, n < 65 → (u.ctx n).pw = [] ∧ (u.ctx n).stalled = []) ∧ u.ks = s.ks := by
  obtain ⟨hwrites, hwired, hks⟩ := State.failEntries_spec
    ((s.mapHp (fun h => { h with linkUp := false })).event 0x0202 noOrigin [0#8, 0#8, 0#8]).failWrites
  refine ⟨_, exec_linkLoss_linked hm hl, ?_, fun n hn => ?_, hks.trans (by simp)⟩
  · exact HostPort.of_wired HostPort.linkUp (fun _ => rfl)
      (hwired.trans ((State.failWrites_wired _).trans (State.event_wired _ _ _ _)))
  · exact Prod.mk.inj ((hwrites n).trans (State.failWrites_writesOf _ hn))

/-- A new link takes its rate and width. -/
theorem exec_hostLinkUp_spec {s : State} (hm : s.pow.main = true) (hl : s.hp.linkUp = false) {rate width : Nat} (h1 : 1 ≤ rate)
    (h4 : rate ≤ 4) (hw : width = 1 ∨ width = 2 ∨ width = 4) : ∃ u : State, exec (.hostLinkUp rate width) s = .next u ∧
      u.hp.linkUp = true ∧ u.hp.rate = rate ∧ u.hp.width = width ∧ u.ctxs = s.ctxs := by
  have hwired := (State.sendPending_wired ((s.mapHp (fun h => { h with linkUp := true, rate := rate, width := width })).event
    0x0202 noOrigin [1#8, byte rate, byte width])).trans (State.event_wired _ _ _ _)
  exact ⟨_, exec_hostLinkUp_unlinked hm hl h1 h4 hw, HostPort.of_wired HostPort.linkUp (fun _ => rfl) hwired,
    HostPort.of_wired HostPort.rate (fun _ => rfl) hwired, HostPort.of_wired HostPort.width (fun _ => rfl) hwired, by simp⟩

/-- Settles O49: causes by `State.writeEvent_quiet`, masks by `State.unmask_spec`, swaps by `State.swap_spec`, requests by
`State.dmaWrite_pieces`, marks by `Dpm.write_spec`, and the link by `exec_linkLoss_spec` and `exec_hostLinkUp_spec`. -/
theorem hostPortEventsTakeEffect : Obligations.HostPortEventsTakeEffect := by
  refine ⟨fun s hs => ⟨fun v hf => ?event, fun n hn => ⟨_, exec_msixUnmask_on hs hn, s.unmask_spec n⟩⟩,
    fun s n hs hn => ⟨fun v hv => exec_dpmEnable_noSwap hs hn hv, fun hd hw => exec_dpmSwap_idle hs hn hd hw,
      fun maps hw _ hstop hb hmaps => ?swap⟩,
    fun d v he hw hv => Dpm.control_closing he hw hv, State.dmaWrite_pieces, fun d addr len he hl hw => Dpm.write_spec he hl hw,
    fun s hm => ⟨fun n w r hn hw => exec_pendingWriteComplete_ok hm hn hw,
      fun hl => (exec_powerStateChange_linked hm hl true).trans (congrArg _ (if_pos rfl)),
      fun hl => (exec_powerStateChange_linked hm hl false).trans (congrArg _ (if_neg Bool.false_ne_true)),
      fun hl => exec_linkLoss_spec hm hl, fun r w hl h1 h4 hw => exec_hostLinkUp_spec hm hl h1 h4 hw⟩⟩
  case event =>
    obtain ⟨hcauses, hout⟩ := s.writeEvent_quiet v hf
    exact ⟨_, exec_mgrEvent_on hs v, hcauses, by simp, hout⟩
  case swap =>
    obtain ⟨hdpm, hwritten⟩ := State.swap_spec (n := n) hmaps hstop hb
    exact ⟨_, exec_dpmSwapDone_swapping hs hw maps, by rw [hdpm]; rfl, by rw [hdpm]; rfl, by rw [hdpm]; rfl, by rw [hdpm],
      by rw [hdpm]; rfl, hwritten⟩

end Sys2Proof.Machine
end

section
/-! PROOFS. Working memory (chapter 05): the placement of runs (R182-R185) and the commands that make and resize slices. -/

namespace Sys2Proof.Machine

/-! ### Placement (R182-R185) -/

@[simp] theorem areaLen_areaAt (b w : Nat) : areaLen (areaAt b w) = w := by
  unfold areaAt
  split
  · next hw => rw [hw]; rfl
  · rfl

theorem State.fitsAt_iff {s : State} {b w : Nat} : s.fitsAt b w = true ↔
    b + w ≤ poolEnd ∧ ∀ q ∈ s.runs, b + w ≤ q.base ∨ q.base + q.words ≤ b := by
  simp [State.fitsAt]

/-- The lowest fit fits, and is the start of the pool or the end of a run. -/
theorem State.lowestFit_spec {s : State} {b w : Nat} (h : s.lowestFit w = some b) :
    s.fitsAt b w = true ∧ (b = poolFirst ∨ ∃ q ∈ s.runs, q.base + q.words = b) := by
  have hmem := List.mem_filter.mp (List.min?_mem h)
  exact ⟨hmem.2, by simpa using hmem.1⟩

/-- A run that is placed stands at the lowest fit of its words and guard band (R184). -/
theorem State.place_ok {s : State} {d f0 f1 : Nat} {r : Run} (h : s.place d f0 f1 = .ok r) :
    ∃ b, s.lowestFit (d + f0 + f1 + 256) = some b ∧ r = runAt b d f0 f1 := by
  unfold State.place at h
  dsimp only at h
  split at h
  · next b hb => exact ⟨b, hb, (Except.ok.inj h).symm⟩
  · cases h
  · cases h

/-- A placed run lies in the pool, holds its parts and a guard band, and meets no other run (R182-R185). -/
theorem State.place_spec {s : State} {d f0 f1 : Nat} {r : Run} (h : s.place d f0 f1 = .ok r) :
    r.words = d + f0 + f1 + 256 ∧ r.data.len = d ∧ areaLen r.ft0 = f0 ∧ areaLen r.ft1 = f1 ∧ r.base + r.words ≤ poolEnd ∧
    (∀ q ∈ s.runs, r.base + r.words ≤ q.base ∨ q.base + q.words ≤ r.base) ∧
    ((∀ q ∈ s.runs, poolFirst ≤ q.base) → poolFirst ≤ r.base) := by
  obtain ⟨b, hb, rfl⟩ := State.place_ok h
  obtain ⟨hfits, hstart⟩ := State.lowestFit_spec hb
  obtain ⟨hend, hmeets⟩ := State.fitsAt_iff.mp hfits
  refine ⟨rfl, rfl, areaLen_areaAt _ _, areaLen_areaAt _ _, hend, hmeets, fun hruns => ?_⟩
  rcases hstart with rfl | ⟨q, hq, rfl⟩
  · exact Nat.le_refl _
  · exact Nat.le_add_right_of_le (hruns q hq)

/-! ### The root key of a slice (R333) -/

/-- The key cache takes an entry without touching slices, contexts or slots. -/
theorem State.loadCache_frame {s t : State} {k : Nat} (h : s.loadCache k = some t) :
    t.slices = s.slices ∧ t.ctxs = s.ctxs ∧ t.ks.slots = s.ks.slots := by
  unfold State.loadCache at h
  split at h
  · cases h; exact ⟨rfl, rfl, rfl⟩
  · split at h
    · cases h
    · cases h; exact ⟨rfl, rfl, rfl⟩

theorem State.install_spec (s : State) (k : Nat) (key : Key) : (s.install k key).slices = s.slices ∧
    (s.install k key).ctxs = s.ctxs ∧ ((s.install k key).slot k).key = some key := by
  unfold State.install
  dsimp only
  cases hload : (s.setSlot k { s.slot k with key := some key, lostHss := none }).loadCache k with
  | none => exact ⟨rfl, rfl, by simp⟩
  | some t =>
    obtain ⟨hslices, hctxs, hslots⟩ := State.loadCache_frame hload
    refine ⟨hslices, hctxs, ?_⟩
    rw [Option.getD_some, State.slot, hslots, ← State.slot, State.setSlot_slot_same]

theorem State.makeRoot_spec (s : State) (k owner : Nat) : (s.makeRoot k owner).slices = s.slices ∧
    (s.makeRoot k owner).ctxs = s.ctxs ∧ ((s.makeRoot k owner).slot k).key.isSome = true := by
  obtain ⟨hslices, hctxs, hkey⟩ := (s.drewBytes 32).install_spec k (s.makeKey owner k 0 rootSpec 0 (s.drawBytes 32) [] 0)
  exact ⟨hslices, hctxs, by rw [State.makeRoot, hkey, Option.isSome_some]⟩

/-! ### SLICE.CREATE (R198, R199) -/

theorem State.advance_one_ctx (s : State) (n : Nat) : (s.advance [n]).ctx n = (s.ctx n).advance := by
  have hctxs : (s.advance [n]).ctxs = (s.setCtx n (s.ctx n).advance).ctxs := by simp [State.advance]
  rw [State.ctx_of_ctxs hctxs, State.setCtx_ctx_same]

/-- The reply of R198 for a slice with a run. -/
theorem State.runReply_run {s : State} {n : Nat} {r : Run} (h : (s.slc n).run = some r) :
    s.runReply n = be 3 r.base ++ be 3 r.words ++ be 3 (s.ctx n).epoch := by
  simp [State.runReply, h]

theorem State.firstFail_quotaCheck {s : State} {n q : Nat} (h : s.quotaSum n + q + s.retiredSlots ≤ 16128) :
    firstFail (s.quotaCheck n q) = none := by
  simpa [State.quotaCheck] using h

/-- The state that SLICE.CREATE leaves: the slice with quota and run, its root made, its epoch advanced, the event recorded. -/
def State.madeSlice (s : State) (n quota : Nat) (r : Run) (origin : Nat) : State :=
  (((s.setSlc n ⟨.created, [], quota, some r⟩).makeRoot (0x40 + n) n).advance [n]).sliceEvent n 1 origin

theorem State.madeSlice_slc (s : State) (n quota : Nat) (r : Run) (origin m : Nat) :
    (s.madeSlice n quota r origin).slc m = if m = n then ⟨.created, [], quota, some r⟩ else s.slc m := by
  obtain ⟨hslices, -, -⟩ := (s.setSlc n ⟨.created, [], quota, some r⟩).makeRoot_spec (0x40 + n) n
  have hsame : (s.madeSlice n quota r origin).slices = (s.setSlc n ⟨.created, [], quota, some r⟩).slices := by
    simp [State.madeSlice, hslices]
  rw [State.slc, hsame, ← State.slc, State.setSlc_slc]

theorem State.madeSlice_slot (s : State) (n quota : Nat) (r : Run) (origin : Nat) :
    ((s.madeSlice n quota r origin).slot (0x40 + n)).key.isSome = true := by
  obtain ⟨-, -, hkey⟩ := (s.setSlc n ⟨.created, [], quota, some r⟩).makeRoot_spec (0x40 + n) n
  have hsame : (s.madeSlice n quota r origin).ks = ((s.setSlc n ⟨.created, [], quota, some r⟩).makeRoot (0x40 + n) n).ks := by
    simp [State.madeSlice]
  rwa [State.slot, hsame, ← State.slot]

theorem State.madeSlice_epoch (s : State) (n quota : Nat) (r : Run) (origin : Nat) :
    ((s.madeSlice n quota r origin).ctx n).epoch = nextEpoch (s.ctx n).epoch := by
  obtain ⟨-, hctxs, -⟩ := (s.setSlc n ⟨.created, [], quota, some r⟩).makeRoot_spec (0x40 + n) n
  have hevent (t : State) : (t.sliceEvent n 1 origin).ctxs = t.ctxs := by simp
  rw [State.madeSlice, State.ctx_of_ctxs (hevent _), State.advance_one_ctx, State.ctx_of_ctxs hctxs]
  rfl

/-- SLICE.CREATE of a slice that passes its checks and finds a place. -/
theorem doSliceCreate_places {t : State} {rq : Rq} {r : Run} (hlen : rq.body.length = 16) (hi : t.ph.issuing = true)
    (hr : t.pow.drbgStop = false) (hsizes : firstFail (sizeChecks rq) = none) (hfree : (t.slc (at8 rq.body 0)).st = .free)
    (hslot : (t.slot (0x40 + at8 rq.body 0)).retired = false)
    (hquota : t.quotaSum (at8 rq.body 0) + quotaOf rq.body + t.retiredSlots ≤ 16128)
    (hplace : t.place (dataOf rq.body) (ft0Of rq.body) (ft1Of rq.body) = .ok r) :
    doSliceCreate rq t = .done .ok 0 (be 3 r.base ++ be 3 r.words ++ be 3 (nextEpoch (t.ctx (at8 rq.body 0)).epoch))
      (t.madeSlice (at8 rq.body 0) (quotaOf rq.body) r rq.route.origin) := by
  have hchecks : firstFail (needLength rq 16 ++ t.needStamp ++ t.needRandom ++ sizeChecks rq ++
      t.stateIn (at8 rq.body 0) [.free] ++ [((t.slot (0x40 + at8 rq.body 0)).retired, .policy, 0x005C)] ++
      t.quotaCheck (at8 rq.body 0) (quotaOf rq.body)) = none := by
    simp [hlen, needStamp_issuing hi, hr, hsizes, State.stateIn, hfree, hslot, State.firstFail_quotaCheck hquota]
  have hreply := State.runReply_run (s := t.madeSlice (at8 rq.body 0) (quotaOf rq.body) r rq.route.origin) (r := r)
    (n := at8 rq.body 0) (by rw [State.madeSlice_slc, if_pos rfl])
  rw [State.madeSlice_epoch] at hreply
  rw [← hreply, doSliceCreate, guard_none hchecks, hplace]
  rfl

/-! ### SLICE.QUOTA (R199, R200) -/

/-- SLICE.QUOTA that passes its checks sets the quota alone when no size changes. -/
theorem doSliceQuota_sameSizes {t : State} {rq : Rq} {r : Run} (hlen : rq.body.length = 16)
    (hsizes : firstFail (sizeChecks rq) = none) (hrun : (t.slc (at8 rq.body 0)).run = some r)
    (hshrink : firstFail (t.shrinkChecks (at8 rq.body 0) rq.body r) = none) (hd : dataOf rq.body = r.data.len)
    (h0 : ft0Of rq.body = areaLen r.ft0) (h1 : ft1Of rq.body = areaLen r.ft1) :
    doSliceQuota rq t = .done .ok 0 (be 3 r.base ++ be 3 r.words ++ be 3 (t.ctx (at8 rq.body 0)).epoch)
      (t.setSlc (at8 rq.body 0) { t.slc (at8 rq.body 0) with quota := quotaOf rq.body }) := by
  have hchecks : firstFail (needLength rq 16 ++ sizeChecks rq) = none := by simp [hlen, hsizes]
  simp only [doSliceQuota, guard_none hchecks, hrun, guard_none hshrink, hd, h0, h1]
  simp [State.runReply_run]

/-- A run put in place of another changes the slice's run; words given up are zeroed beside it (R186). -/
theorem State.setRun_slc (s : State) (n : Nat) (old new : Run) :
    (s.setRun n old new).slc n = { s.slc n with run := some new } := State.setSlc_slc_same _ _ _

/-- The state that SLICE.QUOTA leaves when sizes change. -/
def State.resized (s : State) (n quota : Nat) (old new : Run) : State :=
  (s.setRun n old new).setSlc n { (s.setRun n old new).slc n with quota := quota }

theorem State.resized_spec (s : State) (n quota : Nat) (old new : Run) :
    (s.resized n quota old new).slc n = { s.slc n with run := some new, quota := quota } ∧
    (s.resized n quota old new).ks = s.ks ∧ (s.resized n quota old new).ctxs = s.ctxs := by
  obtain ⟨hks, hctxs⟩ : (s.setRun n old new).ks = s.ks ∧ (s.setRun n old new).ctxs = s.ctxs := by simp
  exact ⟨by rw [State.resized, State.setSlc_slc_same, State.setRun_slc], hks, hctxs⟩

/-- SLICE.QUOTA that passes its checks puts a run of the new sizes in place of the old. -/
theorem doSliceQuota_resizes {t : State} {rq : Rq} {r r' : Run} (hlen : rq.body.length = 16)
    (hsizes : firstFail (sizeChecks rq) = none) (hrun : (t.slc (at8 rq.body 0)).run = some r)
    (hshrink : firstFail (t.shrinkChecks (at8 rq.body 0) rq.body r) = none)
    (hnew : dataOf rq.body ≠ r.data.len ∨ ft0Of rq.body ≠ areaLen r.ft0 ∨ ft1Of rq.body ≠ areaLen r.ft1)
    (husers : t.ruleUsers (at8 rq.body 0) = false)
    (hresize : t.resize r (dataOf rq.body) (ft0Of rq.body) (ft1Of rq.body) = .ok r') :
    doSliceQuota rq t = .done .ok 0 (be 3 r'.base ++ be 3 r'.words ++ be 3 (t.ctx (at8 rq.body 0)).epoch)
      (t.resized (at8 rq.body 0) (quotaOf rq.body) r r') := by
  have hchecks : firstFail (needLength rq 16 ++ sizeChecks rq) = none := by simp [hlen, hsizes]
  have hchanged : (decide (dataOf rq.body = r.data.len) && decide (ft0Of rq.body = areaLen r.ft0) &&
      decide (ft1Of rq.body = areaLen r.ft1)) = false := by
    rcases hnew with h | h | h <;> simp [h]
  obtain ⟨hslc, -, hctxs⟩ := t.resized_spec (at8 rq.body 0) (quotaOf rq.body) r r'
  have hreply := State.runReply_run (s := t.resized (at8 rq.body 0) (quotaOf rq.body) r r') (n := at8 rq.body 0) (r := r')
    (by rw [hslc])
  rw [State.ctx_of_ctxs hctxs] at hreply
  simp only [doSliceQuota, guard_none hchecks, hrun, guard_none hshrink, hchanged, husers, hresize, Bool.false_eq_true, if_false]
  rw [← hreply, State.resized]

/-- Settles O21: SLICE.CREATE by `doSliceCreate_places`, SLICE.QUOTA by `doSliceQuota_sameSizes` and `doSliceQuota_resizes`,
placed runs by `State.place_spec`. -/
theorem slicesAreMadeAndResized : Obligations.SlicesAreMadeAndResized := by
  refine ⟨?create, ?quota, fun s d f0 f1 r h => State.place_spec h⟩
  case create =>
    intro s t v x rt arr p r b n rq h hp hi hr hsizes hfree hslot hquota hplace
    refine ⟨t.madeSlice n (quotaOf b) r rq.route.origin, completes rfl h rfl (doSliceCreate_places (by simp [hp]) hi hr hsizes
      hfree hslot hquota hplace), by rw [State.madeSlice_slc, if_pos rfl], fun m hm => by rw [State.madeSlice_slc, if_neg hm],
      State.madeSlice_slot _ _ _ _ _, State.madeSlice_epoch _ _ _ _ _⟩
  case quota =>
    intro s t v x rt arr p r b n rq h hp hsizes hrun hshrink
    have hlen : rq.body.length = 16 := by simp [rq, hp]
    refine ⟨fun hd h0 h1 => completes rfl h rfl (doSliceQuota_sameSizes hlen hsizes hrun hshrink hd h0 h1),
      fun r' hnew husers hresize => ?_⟩
    exact ⟨t.resized n (quotaOf b) r r', completes rfl h rfl (doSliceQuota_resizes hlen hsizes hrun hshrink hnew husers hresize),
      t.resized_spec n (quotaOf b) r r'⟩

end Sys2Proof.Machine
end

section
/-! PROOFS. BN commands (R188, R189, R426-R428). The clause of R189 speaks of whatever request has the turn of the multiplier, and
a KEY.GEN that waits for a key cache entry writes no word. The proof has to say why no state `u` with the same `u.pump` holds
the zeros that the clause asks for. -/

namespace Sys2Proof.Machine

/-! ### Traces of held requests -/

/-- A reply has gone out, or waits to. -/
def State.Replied (s : State) : Prop :=
  s.out ≠ [] ∨ (∃ i, (s.ctx i).outbox ≠ []) ∨ s.vpA.ready ≠ none ∨ s.vpB.ready ≠ none

theorem State.deliver_replied (s : State) (rt : Route) (reply : List Byte) (irq credit : Bool) :
    (s.deliver rt reply irq credit).Replied := by
  cases rt with
  | ring o i a cap px => exact .inr (.inl ⟨ownerIdx o, by simp [State.deliver]⟩)
  | push n w => exact .inr (.inl ⟨n, by simp [State.deliver]⟩)
  | console => exact .inl (by simp [State.deliver, State.emit])
  | vital p alive =>
    cases p with
    | a => exact .inr (.inr (.inl (by simp [State.deliver, State.setVp])))
    | b => exact .inr (.inr (.inr (by simp [State.deliver, State.setVp])))

theorem State.answerAgain_replied {s : State} (h : s.Replied) (i : Nat) (hdr digest reply : List Byte) (credit : Bool) :
    (s.answerAgain i hdr digest reply credit).Replied := by
  unfold State.answerAgain
  exact List.foldlRecOn _ _ h (fun u _ l _ => u.deliver_replied _ _ _ _)

theorem State.complete_replied (s : State) (rq : Rq) (ev : Bool) (st : Status) (d : Nat) (b : List Byte) :
    (s.complete rq ev st d b).Replied := by
  unfold State.complete
  split
  · exact State.deliver_replied _ _ _ _ _
  · exact State.answerAgain_replied (State.deliver_replied _ _ _ _ _) _ _ _ _ _

/-- A KEY.GEN whose LENGTH is not 16 (R340). -/
def Rq.Misfit (rq : Rq) : Prop := rq.op = .keyGen ∧ rq.body.length ≠ 16

/-- A payload of another length than its command's fails the first check (R636). -/
theorem guard_wrongLength {s : State} {rq : Rq} {n : Nat} (h : rq.body.length ≠ n) (cs : List (Bool × Status × Nat)) (k : Act) :
    Act.guard s (needLength rq n ++ cs) k = .refuse s .length 0 := by
  have hfail : firstFail (needLength rq n ++ cs) = some (.length, 0) := by
    rw [needLength, bne_iff_ne.mpr h]
    rfl
  rw [Act.guard, hfail]

/-- Run again, it is refused: it never stays in flight by running. -/
theorem handle_misfit {rq : Rq} (h : rq.Misfit) (s : State) : handle rq s = .refuse s .length 0 := by
  obtain ⟨hop, hlen⟩ := h
  simp only [handle, hop, doKeyGen, List.append_assoc]
  exact guard_wrongLength hlen _ _

/-- A held request that is looked at again keeps its place, is answered, or stays in flight and is no misfit. -/
theorem State.retry_cases (s : State) (l : Live) :
    s.retry l = s ∨ (s.retry l).Replied ∨ ∃ m ∈ (s.retry l).live, ¬m.rq.Misfit := by
  unfold State.retry
  split
  case h_2 => exact .inl rfl
  case h_1 =>
    split
    · exact .inl rfl
    · split
      · exact .inr (.inl (State.complete_replied _ _ _ _ _ _))
      · next j t hrun =>
        have hparked : ⟨l.rq.after (t.evr.next != s.evr.next) j, j⟩ ∈ (t.putBack (s.live.findIdx (· == l))
            ⟨l.rq.after (t.evr.next != s.evr.next) j, j⟩).live := by simp [State.putBack]
        refine .inr (.inr ⟨_, hparked, fun (hm : l.rq.Misfit) => ?_⟩)
        rw [handle_misfit hm] at hrun
        cases hrun

theorem State.retries_cases (s : State) (ls : List Live) :
    ls.foldl State.retry s = s ∨ (ls.foldl State.retry s).Replied ∨ ∃ m ∈ (ls.foldl State.retry s).live, ¬m.rq.Misfit := by
  induction ls using List.reverseRecOn with
  | nil => exact .inl rfl
  | append_singleton ls l ih =>
    rw [List.foldl_append, List.foldl_cons, List.foldl_nil]
    rcases (ls.foldl State.retry s).retry_cases l with hsame | htrace
    · rwa [hsame]
    · exact .inr htrace

theorem State.schedule_replied (s : State) : s.schedule.Replied ↔ s.Replied := by simp [State.Replied, State.ctx]

theorem State.schedule_wmRead (s : State) (a : Nat) : s.schedule.wmRead a = s.wmRead a :=
  State.wmRead_congr (by simp) (by simp) a

/-- After a pass over the held requests that leaves no reply and no request but misfits, none of them went on. -/
theorem State.pump_of_quiet {u : State} (hr : ¬u.pump.Replied) (hl : ∀ m ∈ u.pump.live, m.rq.Misfit) :
    u.pump = u.schedule := by
  have hlive : (u.live.foldl State.retry u).live = u.pump.live := by rw [State.pump]; simp only [State.schedule_frame]
  rcases u.retries_cases u.live with hsame | hreplied | ⟨m, hm, hfit⟩
  · rw [State.pump, hsame]
  · exact absurd ((State.schedule_replied _).mpr hreplied) hr
  · exact absurd (hl m (by rwa [← hlive])) hfit

/-! ### The last boundary of a command -/

/-- The state in which a command whose last multiplication is over comes to its end: accumulator and scratch memory are clear, the
turn is passed on, and the request is in flight no more (R423, R424, R443). -/
def State.turned (s : State) (i : Nat) (l : Live) : State :=
  { (s.mapMult (fun m => { m with turn := (i + 1) % 65 })).cleanMult with live := s.live.erase l }

theorem State.takeLive_same {s : State} {l : Live} (h : l ∈ s.live) :
    s.takeLive (· == l) = some (l, { s with live := s.live.erase l }) := by
  obtain ⟨m, hm⟩ := Option.isSome_iff_exists.mp (List.find?_isSome (p := (· == l)).mpr ⟨l, h, beq_self_eq_true l⟩)
  obtain rfl : m = l := eq_of_beq (List.find?_some hm :)
  rw [State.takeLive, hm]

theorem State.boundary_last {s : State} {i o t : Nat} {msg sig : List Byte} {l : Live} (hc : s.multCtx = some i)
    (hf : s.live.find? (Live.onMult i) = some l) (hj : l.job = .mult o 1 t msg sig) (last : Bool) :
    s.boundary last none = (endMult l.rq t msg sig (s.turned i l)).settle s.evr.next l.rq := by
  have htake := State.takeLive_same (s := (s.mapMult (fun m => { m with turn := (i + 1) % 65 })).cleanMult)
    (List.mem_of_find?_eq_some hf)
  simp only [State.boundary, hc, hf, hj, State.finish, htake]
  rfl

/-- A key cache whose 1,024 entries are all in use takes no more (R339). -/
theorem State.cacheReady_of_busy {s : State} (hlen : s.ks.cache.length = 1024) (hbusy : ∀ k ∈ s.ks.cache, s.keyBusy k = true) :
    s.cacheReady = false := by
  have hroom : s.cacheRoom ≤ 1024 := by unfold State.cacheRoom; omega
  simpa [State.cacheReady, hlen, hroom] using hbusy

/-! ### The counterexample -/

/-- References to one word each, 0x100, read as those of a BN command. -/
def wordRefs : List Byte := (List.replicate 4 (be 3 0x100 ++ be 2 1 ++ [0#8])).flatten

/-- A KEY.GEN of slice 0 with that payload, whose last boundary comes. -/
def keyGenLive : Live :=
  ⟨⟨.ring (.slice 0) 0 0 0 0, [], .keyGen, wordRefs, [], ⟨[], false, false, 0, [], false, [], none⟩, 0, 0, 0, false, false, 0,
    none⟩, .mult 0 1 0 [] []⟩

/-- A GREEN record that uses the key in slot 0. -/
def greenRec : Rec where
  ch := 0
  seq := 0
  slice := 0
  st := .green
  body := []
  entry := []
  arrC := 0
  arrSlot := 0
  passed := false
  target := 0
  rolls := 0
  table := 0
  data := []
  len := 0
  lane := 0
  lane2 := 0
  delay := 0

/-- The delivered module with that KEY.GEN in flight, a key cache in full use, and a word that is not zero at 0x100. -/
def keyGenTurn : State :=
  { State.reset with
    live := [keyGenLive], recs := [greenRec], wm := ⟨[(0x100, 1#40)], []⟩
    ks := { KeyStore.init with cache := List.replicate 1024 0 } }

theorem keyGenLive_misfit : keyGenLive.rq.Misfit := ⟨rfl, by decide⟩

/-- KEY.GEN finds every entry of the key cache in use, by the GREEN record, and waits (R339). -/
theorem endMult_keyGenLive {s : State} (hks : s.ks = keyGenTurn.ks) (hrecs : s.recs = keyGenTurn.recs) :
    endMult keyGenLive.rq 0 [] [] s = .park (.mult 0 0 0 [] []) s := by
  have hfull : s.cacheReady = false := by
    refine State.cacheReady_of_busy (by rw [hks]; exact List.length_replicate) fun k hk => ?_
    rw [hks] at hk
    have hgreen : keyGenTurn.recs.any (fun r => (r.st == .green || r.st == .ripe) && entryKey r.entry == 0) = true := by decide
    rw [List.eq_of_mem_replicate hk, State.keyBusy, hrecs, hgreen, Bool.or_true]
  rw [show endMult keyGenLive.rq 0 [] [] s = endKeyGen keyGenLive.rq 0 s from rfl, endKeyGen, Act.needEntry, hfull]
  rfl

/-- The boundary leaves the KEY.GEN in flight, and nothing else but the turn is changed. -/
theorem keyGenTurn_boundary : keyGenTurn.boundary false none =
    { keyGenTurn with live := [⟨keyGenLive.rq, .mult 0 0 0 [] []⟩], mult := { Mult.init with turn := 1 } } := by
  rw [State.boundary_last (i := 0) (l := keyGenLive) (by decide) (by decide) rfl,
    endMult_keyGenLive (s := keyGenTurn.turned 0 keyGenLive) rfl rfl, settle_park]
  rfl

/-- A state from which the same pass over the held requests comes reads the words of `keyGenTurn`: that pass let nothing go on, and
neither it nor the boundary wrote a word. -/
theorem wmRead_of_pump_keyGenTurn {u : State} (h : (keyGenTurn.boundary false none).pump = u.pump) (a : Nat) :
    u.wmRead a = keyGenTurn.wmRead a := by
  have hpump : u.pump = (keyGenTurn.boundary false none).schedule := by rw [← h, keyGenTurn_boundary]; rfl
  have hquiet : ¬u.pump.Replied := by
    rw [hpump, State.schedule_replied, keyGenTurn_boundary]
    rintro (h | ⟨i, h⟩ | h | h) <;> exact h rfl
  have hfits : ∀ m ∈ u.pump.live, m.rq.Misfit := by
    rw [hpump, keyGenTurn_boundary]
    simpa using keyGenLive_misfit
  calc u.wmRead a = u.schedule.wmRead a := (State.schedule_wmRead u a).symm
    _ = (keyGenTurn.boundary false none).schedule.wmRead a := by rw [← State.pump_of_quiet hquiet hfits, hpump]
    _ = (keyGenTurn.boundary false none).wmRead a := State.schedule_wmRead _ a
    _ = keyGenTurn.wmRead a := by rw [keyGenTurn_boundary]; exact State.wmRead_congr rfl rfl a

/-- Refutes O37: the clause of R189 asks nothing of the command, and the last boundary of a KEY.GEN over a body that reads as
references a slice may not use writes no zeros over the word at 0x100. -/
theorem not_bnCommandsCompute : ¬Obligations.BnCommandsCompute := by
  intro h
  obtain ⟨hrefused, -⟩ := h.2 keyGenTurn 0 0 keyGenLive (by decide) (by decide) rfl (by decide) (by decide) (by decide) rfl
    (by decide)
  obtain ⟨u, hexec, hzero, -⟩ := hrefused ⟨.sequencer, 0, .r, ⟨0x100, 1⟩⟩ (by decide)
  have hread := hzero 0x100 (by decide) (by decide)
  rw [wmRead_of_pump_keyGenTurn (Host.Outcome.next.inj hexec)] at hread
  revert hread
  decide

end Sys2Proof.Machine
end

section
/-! PROOFS. Slice management (chapter 06): the commands on the state of a slice, the completion of SLICE.QUIESCE and SLICE.RESET,
and what SLICE.REMOVE leaves. -/

namespace Sys2Proof.Machine

theorem State.slc_of_slices {s t : State} (h : s.slices = t.slices) (j : Nat) : s.slc j = t.slc j := by
  rw [State.slc, State.slc, h]

theorem State.slot_of_slots {s t : State} (h : s.ks.slots = t.ks.slots) (k : Nat) : s.slot k = t.slot k := by
  rw [State.slot, State.slot, h]

/-! ### Checks of the slice that a command names (R197) -/

/-- A tenant that names its own slice, and the manager, pass the check of the slice number. -/
theorem firstFail_sliceArg {rq : Rq} {n : Nat} (hb : at8 rq.body 0 = n) (hn : n < 64)
    (ht : ∀ m, rq.route.tenant = some m → m = n) : firstFail (sliceArg rq) = none := by
  have hrange : decide (63 < n) = false := decide_eq_false (by omega)
  cases hr : rq.route.tenant with
  | none => simp [sliceArg, hr, hb, hrange]
  | some m => simp [sliceArg, hr, hb, hrange, ht m hr]

@[simp] theorem State.firstFail_stateIn {s : State} {n : Nat} {ok : List SlSt} :
    firstFail (s.stateIn n ok) = none ↔ (s.slc n).st ∈ ok := by
  simp [State.stateIn]

/-! ### SLICE.BIND, RESUME, QUIESCE, RESET, REMOVE and STATUS (R201-R207) -/

section
variable {t : State} {rq : Rq} {n : Nat} (hb : at8 rq.body 0 = n) (hn : n < 64)
  (ht : ∀ m, rq.route.tenant = some m → m = n)
include hb hn ht

theorem doSliceBind_binds (hlen : rq.body.length = 18) (h1 : 1 ≤ at8 rq.body 1) (h4 : at8 rq.body 1 ≤ 4)
    (hfields : ∀ i, i < 4 → bindField rq.body i < 2 ^ 20 ∧ (at8 rq.body 1 ≤ i → bindField rq.body i = 0))
    (hst : (t.slc n).st = .created ∨ (t.slc n).st = .quiesced) (hfree : ∀ q ∈ bindPasids rq.body, t.pasidTaken n q = false) :
    doSliceBind rq t = .done .ok 0 [] (t.setSlc n { t.slc n with
      pasids := bindPasids rq.body, st := if (t.slc n).st = .created then .active else .quiesced }) := by
  have hform : (List.range 4).any (fun i => decide (2 ^ 20 ≤ bindField rq.body i) ||
      (decide (at8 rq.body 1 ≤ i) && bindField rq.body i != 0)) = false := by
    rw [List.any_eq_false]
    intro i hi
    obtain ⟨hlt, hzero⟩ := hfields i (List.mem_range.mp hi)
    simp only [decide_eq_false (Nat.not_le.mpr hlt), Bool.false_or, Bool.and_eq_true, decide_eq_true_eq, bne_iff_ne, not_and,
      not_not]
    exact hzero
  have hpasids : (bindPasids rq.body).any (t.pasidTaken n) = false := by simpa using hfree
  have hchecks : firstFail ([(rq.body.length != 18 || decide (at8 rq.body 1 < 1) || decide (4 < at8 rq.body 1), .length, 0),
      ((List.range 4).any (fun i => decide (2 ^ 20 ≤ bindField rq.body i) ||
        (decide (at8 rq.body 1 ≤ i) && bindField rq.body i != 0)), .unsupported, 0)] ++ sliceArg rq ++
      t.stateIn n [.created, .quiesced] ++ [((bindPasids rq.body).any (t.pasidTaken n), .policy, 0x0054)]) = none := by
    have hk1 : ¬at8 rq.body 1 < 1 := by omega
    have hk4 : ¬4 < at8 rq.body 1 := by omega
    simp only [hform, hpasids, firstFail_append_none, firstFail_cons_none, firstFail_nil, firstFail_sliceArg hb hn ht,
      State.firstFail_stateIn, hlen]
    simpa [hk1, hk4] using hst
  have hstate : (if (t.slc n).st == .created then SlSt.active else (t.slc n).st) =
      if (t.slc n).st = .created then .active else .quiesced := by
    rcases hst with h | h <;> simp [h]
  rw [← hstate]
  simp only [doSliceBind, hb]
  exact guard_none hchecks

theorem doSliceResume_resumes (hlen : rq.body.length = 1) (hst : (t.slc n).st = .quiesced) :
    doSliceResume rq t = .done .ok 0 [] (t.setSlc n { t.slc n with st := .active }) := by
  simp only [doSliceResume, hb]
  exact guard_none (by simp [hlen, firstFail_sliceArg hb hn ht, hst])

theorem doSliceQuiesce_quiesced (hlen : rq.body.length = 1) (hst : (t.slc n).st = .quiesced) :
    doSliceQuiesce rq t = .done .ok 0 [] t := by
  simp only [doSliceQuiesce, hb, hst]
  exact guard_none (by simp [hlen, firstFail_sliceArg hb hn ht, hst])

theorem doSliceQuiesce_waits (hlen : rq.body.length = 1) (hst : (t.slc n).st = .active ∨ (t.slc n).st = .quiescing) :
    doSliceQuiesce rq t = .park (.quiesce n) (t.setSlc n { t.slc n with st := .quiescing }) := by
  have hchecks : firstFail (needLength rq 1 ++ sliceArg rq ++ t.stateIn n [.active, .quiescing, .quiesced]) = none := by
    rcases hst with h | h <;> simp [hlen, firstFail_sliceArg hb hn ht, h]
  simp only [doSliceQuiesce, hb, guard_none hchecks]
  rcases hst with h | h <;> simp only [h]

theorem doSliceReset_waits (hlen : rq.body.length = 1) (he : (t.slc n).st ≠ .emigrating) (hi : (t.slc n).st ≠ .immigrating) :
    doSliceReset rq t = .park (.sliceReset n) t := by
  simp only [doSliceReset, hb]
  exact guard_none (by simp [hlen, firstFail_sliceArg hb hn ht, he, hi])

theorem doSliceRemove_removes (hlen : rq.body.length = 1) (hst : (t.slc n).st = .created ∨ (t.slc n).st = .quiesced) :
    doSliceRemove rq t = .done .ok 0 [] (t.removeSlice n rq.route.origin) := by
  simp only [doSliceRemove, hb]
  exact guard_none (by simpa [hlen, firstFail_sliceArg hb hn ht] using hst)

theorem doSliceStatus_reports (hlen : rq.body.length = 1) : doSliceStatus rq t = .done .ok 0 (t.slicePayload n) t := by
  simp only [doSliceStatus, hb]
  exact guard_none (by simp [hlen, firstFail_sliceArg hb hn ht])

end

/-! ### QUIESCE_COMPLETE (R203) -/

/-- Only repeats that wait for an original leave with its reply; every other request stays in flight. -/
theorem State.complete_live_filter {q : Live → Bool} (hq : ∀ l, q l = true → l.job ≠ .again) (s : State) (rq : Rq) (ev : Bool)
    (st : Status) (d : Nat) (b : List Byte) : (s.complete rq ev st d b).live.filter q = s.live.filter q := by
  unfold State.complete
  split
  · simp
  · have hagain (t : State) (i : Nat) (hdr digest reply : List Byte) (credit : Bool) :
        (t.answerAgain i hdr digest reply credit).live.filter q = t.live.filter q := by
      unfold State.answerAgain
      dsimp only
      rw [State.foldl_live (by simp), List.filter_filter]
      refine List.filter_congr fun l _ => ?_
      by_cases hl : q l = true
      · simp [hq l hl]
      · simp [Bool.eq_false_iff.mpr hl]
    rw [hagain]
    simp

/-- A SLICE.QUIESCE of slice `n` that waits. -/
def Live.quiesces (n : Nat) (l : Live) : Bool := l.job == .quiesce n

theorem State.endQuiesce_none_left (s : State) (n : Nat) : ∀ l ∈ (s.endQuiesce n).live, l.job ≠ .quiesce n := by
  have hfold : ∀ (ls : List Live) (s : State), s.live.filter (Live.quiesces n) = ls →
      (ls.foldl (fun s l => { s with live := s.live.erase l }.complete l.rq false .ok 0 []) s).live.filter
        (Live.quiesces n) = [] := by
    intro ls
    induction ls with
    | nil => exact fun s h => h
    | cons l ls ih =>
      intro s h
      refine ih _ ?_
      rw [State.complete_live_filter fun m hm => by
        intro hagain
        simp [Live.quiesces, hagain] at hm]
      exact (List.erase_filter ..).symm.trans (by rw [h, List.erase_cons_head])
  intro l hl hjob
  have hnone := List.filter_eq_nil_iff.mp (hfold _ s rfl) l hl
  simp [Live.quiesces, hjob] at hnone

theorem exec_quiesceComplete_quiesces {s : State} {n : Nat} (hst : (s.slc n).st = .quiescing) (hbusy : s.sliceBusy n = false)
    (hw : (s.ctx n).written = true) : exec (.quiesceComplete n) s =
      .next ((s.setSlc n { s.slc n with st := .quiesced }).endQuiesce n) := by
  simp [exec, execQuiesceComplete, hst, hbusy, hw]

/-! ### SLICE_RESET_COMPLETE (R205) -/

theorem exec_sliceResetComplete_resets {s w : State} {n : Nat} {l : Live} (hst : (s.slc n).st ≠ .quiescing)
    (hbusy : s.sliceBusy n = false) (hw : (s.ctx n).written = true) (hd : (s.ctx n).drained = true)
    (htake : s.takeLive (fun l => l.job == .sliceReset n) = some (l, w)) :
    exec (.sliceResetComplete n) s = .next ((w.resetSlice n l.rq.route.origin).complete l.rq
      ((w.resetSlice n l.rq.route.origin).evr.next != s.evr.next) .ok 0 []) := by
  simp [exec, execSliceResetComplete, hst, hbusy, hw, hd, State.finish, htake]

/-- Settles O22: the commands by what each does once its checks pass, the completions by `State.endQuiesce_none_left` and
`exec_sliceResetComplete_resets`. -/
theorem sliceCommandsTakeEffect : Obligations.SliceCommandsTakeEffect := by
  refine ⟨?commands, fun s n hn => ⟨fun hst hbusy hw => ?quiesced, fun l w hst hbusy hw hd htake =>
    exec_sliceResetComplete_resets hst hbusy hw hd htake⟩⟩
  case commands =>
    intro s t v x rt arr p b n hn ht
    have hlen {k : Nat} (hp : p.length = 16 + k) : (p.drop 16).length = k := by simp [hp]
    refine ⟨fun h hp h1 h4 hf hst hfree => ?_, fun h hp hst => ?_, fun h hp hst => ?_, fun h hp hst => ?_,
      fun h hp he hi => ?_, fun h hp hst => ?_, fun h hp => ?_⟩
    · exact completes rfl h rfl (doSliceBind_binds rfl hn ht (hlen hp) h1 h4 hf hst hfree)
    · exact completes rfl h rfl (doSliceResume_resumes rfl hn ht (hlen hp) hst)
    · exact completes rfl h rfl (doSliceQuiesce_quiesced rfl hn ht (hlen hp) hst)
    · exact staysInFlight rfl h rfl (doSliceQuiesce_waits rfl hn ht (hlen hp) hst)
    · exact staysInFlight rfl h rfl (doSliceReset_waits rfl hn ht (hlen hp) he hi)
    · exact completes rfl h rfl (doSliceRemove_removes rfl hn ht (hlen hp) hst)
    · exact completes rfl h rfl (doSliceStatus_reports rfl hn ht (hlen hp))
  case quiesced =>
    refine ⟨_, exec_quiesceComplete_quiesces hst hbusy hw, ?_, State.endQuiesce_none_left _ n, by simp, by simp⟩
    rw [State.slc_of_slices (t := s.setSlc n { s.slc n with st := .quiesced }) (by simp), State.setSlc_slc_same]

/-! ### SLICE.REMOVE (R206) -/

theorem Tbl.get_of_absent {α : Type} {d : α} {m : Tbl α} {k : Nat} (h : ∀ e ∈ m, e.1 ≠ k) : m.get d k = d := by
  induction m with
  | nil => rfl
  | cons e m ih =>
    obtain ⟨i, v⟩ := e
    rw [Tbl.get, if_neg (h (i, v) List.mem_cons_self), ih fun e he => h e (List.mem_cons_of_mem _ he)]

/-- An index that reads otherwise than an unlisted one is listed with what it reads. -/
theorem Tbl.mem_of_get_ne {α : Type} {d : α} {m : Tbl α} {k : Nat} (h : m.get d k ≠ d) : (k, m.get d k) ∈ m := by
  induction m with
  | nil => exact absurd rfl h
  | cons e m ih =>
    obtain ⟨i, v⟩ := e
    by_cases hi : i = k
    · simp [Tbl.get, hi]
    · rw [Tbl.get, if_neg hi] at h ⊢
      exact List.mem_cons_of_mem _ (ih h)

/-- In canonical form an entry is what its index reads as. -/
theorem Tbl.get_of_mem {α : Type} {d : α} {m : Tbl α} {k : Nat} {v : α} (hm : m.rising = true) (h : (k, v) ∈ m) :
    m.get d k = v := by
  induction m with
  | nil => cases h
  | cons e m ih =>
    obtain ⟨i, w⟩ := e
    obtain ⟨hlt, hrising⟩ := Tbl.rising_cons.mp hm
    rcases List.mem_cons.mp h with heq | hmem
    · cases heq
      rw [Tbl.get, if_pos rfl]
    · rw [Tbl.get, if_neg (Nat.ne_of_lt (hlt _ hmem)), ih hrising hmem]

/-- A slot that holds a key is listed among the keys. -/
theorem State.mem_keys {s : State} {k : Nat} {key : Key} (h : (s.slot k).key = some key) : (k, key) ∈ s.keys := by
  have hlisted : (k, s.slot k) ∈ s.ks.slots := Tbl.mem_of_get_ne (d := Slot.init) fun hinit => by
    rw [State.slot, hinit] at h
    cases h
  exact List.mem_filterMap.mpr ⟨_, hlisted, by simp [h]⟩

theorem State.slot_of_mem_keys {s : State} {k : Nat} {key : Key} (hs : s.ks.slots.wf .init = true) (h : (k, key) ∈ s.keys) :
    (s.slot k).key = some key := by
  obtain ⟨⟨i, v⟩, hmem, hkey⟩ := List.mem_filterMap.mp h
  obtain ⟨key', hv, heq⟩ := Option.map_eq_some_iff.mp hkey
  cases heq
  rw [State.slot, Tbl.get_of_mem (Bool.and_eq_true_iff.mp hs).1 hmem]
  exact hv

/-- What freeing a slot does to the table of slots: the slot holds no key. -/
theorem State.freeSlot_slots (s : State) (k origin : Nat) :
    ∃ v : Slot, v.key = none ∧ (s.freeSlot k origin).ks.slots = (s.setSlot k v).ks.slots := by
  have hslots : (State.endStreams { s with ks := { s.ks with cache := s.ks.cache.filter (· != k) } } k).ks.slots = s.ks.slots := by
    simp
  have hput (v : Slot) : (State.setSlot (State.endStreams { s with ks := { s.ks with cache := s.ks.cache.filter (· != k) } } k)
      k v).ks.slots = (s.setSlot k v).ks.slots := by
    rw [State.setSlot, State.setSlot, hslots]
  unfold State.freeSlot
  dsimp only
  split
  · refine ⟨{ s.slot k with key := none, retired := true }, rfl, ?_⟩
    rw [← hput]
    split <;> simp
  · refine ⟨{ s.slot k with key := none, gen := (s.slot k).gen + 1 }, rfl, ?_⟩
    rw [← hput]

theorem State.freeSlot_key (s : State) (k origin j : Nat) :
    ((s.freeSlot k origin).slot j).key = if j = k then none else (s.slot j).key := by
  obtain ⟨v, hv, hslots⟩ := s.freeSlot_slots k origin
  rw [State.slot_of_slots hslots, State.setSlot_slot]
  split
  · exact hv
  · rfl

/-- What freeing a slot does to the table of slices: a slot that retires takes one from the quota of the owner of its key
(R336). -/
theorem State.freeSlot_slices (s : State) (k origin : Nat) : (s.freeSlot k origin).slices = s.slices ∨
    ∃ key q, (s.slot k).key = some key ∧ (s.freeSlot k origin).slices =
      (s.setSlc key.attr.owner { s.slc key.attr.owner with quota := q }).slices := by
  unfold State.freeSlot
  dsimp only
  split
  · split
    · next howner =>
      cases hkey : (s.slot k).key with
      | none => simp [hkey] at howner
      | some key =>
        refine .inr ⟨key, (s.slc key.attr.owner).quota - 1, rfl, ?_⟩
        simp [State.setSlc, State.slc]
    · exact .inl (by simp)
  · exact .inl (by simp)

theorem State.freeSlot_slc {s : State} {k m : Nat} (h : ∀ key, (s.slot k).key = some key → key.attr.owner ≠ m) (origin : Nat) :
    (s.freeSlot k origin).slc m = s.slc m := by
  rcases s.freeSlot_slices k origin with hsame | ⟨key, q, hkey, hslices⟩
  · exact State.slc_of_slices hsame m
  · rw [State.slc_of_slices hslices, State.setSlc_slc_ne _ _ (Ne.symm (h key hkey))]

theorem State.freeSlot_run (s : State) (k origin m : Nat) : ((s.freeSlot k origin).slc m).run = (s.slc m).run := by
  rcases s.freeSlot_slices k origin with hsame | ⟨key, q, -, hslices⟩
  · rw [State.slc_of_slices hsame]
  · rw [State.slc_of_slices hslices, State.setSlc_slc]
    split
    · next hm => rw [hm]
    · rfl

theorem State.foldl_freeSlot_key (ks : List Nat) (s : State) (origin j : Nat) :
    ((ks.foldl (fun s k => s.freeSlot k origin) s).slot j).key = if j ∈ ks then none else (s.slot j).key := by
  induction ks generalizing s with
  | nil => simp
  | cons k ks ih =>
    rw [List.foldl_cons, ih, State.freeSlot_key]
    by_cases hk : j = k
    · simp [hk]
    · simp [hk]

theorem State.foldl_freeSlot_slc {ks : List Nat} {s : State} {m : Nat}
    (h : ∀ k ∈ ks, ∀ key, (s.slot k).key = some key → key.attr.owner ≠ m) (origin : Nat) :
    (ks.foldl (fun s k => s.freeSlot k origin) s).slc m = s.slc m := by
  induction ks generalizing s with
  | nil => rfl
  | cons k ks ih =>
    rw [List.foldl_cons, ih fun j hj key hkey => ?_, State.freeSlot_slc (h k List.mem_cons_self)]
    rw [State.freeSlot_key] at hkey
    split at hkey
    · cases hkey
    · exact h j (List.mem_cons_of_mem _ hj) key hkey

section
variable (s : State) (n origin : Nat)

/-- After the keys of an owner are destroyed, no slot holds one. -/
theorem State.dropKeys_owner {k : Nat} {key : Key} (h : ((s.dropKeys n origin).slot k).key = some key) : key.attr.owner ≠ n := by
  rw [State.dropKeys, State.foldl_freeSlot_key] at h
  split at h
  · cases h
  · next hk =>
    intro howner
    exact hk (List.mem_map.mpr ⟨(k, key), List.mem_filter.mpr ⟨State.mem_keys h, by simp [howner]⟩, rfl⟩)

theorem State.dropKeys_slc (hs : s.ks.slots.wf .init = true) {m : Nat} (hm : m ≠ n) : (s.dropKeys n origin).slc m = s.slc m := by
  refine State.foldl_freeSlot_slc (fun k hk key hkey => ?_) origin
  obtain ⟨⟨i, key'⟩, hmem, rfl⟩ := List.mem_map.mp hk
  obtain ⟨hkeys, howner⟩ := List.mem_filter.mp hmem
  rw [State.slot_of_mem_keys hs hkeys] at hkey
  cases hkey
  rw [beq_iff_eq.mp howner]
  exact Ne.symm hm

theorem State.dropKeys_run (m : Nat) : ((s.dropKeys n origin).slc m).run = (s.slc m).run :=
  foldl_keep (g := fun s => (State.slc s m).run) (fun s k => s.freeSlot_run k origin m) _ s

/-- SLICE.REMOVE makes the slice FREE; the others are as the destruction of its keys left them. -/
theorem State.removeSlice_slc (m : Nat) :
    (s.removeSlice n origin).slc m = if m = n then .init else (s.dropKeys n origin).slc m := by
  have hsame (u : State) : (((u.setSlc n .init).unassign n).sliceEvent n 3 origin).slices = (u.setSlc n .init).slices := by simp
  unfold State.removeSlice
  dsimp only
  rw [State.slc_of_slices (hsame _), State.setSlc_slc]
  refine if_congr Iff.rfl rfl (State.slc_of_slices ?_ m)
  split <;> simp

theorem State.removeSlice_slot (k : Nat) : (s.removeSlice n origin).slot k = (s.dropKeys n origin).slot k := by
  refine State.slot_of_slots ?_ k
  have hcurves : ((s.dropKeys n origin).ks.dropCurves n).slots = (s.dropKeys n origin).ks.slots := rfl
  unfold State.removeSlice
  dsimp only
  split <;> simp [hcurves]

/-- SLICE.REMOVE zero-fills the words of the run (R206). -/
theorem State.removeSlice_wm {r : Run} (h : (s.slc n).run = some r) :
    (s.removeSlice n origin).wm = (s.wmZero r.base r.words).wm := by
  have hwm (u : State) (hu : u.wm = s.wm) : (u.wmZero r.base r.words).wm = (s.wmZero r.base r.words).wm := by
    rw [State.wmZero, State.wmZero, hu]
  have hrun : (((s.dropKeys n origin).mapKs (fun k => k.dropCurves n)).slc n).run = some r := by
    rw [State.mapKs_slc_frame, State.dropKeys_run, h]
  simp only [State.removeSlice, hrun]
  rw [← hwm ((s.dropKeys n origin).mapKs (fun k => k.dropCurves n)) (by simp)]
  simp

theorem State.removeSlice_wmRead {r : Run} (h : (s.slc n).run = some r) {a : Nat} (hb : r.base ≤ a) (ha : a < r.base + r.words) :
    (s.removeSlice n origin).wmRead a = 0#40 := by
  unfold State.wmRead
  split
  · rfl
  · rw [State.removeSlice_wm s n origin h]
    refine Tbl.get_of_absent fun e he => ?_
    have hout := (List.mem_filter.mp he).2
    rintro rfl
    simp [hb, ha] at hout

end

/-- Settles O23: the keys of the slice go one by one, which leaves the other slices alone because, in canonical form, each slot
freed holds a key of this slice; its run is zero-filled. -/
theorem aRemovedSliceLeavesNothing : Obligations.ARemovedSliceLeavesNothing := by
  intro s n o r hs hr
  refine ⟨by rw [State.removeSlice_slc, if_pos rfl], fun k key hkey => ?_, fun a hb ha => s.removeSlice_wmRead n o hr hb ha,
    fun m hm => by rw [State.removeSlice_slc, if_neg hm, State.dropKeys_slc s n o hs.slots hm]⟩
  rw [State.removeSlice_slot] at hkey
  exact s.dropKeys_owner n o hkey

end Sys2Proof.Machine
end

section
/-! PROOFS. Binding entries (chapter 06): CHANNEL.INVALIDATE and CHANNEL.STATUS, the entry fetched on a miss, and the audit
sweep. -/

namespace Sys2Proof.Machine

theorem State.chan_of_chans {s t : State} (h : s.chans = t.chans) (j : Nat) : s.chan j = t.chan j := by
  rw [State.chan, State.chan, h]

/-! ### CHANNEL.INVALIDATE (R214-R216) -/

/-- An invalidation that names the table address in force drops the cached entries of its channels alone. -/
theorem State.mem_invalidate_cached {s : State} {addr : Nat} (h : s.table = some addr) (first count : Nat)
    (e : Nat × List Byte) : e ∈ (s.invalidate addr first count).cached ↔
      e ∈ s.cached ∧ ¬(first ≤ e.1 ∧ e.1 < first + count) := by
  unfold State.invalidate
  dsimp only
  rw [State.foldl_cached fun s e => by split <;> simp]
  simp only [h, bne_self_eq_false, Bool.false_or, List.mem_filter, ← Bool.decide_and, Bool.not_eq_true', decide_eq_false_iff_not]

theorem State.invalidate_table (s : State) (addr first count : Nat) : (s.invalidate addr first count).table = some addr :=
  State.foldl_table (fun s e => by dsimp only; split <;> simp) _ _

theorem State.greenIn_false {s : State} {first count : Nat}
    (h : ∀ r ∈ s.recs, r.st = .green → ¬(first ≤ r.ch ∧ r.ch < first + count)) : s.greenIn first count = false := by
  rw [State.greenIn, List.any_eq_false]
  intro r hr
  simpa using h r hr

theorem doChannelInvalidate_drops {t : State} {rq : Rq} (hlen : rq.body.length = 16) (hz : zeroAt rq.body 12 4 = true)
    (h1 : 1 ≤ fld rq.body 10 2) (ha : fld rq.body 0 8 % 4096 = 0) (hend : fld rq.body 8 2 + fld rq.body 10 2 ≤ 256)
    (hfirst : fld rq.body 8 2 ≤ 255) (ht : t.table = some (fld rq.body 0 8))
    (hg : t.greenIn (fld rq.body 8 2) (fld rq.body 10 2) = false) :
    doChannelInvalidate rq t = .done .ok 0 [] (t.invalidate (fld rq.body 0 8) (fld rq.body 8 2) (fld rq.body 10 2)) := by
  have hrange : (decide (fld rq.body 10 2 < 1) || decide (256 < fld rq.body 10 2) || decide (255 < fld rq.body 8 2) ||
      decide (256 < fld rq.body 8 2 + fld rq.body 10 2)) = false := by
    simp only [Bool.or_eq_false_iff, decide_eq_false_iff_not]
    omega
  have hchecks : firstFail (needLength rq 16 ++ needZero rq 12 4 ++
      [(decide (fld rq.body 10 2 < 1) || decide (256 < fld rq.body 10 2) || decide (255 < fld rq.body 8 2) ||
        decide (256 < fld rq.body 8 2 + fld rq.body 10 2), .length, 0), (fld rq.body 0 8 % 4096 != 0, .range, 0)]) = none := by
    simp only [firstFail_append_none, firstFail_cons_none, hrange]
    simp [hlen, hz, ha]
  simp only [doChannelInvalidate, guard_none hchecks, State.invalidated, if_pos ht, hg, Bool.false_eq_true, if_false]

/-- Checks that all pass, then one that fails. -/
theorem guard_fails {s : State} {a b : List (Bool × Status × Nat)} {c : Bool} {st : Status} {d : Nat} (ha : firstFail a = none)
    (hc : c = true) (k : Act) : Act.guard s (a ++ (c, st, d) :: b) k = .refuse s st d := by
  subst hc
  rw [Act.guard, firstFail_append_of_none ha]
  rfl

/-- A range that ends beyond channel 255 is no range of the layout (R636). -/
theorem doChannelInvalidate_refuses {t : State} {rq : Rq} (hlen : rq.body.length = 16) (hz : zeroAt rq.body 12 4 = true)
    (h : fld rq.body 10 2 < 1 ∨ 256 < fld rq.body 8 2 + fld rq.body 10 2) :
    doChannelInvalidate rq t = .refuse t .length 0 := by
  refine guard_fails (by simp [hlen, hz]) ?_ _
  rcases h with h | h <;> simp [h]

theorem exec_channelInvalidateComplete_takes {s w : State} {l : Live} (h : s.takeLive s.canInvalidate = some (l, w)) :
    exec .channelInvalidateComplete s = .next
      ((w.invalidate (fld l.rq.body 0 8) (fld l.rq.body 8 2) (fld l.rq.body 10 2)).complete l.rq false .ok 0 []).pump := by
  obtain ⟨-, -, hw⟩ := takeLive_some h
  have hevr : w.evr.next = s.evr.next := by rw [hw]
  simp [exec, execChannelInvalidateComplete, State.endInvalidate, State.finish, h, hevr]

/-! ### CHANNEL.STATUS (R221) -/

theorem doChannelStatus_reports {t : State} {rq : Rq} (hlen : rq.body.length = 2) (hn : fld rq.body 0 2 ≤ 255)
    (ht : ∀ m, rq.route.tenant = some m →
      (t.chan (fld rq.body 0 2)).entry ≠ [] ∧ entrySlice (t.chan (fld rq.body 0 2)).entry = m) :
    doChannelStatus rq t = .done .ok 0 (t.channelPayload (fld rq.body 0 2)) t := by
  have hrange : decide (255 < fld rq.body 0 2) = false := decide_eq_false (by omega)
  refine guard_none ?_
  cases hr : rq.route.tenant with
  | none => simp [hlen, hrange]
  | some m =>
    obtain ⟨hentry, hslice⟩ := ht m hr
    simp [hlen, hrange, hentry, hslice]

/-- Settles O24: the commands by what each does once its checks pass, the completion by
`exec_channelInvalidateComplete_takes`. -/
theorem channelCommandsTakeEffect : Obligations.ChannelCommandsTakeEffect := by
  refine ⟨?commands, fun s w l h => exec_channelInvalidateComplete_takes h⟩
  intro s t v x rt arr p b
  refine ⟨fun h hp hz h1 ha hend hfirst ht hg => ?drops, fun h hp hz hr => ?refuses, fun h hp hn ht => ?status⟩
  case drops =>
    refine ⟨_, completes rfl h rfl (doChannelInvalidate_drops (by simp [hp]) hz h1 ha hend hfirst ht (State.greenIn_false hg)),
      State.invalidate_table _ _ _ _, State.mem_invalidate_cached ht _ _, by simp⟩
  case refuses => exact refuses rfl h rfl (doChannelInvalidate_refuses (by simp [hp]) hz hr)
  case status => exact completes rfl h rfl (doChannelStatus_reports (by simp [hp]) hn ht)

/-! ### An entry fetched on a miss (R213) -/

/-- A read that returns all its bytes takes no free ones. -/
theorem State.readBytes_whole {s : State} {bs : List Byte} {n : Nat} (h : bs.length = n) : s.readBytes bs n = bs := by
  subst h
  simp [State.readBytes]

theorem State.readEntry_usable (s : State) (ch : Nat) (e : List Byte) : (s.readEntry ch).usable e = s.usable e := rfl

theorem State.readEntry_chan (s : State) (ch j : Nat) : (s.readEntry ch).chan j = s.chan j := rfl

/-- A usable entry of a channel that has not been evicted is taken into the cache. -/
theorem exec_bindingEntryFetch_caches {s : State} {ch : Nat} {e : List Byte} {l : Live} (he : e.length = 64)
    (hl : s.live.find? (Live.wantsEntry ch) = some l) (hd : s.hp.d3hot = false) (hs : s.dmaStop 64 = none)
    (hu : s.usable e = true) (hc : (s.chan ch).evicted = false) :
    exec (.bindingEntryFetch ch e) s = .next ((s.readEntry ch).cacheEntry ch e).pump := by
  have hcomes : (s.readEntry ch).entryComes ch l.rq.route.origin e = (s.readEntry ch).cacheEntry ch e := by
    simp [State.entryComes, State.readEntry_usable, State.readEntry_chan, hu, hc]
  simp [exec, execBindingEntryFetch, State.entryFetch, hl, hd, hs, State.readBytes_whole he, hcomes]

theorem Chan.take_entry (c : Chan) (e : List Byte) : (c.take e).entry = e := by
  unfold Chan.take
  split <;> rfl

/-- An entry taken into the cache is the one in force of its channel, and at most 63 others stay (R213). -/
theorem State.cacheEntry_spec (s : State) (ch : Nat) (e : List Byte) : (s.cacheEntry ch e).entryOf ch = some e ∧
    ((s.cacheEntry ch e).chan ch).entry = e ∧ (s.cacheEntry ch e).cached.length ≤ 64 := by
  have hothers : ∀ x ∈ (s.cached.filter (fun x => x.1 != ch)).drop ((s.cached.filter (fun x => x.1 != ch)).length - 63),
      x.1 ≠ ch := fun x hx => by simpa using (List.mem_filter.mp (List.mem_of_mem_drop hx)).2
  refine ⟨?_, ?_, ?_⟩
  · have hnone := List.find?_eq_none (p := fun (e : Nat × List Byte) => e.1 == ch).mpr fun x hx => by simpa using hothers x hx
    simp only [State.entryOf, State.cacheEntry, State.setChan_frame, List.find?_append, hnone]
    simp
  · rw [State.cacheEntry, State.setChan_chan_same]
    exact Chan.take_entry _ _
  · simp only [State.cacheEntry, State.setChan_frame, List.length_append, List.length_drop, List.length_singleton]
    omega

/-! ### The audit sweep (R217, R218) -/

@[simp] theorem State.windfall_bindings (s : State) (r : Rec) (st : Status) (d : Nat) (e : Bool) :
    (s.windfall r st d e).chans = s.chans ∧ (s.windfall r st d e).cached = s.cached := by
  unfold State.windfall
  dsimp only
  split
  · simp
  · next hl =>
    obtain ⟨-, -, rfl⟩ := takeLive_some hl
    simp

@[simp] theorem State.windfallAll_bindings (s : State) (p : Rec → Bool) (st : Status) (d : Nat) :
    (s.windfallAll p st d).chans = s.chans ∧ (s.windfallAll p st d).cached = s.cached := by
  simp [State.windfallAll]

theorem State.dropRecord_recs (s : State) (ch seq : Nat) :
    (s.dropRecord ch seq).recs = s.recs.filter (fun r => !(r.ch == ch && r.seq == seq)) := by
  simp [State.dropRecord]

/-- Records that are cleared are gone, and no record is added. -/
theorem State.mem_foldl_windfall {rs : List Rec} {s : State} {st : Status} {d : Nat} {q : Rec}
    (h : q ∈ (rs.foldl (fun s r => s.windfall r st d false) s).recs) : q ∈ s.recs ∧ q ∉ rs := by
  induction rs generalizing s with
  | nil => simpa using h
  | cons r rs ih =>
    rw [List.foldl_cons] at h
    obtain ⟨hmem, hrest⟩ := ih h
    obtain ⟨-, -, hrecs⟩ := s.windfall_frame r st d false
    rw [hrecs, State.dropRecord_recs, List.mem_filter] at hmem
    refine ⟨hmem.1, fun hq => ?_⟩
    rcases List.mem_cons.mp hq with rfl | hq
    · simp at hmem
    · exact hrest hq

theorem State.windfallAll_none_left {s : State} {p : Rec → Bool} {st : Status} {d : Nat} {q : Rec}
    (h : q ∈ (s.windfallAll p st d).recs) : p q = false := by
  obtain ⟨hmem, hgone⟩ := State.mem_foldl_windfall h
  exact Bool.eq_false_iff.mpr fun hp => hgone (List.mem_filter.mpr ⟨hmem, hp⟩)

/-- A channel whose entry differs is suspended, leaves the cache and keeps no GREEN record (R218). -/
theorem State.suspend_spec (s : State) (ch origin : Nat) (cached fetched : List Byte) :
    ((s.suspend ch origin cached fetched).chan ch).suspended = true ∧
    (s.suspend ch origin cached fetched).cached = s.cached.filter (fun e => e.1 != ch) ∧
    ∀ r ∈ (s.suspend ch origin cached fetched).recs, r.ch = ch → r.st ≠ .green := by
  refine ⟨?_, by simp [State.suspend], fun r hr hch hg => ?_⟩
  · rw [State.chan_of_chans (t := State.setChan s ch { s.chan ch with suspended := true })
      (by simp [State.suspend]; rfl), State.setChan_chan_same]
  · have hnone := State.windfallAll_none_left hr
    simp [hch, hg] at hnone

/-- The state in which a sweep looks at the cached entries. -/
def State.sweeping (s : State) : State := { s with ph := { s.ph with audited := some s.ph.c } }

/-- A due sweep of a cache with one entry. -/
theorem exec_auditSweep_one {s : State} {ch : Nat} {e : List Byte} (hdue : s.sweepDue = true) (hc : s.cached = [(ch, e)])
    (d : Dma) : exec (.auditSweep [d]) s =
      .next (if s.live.any (Live.invalidates ch) then s.sweeping else s.sweeping.audit ch e d).pump := by
  cases hskip : s.live.any (Live.invalidates ch) <;>
    simp [exec, execAuditSweep, hdue, hc, hskip, State.sweeping, State.mapPh]

/-- Settles O25: the miss by `exec_bindingEntryFetch_caches` and `State.cacheEntry_spec`, the sweep by what one look at an entry
does. -/
theorem bindingEntriesAreCachedAndAudited : Obligations.BindingEntriesAreCachedAndAudited := by
  refine ⟨fun s ch e l he hl hd hs hu hc => ?miss, fun s ch e f hm hi hc hphi ha hd => ?sweep⟩
  case miss =>
    obtain ⟨hentry, hchan, hlen⟩ := (s.readEntry ch).cacheEntry_spec ch e
    exact ⟨_, exec_bindingEntryFetch_caches he hl hd hs hu hc, hentry, hchan, hlen, by simp⟩
  case sweep =>
    intro w hs hcached he hf
    have hdue : s.sweepDue = true := by simp [State.sweepDue, hm, hi, hc, hphi, ha, hd]
    have hstop : w.dmaStop 64 = none := hs
    have hlook {bs : List Byte} (hbs : bs.length = 64) : w.audit ch e (.data bs) =
        if bs = e then w.readEntry ch else (w.readEntry ch).suspend ch noOrigin e bs := by
      simp only [State.audit, hstop, State.readBytes_whole hbs]
    refine ⟨fun hskip => ?_, fun hlive => ?_, fun hlive hne => ?_⟩
    · rw [exec_auditSweep_one hdue hcached, if_pos hskip]
      rfl
    · rw [exec_auditSweep_one hdue hcached, hlive, if_neg Bool.false_ne_true]
      exact congrArg (fun u : State => Host.Outcome.next u.pump) ((hlook he).trans (if_pos rfl))
    · obtain ⟨hsusp, hgone, hgreen⟩ := (w.readEntry ch).suspend_spec ch noOrigin e f
      refine ⟨(w.readEntry ch).suspend ch noOrigin e f, ?_, hsusp, by rw [hgone]; simp [w, hcached], hgreen⟩
      rw [exec_auditSweep_one hdue hcached, hlive, if_neg Bool.false_ne_true]
      exact congrArg (fun u : State => Host.Outcome.next u.pump) ((hlook hf).trans (if_neg hne))

end Sys2Proof.Machine
end

section
/-! PROOFS. Pairing with a peer (chapter 06): the three steps of PEER.PAIR, PEER.STATUS and PEER.UNPAIR. -/

namespace Sys2Proof.Machine

/-! ### Output through a descriptor (R155) -/

/-- Output through a descriptor changes contexts, dirty-page maps and what the host port sends, and nothing else. -/
theorem State.output_keep {γ : Type} {g : State → γ} (hctx : ∀ s i c, g (State.setCtx s i c) = g s)
    (hwrite : ∀ s o i p a b, g (State.hostWrite s o i p a b) = g s) (s : State) (owner : Nat) (d : Desc) (bytes : List Byte) :
    g (s.output owner d bytes) = g s := by
  have hissue (n : Nat) (s : State) : g (s.issue owner n) = g s := by
    induction n generalizing s with
    | zero => rfl
    | succ n ih =>
      unfold State.issue
      dsimp only
      split
      · rfl
      · split
        · rfl
        · rw [ih, hwrite, hctx]
  exact (hissue _ _).trans (hctx _ _ _)

@[simp] theorem State.output_frame (s : State) (owner : Nat) (d : Desc) (bytes : List Byte) :
    (s.output owner d bytes).slices = s.slices ∧ (s.output owner d bytes).ks = s.ks ∧ (s.output owner d bytes).cus = s.cus := by
  refine ⟨?_, ?_, ?_⟩ <;> exact State.output_keep (by simp) (by simp) s owner d bytes

theorem withOutput_sent {s : State} {rq : Rq} (h : s.dmaStop rq.owner = none) (d : Desc) (bytes : List Byte) (kind : Nat)
    (k : State → Act) : Act.withOutput s rq d bytes kind k = k (s.output rq.owner d bytes) := by
  simp only [Act.withOutput, h]

/-! ### The steps of PEER.PAIR (R223, R224, R462) -/

/-- The chain bundle fits OUT, and the identity signs (R223). -/
theorem withBundle_signs {s : State} {rq : Rq} (hlen : s.chainBundle.length ≤ (descAt rq.body 4).len)
    (hd : firstFail (s.dualChecks rq.ctx) = none) (hv : rq.x.verify = none) (k : State → Act) :
    Act.withBundle s rq k = k s := by
  simp only [Act.withBundle, if_neg (Nat.not_lt.mpr hlen), guard_none hd, Act.verified, hv]

/-- STEP 1, once its checks pass. -/
theorem doPeerPair_offers {t : State} {rq : Rq} (hc : firstFail (t.pairChecks rq) = none) (h1 : at8 rq.body 0 = 1)
    (hlen : t.chainBundle.length ≤ (descAt rq.body 4).len) (hd : firstFail (t.dualChecks rq.ctx) = none)
    (hv : rq.x.verify = none) (hs : t.dmaStop rq.owner = none) :
    let t1 := t.output rq.owner (descAt rq.body 4) t.chainBundle
    let eph := t1.drawScalar p384.n
    let t2 := t1.drewBytes 80
    let t3 := t2.drewBytes 16
    let body := t3.pairBody 0x0605 (t2.drawBytes 16) (p384.encode (p384.mul eph p384.gen)) (zeros 4)
    doPeerPair rq t = .done .ok 0 (body ++ t3.dualSign body)
      ((t3.dualSigned rq.ctx).mapKs (fun k => { k with eph := some eph, offer := body ++ t3.dualSign body })) := by
  simp only [doPeerPair, guard_none hc, if_pos h1, pairOffer, withBundle_signs hlen hd hv, withOutput_sent hs]

/-- Reading an input range changes neither keys nor power, and no DMA stops for it. -/
theorem State.didInput_pairing (s : State) (rq : Rq) (d : Desc) : (s.didInput rq d).ks = s.ks ∧
    (s.didInput rq d).dmaStop rq.owner = s.dmaStop rq.owner ∧ (s.didInput rq d).chainBundle = s.chainBundle ∧
    (∀ type k blob, (s.didInput rq d).pairOk type k blob = s.pairOk type k blob) ∧
    ∀ eph blob peer, (s.didInput rq d).pairKeyOf eph blob peer = s.pairKeyOf eph blob peer := by
  unfold State.didInput
  split <;> exact ⟨rfl, rfl, rfl, fun _ _ _ => rfl, fun _ _ _ => rfl⟩

/-- STEP 2, once the bundle is read and the offer verifies. -/
theorem doPeerPair_accepts {t : State} {rq : Rq} {bundle : List Byte} {k : PeerKeys}
    (hc : firstFail (t.pairChecks rq) = none) (h2 : at8 rq.body 0 = 2) (hlen : t.chainBundle.length ≤ (descAt rq.body 4).len)
    (hd : firstFail (t.dualChecks rq.ctx) = none) (hv : rq.x.verify = none) (hs : t.dmaStop rq.owner = none)
    (hin : t.input rq 0 (descAt rq.body 20) = .data bundle) (hk : Config.chainKeys bundle t.ks.rootKeys = some k)
    (hok : t.pairOk 0x0605 k (rq.body.drop 36) = true) :
    let t1 := (t.didInput rq (descAt rq.body 20)).output rq.owner (descAt rq.body 4) t.chainBundle
    let t2 := t1.drewBytes 80
    let eph := t1.drawScalar p384.n
    let key := t2.pairKeyOf eph (rq.body.drop 36) (deviceIdOf k)
    let body := t2.pairBody 0x0606 ((sha256 (rq.body.drop 36)).take 16) (p384.encode (p384.mul eph p384.gen)) (kcv key)
    doPeerPair rq t = .done .ok 0 (body ++ t2.dualSign body) ((t2.dualSigned rq.ctx).paired key k rq.route.origin) := by
  obtain ⟨hks, hstop, hbundle, hpair, -⟩ := t.didInput_pairing rq (descAt rq.body 20)
  have hoffer : firstFail [(!(t.didInput rq (descAt rq.body 20)).pairOk 0x0605 k (rq.body.drop 36), .policy, 0x0056)] = none := by
    rw [hpair, hok]
    rfl
  have h1 : at8 rq.body 0 ≠ 1 := by omega
  simp only [doPeerPair, guard_none hc, if_neg h1, if_pos h2, withBundle_signs hlen hd hv, withInput_data hin, hks, hk,
    guard_none hoffer, pairAccept, withOutput_sent (hstop.trans hs), hbundle]

/-- STEP 3, once the bundle is read: the acceptance verifies, names the offer and carries the KCV of the same key. -/
theorem doPeerPair_confirms {t : State} {rq : Rq} {bundle : List Byte} {k : PeerKeys} {eph : Nat}
    (hc : firstFail (t.pairChecks rq) = none) (h3 : at8 rq.body 0 = 3)
    (hin : t.input rq 0 (descAt rq.body 20) = .data bundle) (hk : Config.chainKeys bundle t.ks.rootKeys = some k)
    (he : t.ks.eph = some eph) (hok : t.pairOk 0x0606 k (rq.body.drop 36) = true)
    (hoffer : slice (rq.body.drop 36) 164 16 = (sha256 t.ks.offer).take 16)
    (hkcv : slice (rq.body.drop 36) 277 4 = kcv (t.pairKeyOf eph (rq.body.drop 36) (deviceIdOf k))) :
    let key := t.pairKeyOf eph (rq.body.drop 36) (deviceIdOf k)
    doPeerPair rq t = .done .ok 0 (deviceIdOf k ++ kcv key)
      ((t.didInput rq (descAt rq.body 20)).paired key k rq.route.origin) := by
  obtain ⟨hks, -, -, hpair, hkey⟩ := t.didInput_pairing rq (descAt rq.body 20)
  have h1 : at8 rq.body 0 ≠ 1 := by omega
  have h2 : at8 rq.body 0 ≠ 2 := by omega
  simp only [doPeerPair, guard_none hc, if_neg h1, if_neg h2, withInput_data hin, pairConfirm, hks, hk, he, hkey]
  exact guard_none (by simp only [hpair, hok, hoffer, hkcv, bne_self_eq_false, Bool.not_true, Bool.or_false,
    firstFail_cons_none, firstFail_nil, and_self])

/-- The steps run in a PEER_PAIR ceremony (R462). -/
theorem State.pairChecks_ceremony {s : State} {rq : Rq} (h : firstFail (s.pairChecks rq) = none) :
    ∃ c, s.cus.cer = some c := by
  have hmay : s.mayPair = true := by
    simp only [State.pairChecks, firstFail_append_none, firstFail_cons_none] at h
    obtain ⟨-, hmay, -⟩ := h
    simpa using hmay
  unfold State.mayPair at hmay
  split at hmay
  · cases hmay
  · next c hcer => exact ⟨c, hcer⟩

theorem State.ceremonyDone_cus {s : State} {c : Cer} (h : s.cus.cer = some c) (origin : Nat) :
    (s.ceremonyDone origin).cus.cer = none ∧ (s.ceremonyDone origin).cus.outcome = 1 := by
  simp [State.ceremonyDone, h]

/-- A pairing holds its key, drops the ephemeral key, and ends the ceremony. -/
theorem State.paired_spec {s : State} {c : Cer} (h : s.cus.cer = some c) (key : List Byte) (k : PeerKeys) (origin : Nat) :
    (s.paired key k origin).ks.pairKey = some key ∧ (s.paired key k origin).ks.peerId = deviceIdOf k ∧
    (s.paired key k origin).ks.eph = none ∧ (s.paired key k origin).cus.cer = none ∧
    (s.paired key k origin).cus.outcome = 1 := by
  obtain ⟨hcer, hout⟩ := State.ceremonyDone_cus (s := (((s.dropPair origin).mapKs (fun v =>
    { v with pairKey := some key, peerId := deviceIdOf k, peerKeys := some k, eph := none, offer := [] })).writeDevice 6).event
      0x0406 origin (deviceIdOf k)) (c := c) (by simpa using h) origin
  exact ⟨by simp [State.paired, State.writeDevice], by simp [State.paired, State.writeDevice],
    by simp [State.paired, State.writeDevice], hcer, hout⟩

/-! ### PEER.STATUS and PEER.UNPAIR (R225) -/

theorem doPeerStatus_paired {t : State} {rq : Rq} {k : List Byte} (hlen : rq.body.length = 0) (hk : t.ks.pairKey = some k) :
    doPeerStatus rq t = .done .ok 0 (padTo 8 t.ks.peerId ++ be 5 (t.ks.received t.ks.peerId)) t := by
  rw [doPeerStatus, guard_none (by simpa using hlen), hk, Option.isSome_some, if_pos rfl]

theorem doPeerStatus_unpaired {t : State} {rq : Rq} (hlen : rq.body.length = 0) (hk : t.ks.pairKey = none) :
    doPeerStatus rq t = .done .ok 0 (zeros 13) t := by
  rw [doPeerStatus, guard_none (by simpa using hlen), hk, Option.isSome_none, if_neg Bool.false_ne_true]

theorem firstFail_unpair {t : State} {rq : Rq} (hlen : rq.body.length = 0) (ht : t.ks.transfer = none) :
    firstFail (needLength rq 0 ++ [(t.transferOpen, .policy, 0x005B)]) = none := by
  simp [hlen, State.transferOpen, ht]

theorem doPeerUnpair_paired {t : State} {rq : Rq} {k : List Byte} (hlen : rq.body.length = 0) (hk : t.ks.pairKey = some k)
    (ht : t.ks.transfer = none) : doPeerUnpair rq t =
      .done .ok 0 [] ((t.dropPair rq.route.origin).event 0x0407 rq.route.origin t.ks.peerId) := by
  rw [doPeerUnpair, guard_none (firstFail_unpair hlen ht), hk, Option.isSome_some, if_pos rfl]

theorem doPeerUnpair_unpaired {t : State} {rq : Rq} (hlen : rq.body.length = 0) (hk : t.ks.pairKey = none)
    (ht : t.ks.transfer = none) : doPeerUnpair rq t = .done .ok 0 [] t := by
  rw [doPeerUnpair, guard_none (firstFail_unpair hlen ht), hk, Option.isSome_none, if_neg Bool.false_ne_true]

/-- The slot of a key that goes takes the next generation, unless it retires (R334, R336). -/
theorem State.freeDevice_gen {s : State} {k : Nat} (h : (s.slot k).gen < 0xFFFFFF) (origin : Nat) :
    ((s.freeDevice k origin).slot k).gen = (s.slot k).gen + 1 := by
  simp only [State.freeDevice, if_neg (Nat.ne_of_lt h), State.setSlot_slot_same]

theorem State.dropPair_spec {s : State} {k : List Byte} (h : s.ks.pairKey = some k) (origin : Nat) :
    (s.dropPair origin).ks.pairKey = none ∧ (s.dropPair origin).ks.peerId = zeros 8 ∧ (s.dropPair origin).ks.peerKeys = none ∧
    ((s.slot 6).gen < 0xFFFFFF → ((s.dropPair origin).slot 6).gen = (s.slot 6).gen + 1) := by
  have hdrop : s.dropPair origin =
      (s.freeDevice 6 origin).mapKs (fun v => { v with pairKey := none, peerId := zeros 8, peerKeys := none }) := by
    simp [State.dropPair, h]
  rw [hdrop]
  exact ⟨rfl, rfl, rfl, fun hgen => State.freeDevice_gen hgen origin⟩

/-- Settles O56: the steps by what each does once its checks pass, the held key and the ceremony by `State.paired_spec`,
PEER.UNPAIR by `State.dropPair_spec`. -/
theorem pairingTakesThreeSteps : Obligations.PairingTakesThreeSteps := by
  refine ⟨?pair, ?peer⟩
  case pair =>
    intro s t v x rt arr p b ctx own rq r h hc hv
    obtain ⟨c, hcer⟩ := State.pairChecks_ceremony hc
    have hread : r.cus.cer = some c := by simpa [r] using hcer
    refine ⟨fun h1 hlen hd hs => ?offer, fun bundle k h2 hlen hd hs hin hk hok => ?accept,
      fun bundle k eph h3 hin hk he hok => ?confirm⟩
    case offer => exact completes rfl h (by rw [show at8 (p.drop 16) 0 = 1 from h1]; rfl) (doPeerPair_offers hc h1 hlen hd hv hs)
    case accept =>
      obtain ⟨hkey, hpeer, -, hdone, hout⟩ := State.paired_spec (c := c) (s := (State.dualSigned
        ((r.output own (descAt b 4) t.chainBundle).drewBytes 80) ctx)) (by simpa using hread) _ k rt.origin
      exact ⟨completes rfl h (by simpa [b] using h2) (doPeerPair_accepts hc h2 hlen hd hv hs hin hk hok), hkey, hpeer,
        hdone, hout⟩
    case confirm =>
      intro key hoffer hkcv
      exact ⟨completes rfl h (by simpa [b] using h3) (doPeerPair_confirms hc h3 hin hk he hok hoffer hkcv),
        State.paired_spec hread _ k rt.origin⟩
  case peer =>
    intro s t v x rt arr p hp
    have hlen (o : Op) : (t.request? rt p arr o x).body.length = 0 := by simp [hp]
    refine ⟨fun h k hk => completes rfl h rfl (doPeerStatus_paired (hlen _) hk),
      fun h hk => completes rfl h rfl (doPeerStatus_unpaired (hlen _) hk),
      fun h k hk ht => ⟨completes rfl h rfl (doPeerUnpair_paired (hlen _) hk ht), ?unpaired⟩,
      fun h hk ht => completes rfl h rfl (doPeerUnpair_unpaired (hlen _) hk ht)⟩
    case unpaired =>
      have hks : ((t.dropPair rt.origin).event 0x0407 rt.origin t.ks.peerId).ks = (t.dropPair rt.origin).ks := by simp
      have hslot := State.slot_of_slots (congrArg KeyStore.slots hks) 6
      rw [hks, hslot]
      exact State.dropPair_spec hk rt.origin

end Sys2Proof.Machine
end

section
/-! PROOFS. The move of a slice to a peer (chapter 06): SLICE.EMIGRATE and its package, SLICE.IMMIGRATE as it goes on, and the
statements that settle a transfer. -/

namespace Sys2Proof.Machine

/-! ### SLICE.EMIGRATE (R228, R240) -/

/-- A command that no tenant may issue comes from no tenant (Table 03-4). -/
theorem tenant_none_of_level {rt : Route} {o : Op} (ho : o.levels.2.1 = false) (h : firstFail (accessChecks rt o) = none) :
    rt.tenant = none := by
  cases rt with
  | ring w a b c d =>
    cases w with
    | mgr => rfl
    | slice n => simp [accessChecks, ho] at h
  | push n w => simp [accessChecks, ho] at h
  | console => rfl
  | vital p alive => rfl

@[simp] theorem State.records_frame (s : State) (xfer : List Byte) (ks : List (Nat × Key)) :
    (s.records xfer ks).2.slices = s.slices := by
  refine foldl_keep (g := fun q : List Byte × State => q.2.slices) (fun q e => ?_) ks ([], s)
  simp

@[simp] theorem State.package_frame (s : State) (n number ctx : Nat) : (s.package n number ctx).2.slices = s.slices := by
  simp [State.package]

@[simp] theorem State.outputs_frame (s : State) (owner : Nat) (ds : List Desc) (bytes : List Byte) :
    (s.outputs owner ds bytes).slices = s.slices ∧ (s.outputs owner ds bytes).ks = s.ks := by
  induction ds generalizing s bytes with
  | nil => exact ⟨rfl, rfl⟩
  | cons d ds ih => simp [State.outputs, ih]

@[simp] theorem State.mapKeys_counter (s : State) (n : Nat) (f : Key → Key) : (s.mapKeys n f).ks.counter = s.ks.counter :=
  foldl_keep (g := fun s => s.ks.counter)
    (f := fun s (e : Nat × Key) => s.setSlot e.1 { s.slot e.1 with key := some (f e.2) }) (fun _ _ => rfl) _ s

theorem State.freeze_spec (s : State) (n number : Nat) (pkg : List Byte) (keys : Nat) :
    (s.freeze n number pkg keys).ks.counter = s.ks.counter ∧
    (s.freeze n number pkg keys).ks.transfer = some ⟨number, n, sha256 pkg, keys⟩ ∧
    ((s.freeze n number pkg keys).slc n).st = .emigrating := by
  refine ⟨by simp [State.freeze], rfl, ?_⟩
  rw [State.slc_of_slices (t := (s.mapKeys n (fun k => { k.exported number with frozen := true })).setSlc n
    { (s.mapKeys n (fun k => { k.exported number with frozen := true })).slc n with st := .emigrating })
    (by simp [State.freeze]), State.setSlc_slc_same]

/-- The state that SLICE.EMIGRATE leaves: number and package taken, the slice frozen, the package on its way. -/
def State.emigrated (s : State) (rq : Rq) : State :=
  let n := at8 rq.body 0
  let number := s.ks.counter + 1
  let pkg := s.package n number rq.ctx
  ((pkg.2.mapKs (fun v => { v with counter := number })).freeze n number pkg.1 (s.transferKeys n).length).outputs rq.owner
    (descsAt rq.body 2 (at8 rq.body 1)) pkg.1

theorem emigrate_sends {s : State} {rq : Rq} (h : s.dmaStop rq.owner = none) : emigrate none rq s =
    .done .ok 0 (be 5 (s.ks.counter + 1) ++ be 4 (s.package (at8 rq.body 0) (s.ks.counter + 1) rq.ctx).1.length)
      (s.emigrated rq) := by
  simp only [emigrate, h]
  rfl

theorem State.emigrated_spec (s : State) (rq : Rq) : (s.emigrated rq).ks.counter = s.ks.counter + 1 ∧
    (s.emigrated rq).ks.transfer = some ⟨s.ks.counter + 1, at8 rq.body 0,
      sha256 (s.package (at8 rq.body 0) (s.ks.counter + 1) rq.ctx).1, (s.transferKeys (at8 rq.body 0)).length⟩ ∧
    ((s.emigrated rq).slc (at8 rq.body 0)).st = .emigrating := by
  obtain ⟨hcounter, htransfer, hst⟩ := (((s.package (at8 rq.body 0) (s.ks.counter + 1) rq.ctx).2.mapKs
    (fun v => { v with counter := s.ks.counter + 1 })).freeze_spec (at8 rq.body 0) (s.ks.counter + 1)
      (s.package (at8 rq.body 0) (s.ks.counter + 1) rq.ctx).1 (s.transferKeys (at8 rq.body 0)).length)
  refine ⟨?_, ?_, ?_⟩
  · simpa [State.emigrated] using hcounter
  · simpa [State.emigrated] using htransfer
  · rwa [State.emigrated, State.slc_of_slices (State.outputs_frame _ _ _ _).1]

/-- SLICE.EMIGRATE once its checks pass. -/
theorem doSliceEmigrate_sends {t : State} {rq : Rq} (ht : rq.route.tenant = none) (h1 : 1 ≤ at8 rq.body 1)
    (h4 : at8 rq.body 1 ≤ 4) (hlen : rq.body.length = 2 + 16 * at8 rq.body 1) (hi : t.ph.issuing = true)
    (hr : t.pow.drbgStop = false) (hdescs : firstFail (t.needDescs rq 2 (at8 rq.body 1) 2) = none) (hn : at8 rq.body 0 < 64)
    (hst : (t.slc (at8 rq.body 0)).st = .quiesced) (hp : t.ks.pairKey.isSome = true) (htr : t.ks.transfer = none)
    (hroom : t.packageLen (at8 rq.body 0) ≤ ((descsAt rq.body 2 (at8 rq.body 1)).map (·.len)).sum)
    (hd : firstFail (t.dualChecks rq.ctx) = none) (hsplit : rq.x.split = false) (hm : rq.x.misses = 0)
    (hv : rq.x.verify = none) :
    doSliceEmigrate none rq t = emigrate none rq t.drewDelay := by
  have hform : (decide (at8 rq.body 1 < 1) || decide (4 < at8 rq.body 1) ||
      rq.body.length != 2 + 16 * at8 rq.body 1) = false := by
    simp [Nat.not_lt.mpr h1, Nat.not_lt.mpr h4, hlen]
  have hchecks : firstFail ([(decide (at8 rq.body 1 < 1) || decide (4 < at8 rq.body 1) ||
        rq.body.length != 2 + 16 * at8 rq.body 1, .length, 0)] ++ t.needStamp ++ t.needRandom ++
      t.needDescs rq 2 (at8 rq.body 1) 2 ++ sliceArg rq ++ t.stateIn (at8 rq.body 0) [.quiesced] ++
      [(t.ks.pairKey.isNone, .policy, 0x0055), (t.transferOpen, .busy, 0x005B)]) = none := by
    simp only [hform, firstFail_append_none, firstFail_cons_none, needStamp_issuing hi, State.firstFail_needRandom, hr, hdescs,
      firstFail_sliceArg rfl hn (by simp [ht]), State.firstFail_stateIn, hst]
    simpa [State.transferOpen, htr, Option.isSome_iff_ne_none] using hp
  simp only [doSliceEmigrate, guard_none hchecks, if_neg (Nat.not_lt.mpr hroom), guard_none hd, twice_agrees hsplit, Act.onLane,
    hm, if_true, Act.verified, hv]

theorem State.drewDelay_transfers (s : State) (n : Nat) : s.drewDelay.transferKeys n = s.transferKeys n := rfl

/-! ### SLICE.IMMIGRATE (R231-R233) -/

/-- SLICE.IMMIGRATE that has passed its checks makes its slice IMMIGRATING and waits to go on (Table 06-1). -/
theorem doSliceImmigrate_waits {t : State} {rq : Rq} (hp : rq.past = false) (hc : firstFail (t.immigrateChecks rq) = none) :
    doSliceImmigrate false rq t = .park (.held .install) (t.setSlcSt (at8 rq.body 0) .immigrating) := by
  simp [doSliceImmigrate, hp, guard_none hc]

/-- The state after input ranges were read in turn. -/
def State.readAll (s : State) (rq : Rq) (ds : List Desc) : State := ds.foldl (fun s d => s.didInput rq d) s

@[simp] theorem State.readAll_frame (s : State) (rq : Rq) (ds : List Desc) :
    (s.readAll rq ds).slices = s.slices ∧ (s.readAll rq ds).ks = s.ks := by
  simp [State.readAll]

/-- Input ranges that all give their bytes are read in turn, and the command goes on with the bytes together. -/
theorem withInputs_data {rq : Rq} {kind : Nat} {f : List Byte → State → Act} (ds : List Desc) {s : State} {i : Nat}
    {acc : List Byte} {parts : List (List Byte)} (hlen : parts.length = ds.length)
    (h : ∀ (j : Nat) (d : Desc), ds[j]? = some d → (s.readAll rq (ds.take j)).input rq (i + j) d = .data (parts.getD j [])) :
    Act.withInputs s rq kind f (ds.zipIdx i) acc = f (acc ++ parts.flatten) (s.readAll rq ds) := by
  induction ds generalizing s i acc parts with
  | nil =>
    obtain rfl : parts = [] := List.length_eq_zero_iff.mp hlen
    simp [Act.withInputs, State.readAll]
  | cons d ds ih =>
    obtain ⟨bs, parts, rfl⟩ : ∃ bs r, parts = bs :: r := List.exists_cons_of_length_pos (by simp [hlen])
    have hfirst : s.input rq i d = .data bs := h 0 d rfl
    have hrest := ih (s := s.didInput rq d) (i := i + 1) (acc := acc ++ bs) (parts := parts) (by simpa using hlen)
      fun j d' hj => by simpa [State.readAll, Nat.add_assoc, Nat.add_comm 1 j] using h (j + 1) d' hj
    rw [List.zipIdx_cons]
    simp only [Act.withInputs, hfirst, hrest]
    simp [State.readAll]

/-- The state that a refused package leaves when the peer has not signed it: the refusal is recorded and signed, and its number
is not used (R233). -/
def State.refusing (s : State) (rq : Rq) (pkg : List Byte) : State :=
  (s.event 0x0405 rq.route.origin (be 5 (fld pkg 20 5) ++ [byte 0x56, 1#8])).dualSigned rq.ctx

theorem immigrate_unsigned {s : State} {rq : Rq} {pkg : List Byte} (hv : rq.x.verify = none)
    (h : s.packageSigned pkg = false) : immigrate rq pkg s =
      .done .policy 0x56 (s.settleStatement 0x0603 0x56 0 pkg) (s.refusing rq pkg) := by
  simp [immigrate, h, refusePackage, Act.verified, hv, State.refusing]

/-- The state that an installed package leaves: the receipt is signed, the number used, the move recorded (R231). -/
def State.installed (v : State) (rq : Rq) (pkg : List Byte) : State :=
  ((v.dualSigned rq.ctx).mapKs (fun q => q.receive (slice pkg 4 8) (fld pkg 20 5))).event 0x0404 rq.route.origin
    (be 5 (fld pkg 20 5) ++ [byte (at8 rq.body 0)] ++ be 2 (fld pkg 26 2))

theorem immigrate_installs {s v : State} {rq : Rq} {pkg : List Byte} (hv : rq.x.verify = none) (hm : rq.x.misses = 0)
    (h : s.packageSigned pkg = true) (hok : s.installPackage (at8 rq.body 0) pkg rq.route.origin = .ok v) :
    immigrate rq pkg s = .done .ok 0 (s.settleStatement 0x0602 0 (fld pkg 26 2) pkg) (v.installed rq pkg) := by
  simp [immigrate, h, Act.onLane, hm, hok, Act.verified, hv, State.installed]

/-- SLICE.IMMIGRATE that goes on reads its package and installs or refuses it. -/
theorem doSliceImmigrate_goesOn {s : State} {rq : Rq} {k : Nat} {parts : List (List Byte)} (hpast : rq.past = true)
    (hst : (s.slc (at8 rq.body 0)).st = .immigrating) (hlen : rq.body.length = 1 + 16 * k)
    (hc : firstFail ((s.setSlcSt (at8 rq.body 0) .created).immigrateChecks rq) = none)
    (hd : firstFail ((s.setSlcSt (at8 rq.body 0) .created).dualChecks rq.ctx) = none) (hparts : parts.length = k)
    (hin : ∀ i, i < k → ((s.setSlcSt (at8 rq.body 0) .created).readAll rq ((descsAt rq.body 1 k).take i)).input rq i
      (descAt rq.body (1 + 16 * i)) = .data (parts.getD i []))
    {st : Status} {d : Nat} {b : List Byte} {t : State}
    (hrun : immigrate rq (cutPackage parts.flatten)
      ((s.setSlcSt (at8 rq.body 0) .created).readAll rq (descsAt rq.body 1 k)) = .done st d b t) :
    doSliceImmigrate false rq s = .done st d b t := by
  have hk : (rq.body.length - 1) / 16 = k := by omega
  have hread := withInputs_data (rq := rq) (kind := 7) (f := fun bs s => immigrate rq (cutPackage bs) s) (descsAt rq.body 1 k)
    (s := s.setSlcSt (at8 rq.body 0) .created) (i := 0) (acc := []) (parts := parts) (by simp [descsAt, hparts])
    fun j d' hj => by
      obtain ⟨hjk, rfl⟩ := List.getElem?_eq_some_iff.mp hj
      have hat : (descsAt rq.body 1 k)[j] = descAt rq.body (1 + 16 * j) := by simp [descsAt]
      rw [Nat.zero_add, hat]
      exact hin j (by simpa [descsAt] using hjk)
  simp [doSliceImmigrate, hpast, hst, runImmigrate, guard_none hc, guard_none hd, hk, hread, hrun]

/-- With no command waiting and one request held, whose wait is over, the step ends that request (log entry 3). -/
theorem step_oneHeld {s t : State} {rq : Rq} {w : Wait} {st : Status} {d : Nat} {b : List Byte} (hp : s.pending = [])
    (hl : s.live = [⟨rq, .held w⟩]) (hr : s.ruled ⟨rq, .held w⟩ = false)
    (hrun : handle rq { s with live := [] } = .done st d b t) :
    step s = .next ((t.closePart rq st).complete rq (t.evr.next != s.evr.next) st d b).schedule.nextPhi.rdyRises := by
  have hretry : s.retry ⟨rq, .held w⟩ = (t.closePart rq st).complete rq (t.evr.next != s.evr.next) st d b := by
    simp [State.retry, hl, hr, hrun]
  simp [step, hp, State.idle, State.pump, hl, hretry]

/-- Signing leaves the slots and the transfer numbers alone. -/
theorem State.dualSigned_transfers (s : State) (ctx : Nat) :
    (s.dualSigned ctx).ks.slots = s.ks.slots ∧ (s.dualSigned ctx).ks.highest = s.ks.highest := by
  unfold State.dualSigned
  dsimp only
  split <;> split <;> simp [State.writeDevice]

/-- A refused package that is not signed changes no slice, no key and no transfer number (R233). -/
theorem State.refusing_spec (s : State) (rq : Rq) (pkg : List Byte) : (s.refusing rq pkg).slices = s.slices ∧
    (s.refusing rq pkg).ks.slots = s.ks.slots ∧ (s.refusing rq pkg).ks.highest = s.ks.highest := by
  obtain ⟨hslots, hhighest⟩ := State.dualSigned_transfers
    (s.event 0x0405 rq.route.origin (be 5 (fld pkg 20 5) ++ [byte 0x56, 1#8])) rq.ctx
  exact ⟨by simp [State.refusing], by rw [State.refusing, hslots]; simp, by rw [State.refusing, hhighest]; simp⟩

/-! ### Settling a transfer (R233-R235) -/

section
variable {t : State} {rq : Rq}

theorem doSliceReceipt_settles (hlen : rq.body.length = 3064) (hn : t.transferNumber = some (fld rq.body 20 5))
    (hok : t.settleOk 0x0602 rq.body = true) (hnames : t.namesTransfer rq.body = true) (hsplit : rq.x.split = false) :
    doSliceReceipt rq t = .done .ok 0 [] (t.drewDelay.settle rq.route.origin) := by
  have hchecks : firstFail (needLength rq 3064 ++ [(t.transferNumber != some (fld rq.body 20 5), .policy, 0x0057),
      (!t.settleOk 0x0602 rq.body || !t.namesTransfer rq.body, .policy, 0x0056)]) = none := by
    simp [hlen, hn, hok, hnames]
  rw [doSliceReceipt, guard_none hchecks, twice_agrees hsplit]

/-- A settled transfer frees its slice and is over (R235). -/
theorem State.settle_spec {tr : Transfer} (h : t.ks.transfer = some tr) (origin : Nat) :
    (t.settle origin).ks.transfer = none ∧ ((t.settle origin).slc tr.slice).st = .free := by
  simp only [State.settle, h]
  refine ⟨by simp, ?_⟩
  rw [State.slc_of_slices (t := t.removeSlice tr.slice origin) (by simp), State.removeSlice_slc, if_pos rfl]
  rfl

/-- A payload of 3,040 bytes or more is no list of descriptors. -/
theorem doSliceRefuse_inPayload (hlen : 3040 ≤ rq.body.length) : doSliceRefuse rq t =
    if fld rq.body 0 2 = 0x0603 then
      Act.guard t
        [(rq.body.length != 3064, .length, 0), (t.transferNumber != some (fld rq.body 20 5), .policy, 0x0057),
          (!t.settleOk 0x0603 rq.body || !t.namesTransfer rq.body, .policy, 0x0056)]
        (.done .ok 0 [] (t.undoTransfer (at8 rq.body 25) rq.route.origin))
    else refuseHere rq rq.body t := by
  have hmany : ¬rq.body.length / 16 ≤ 4 := by omega
  have hshort : firstFail [(decide (rq.body.length < 3040), Status.length, 0)] = none := by simpa using hlen
  simp [doSliceRefuse, hmany, guard_none hshort]

theorem doSliceRefuse_undoes (hlen : rq.body.length = 3064) (htype : fld rq.body 0 2 = 0x0603)
    (hn : t.transferNumber = some (fld rq.body 20 5)) (hok : t.settleOk 0x0603 rq.body = true)
    (hnames : t.namesTransfer rq.body = true) :
    doSliceRefuse rq t = .done .ok 0 [] (t.undoTransfer (at8 rq.body 25) rq.route.origin) := by
  rw [doSliceRefuse_inPayload (by omega), if_pos htype]
  exact guard_none (by simp [hlen, hn, hok, hnames])

/-- A transfer that is undone leaves its slice QUIESCED and is over (R235, R236). -/
theorem State.undoTransfer_spec {tr : Transfer} (h : t.ks.transfer = some tr) (reason origin : Nat) :
    (t.undoTransfer reason origin).ks.transfer = none ∧ ((t.undoTransfer reason origin).slc tr.slice).st = .quiesced := by
  simp only [State.undoTransfer, h]
  refine ⟨by simp, ?_⟩
  rw [State.slc_of_slices (t := (t.mapKeys tr.slice (fun k => { k with frozen := false })).setSlc tr.slice
    { t.slc tr.slice with st := .quiesced }) (by simp),
    State.setSlc_slc_same]

theorem doSliceRefuse_usesNumber (hlen : 3040 ≤ rq.body.length) (htype : fld rq.body 0 2 ≠ 0x0603)
    (hsigned : t.packageSigned rq.body = true ∨ (t.settleOk 0x0604 rq.body = true ∧ slice rq.body 4 8 = t.ks.peerId ∧
      slice rq.body 12 8 = t.ks.deviceId))
    (hnew : t.ks.received (slice rq.body 4 8) < fld rq.body 20 5) :
    doSliceRefuse rq t = .done .ok 0 [] ((t.mapKs (fun w => w.receive (slice rq.body 4 8) (fld rq.body 20 5))).event 0x0405
      rq.route.origin (be 5 (fld rq.body 20 5) ++ [0#8, 1#8])) := by
  have hok : (t.packageSigned rq.body || (t.settleOk 0x0604 rq.body && slice rq.body 4 8 == t.ks.peerId &&
      slice rq.body 12 8 == t.ks.deviceId)) = true := by
    simpa [and_assoc] using hsigned
  have hlater : decide (fld rq.body 20 5 ≤ t.ks.received (slice rq.body 4 8)) = false :=
    decide_eq_false (Nat.not_le.mpr hnew)
  rw [doSliceRefuse_inPayload hlen, if_neg htype]
  simp only [refuseHere, hok, hlater]
  exact guard_none rfl

end

/-- A later number is the highest received from its module (R231). -/
theorem KeyStore.received_receive {k : KeyStore} {device : List Byte} {n : Nat} (h : k.received device < n) :
    (k.receive device n).received device = n := by
  have hnone : (k.highest.filter (fun e => e.1 != device)).find? (fun e => e.1 == device) = none :=
    List.find?_eq_none.mpr fun e he => by simpa using (List.mem_filter.mp he).2
  have hmax : max n (k.received device) = n := max_eq_left (Nat.le_of_lt h)
  simp only [KeyStore.receive, hmax]
  simp [KeyStore.received, List.find?_append, hnone]

/-- Settles O57: SLICE.EMIGRATE by `doSliceEmigrate_sends` and `State.emigrated_spec`, SLICE.IMMIGRATE by
`doSliceImmigrate_goesOn`, and the settlements by `State.settle_spec`, `State.undoTransfer_spec` and
`KeyStore.received_receive`. -/
theorem slicesMoveToAPeer : Obligations.SlicesMoveToAPeer := by
  refine ⟨?emigrate, ?immigrate, ?goesOn, ?settle⟩
  case emigrate =>
    intro s t v x rt arr p b n k ctx number rq h h1 h4 hlen hi hr hdescs hn hst hp htr hroom hd hsplit hm hv hs pkg
    have htenant : rt.tenant = none := tenant_none_of_level rfl h.opened.level
    have howner : t.drewDelay.dmaStop rq.owner = none := by
      have : rq.owner = 0xFF := by simp [rq, htenant]
      rw [this]
      exact hs
    have hrun := (doSliceEmigrate_sends (rq := rq) htenant h1 h4 hlen hi hr hdescs hn hst hp htr hroom hd hsplit hm hv).trans
      (emigrate_sends howner)
    obtain ⟨hcounter, htransfer, hfrozen⟩ := t.drewDelay.emigrated_spec rq
    exact ⟨_, completes rfl h rfl hrun, hcounter, htransfer, hfrozen⟩
  case immigrate =>
    intro s t v x rt arr p rq h hc
    exact staysInFlight rfl h rfl (doSliceImmigrate_waits rfl hc)
  case goesOn =>
    intro s rq k parts b n t read w pkg hp hl hr hop hpast hst hlen hc hd hm hv hparts hin
    have hpkg : pkg = cutPackage parts.flatten := by simp [pkg]
    have hall : w = t.readAll rq (descsAt b 1 k) := by
      simp only [w, read, State.readAll]
      rw [List.take_of_length_le (by simp [descsAt])]
    have hclose (u : State) (st : Status) : u.closePart rq st = u := State.closePart_other (by simp [hop]) (by simp [hop])
    have hstep {st : Status} {d : Nat} {reply : List Byte} {u : State} (hrun : immigrate rq pkg w = .done st d reply u) :
        step s = .next (u.complete rq (u.evr.next != s.evr.next) st d reply).schedule.nextPhi.rdyRises := by
      rw [hpkg, hall] at hrun
      have hgo := doSliceImmigrate_goesOn (s := { s with live := [] }) hpast hst hlen hc hd hparts hin hrun
      have hhandle : handle rq { s with live := [] } = .done st d reply u := by rw [handle, hop]; exact hgo
      rw [step_oneHeld hp hl hr hhandle, hclose]
    refine ⟨fun v hsigned hok => ?installs, fun hsigned => ?refuses⟩
    case installs => exact hstep (immigrate_installs hv hm hsigned hok)
    case refuses =>
      obtain ⟨hslices, hslots, hhighest⟩ := w.refusing_spec rq pkg
      have hw : w.slices = t.slices ∧ w.ks = s.ks := by simp [hall, t]
      refine ⟨_, hstep (immigrate_unsigned hv hsigned), hslices.trans hw.1, ?_, by rw [hslots, hw.2], by rw [hhighest, hw.2]⟩
      rw [State.slc_of_slices (hslices.trans hw.1)]
      simp [t, State.setSlcSt]
  case settle =>
    intro s t v x rt arr p b
    refine ⟨fun tr h hlen htr hn hok hnames hsplit => ?receipt, fun tr h hlen htype htr hn hok hnames => ?refusal,
      fun h hlen htype hsigned hnew => ?package⟩
    case receipt =>
      have hnumber : t.transferNumber = some (fld b 20 5) := by rw [State.transferNumber, htr, Option.map_some, hn]
      obtain ⟨hover, hfree⟩ := State.settle_spec (t := t.drewDelay) (tr := tr) htr rt.origin
      exact ⟨completes rfl h rfl (doSliceReceipt_settles hlen hnumber hok hnames hsplit), hover, hfree⟩
    case refusal =>
      have hnumber : t.transferNumber = some (fld b 20 5) := by rw [State.transferNumber, htr, Option.map_some, hn]
      obtain ⟨hover, hquiesced⟩ := State.undoTransfer_spec htr (at8 b 25) rt.origin
      exact ⟨completes rfl h rfl (doSliceRefuse_undoes hlen htype hnumber hok hnames), hover, hquiesced⟩
    case package =>
      refine ⟨completes rfl h rfl (doSliceRefuse_usesNumber hlen htype hsigned hnew), ?_⟩
      have hks : ((t.mapKs (fun w => w.receive (slice b 4 8) (fld b 20 5))).event 0x0405 rt.origin
        (be 5 (fld b 20 5) ++ [0#8, 1#8])).ks = t.ks.receive (slice b 4 8) (fld b 20 5) := by simp
      rw [hks, KeyStore.received_receive hnew]

end Sys2Proof.Machine
end

section
/-! PROOFS. Release records that a vital port shows (chapters 07 and 08): which records a slot that opens leaves OFFERED, and the
records of a poll. -/

namespace Sys2Proof.Machine

/-! ### Release records when a slot opens (Table 08-5, R304) -/

theorem State.mem_setRecord {s : State} {r q : Rec} (h : q ∈ (s.setRecord r).recs) : q = r ∨ q ∈ s.recs := by
  obtain ⟨w, hw, rfl⟩ := List.mem_map.mp h
  split
  · exact .inl rfl
  · exact .inr hw

theorem State.not_mem_dropRecord (s : State) (r : Rec) : r ∉ (s.dropRecord r.ch r.seq).recs := by
  simp [State.dropRecord_recs]

/-- A record that rolls keeps its state, and no other record changes (R303, R306). -/
theorem State.mem_roll {s : State} {r q : Rec} (h : q ∈ (s.roll r).recs) : q ∈ s.recs ∨ q.st = r.st := by
  unfold State.roll at h
  dsimp only at h
  split at h
  · exact .inl (State.windfall_subset h)
  · split at h
    · exact .inl (by simpa using State.windfall_subset h)
    · rcases State.mem_setRecord h with rfl | h
      · exact .inr rfl
      · exact .inl (by simpa using h)

/-- What one record of the queue adds to the OFFERED records as slot `a` opens: itself, CONFIRMED for that slot. An OFFERED
record whose four slots are over goes. -/
theorem State.openRecord_offered {s : State} {a : Nat} {r q : Rec} (h : q ∈ (s.openRecord a r).recs) (ho : q.st = .offered) :
    (r.ch = q.ch ∧ r.seq = q.seq ∧ r.st = .confirmed ∧ r.target = a) ∨ (q ∈ s.recs ∧ (q = r → q.target + 4 ≠ a)) := by
  unfold State.openRecord at h
  split at h
  · next hc =>
    obtain ⟨hst, ha⟩ : r.st = .confirmed ∧ r.target = a := by simpa using hc
    rcases State.mem_setRecord h with rfl | h
    · exact .inl ⟨rfl, rfl, hst, ha⟩
    · exact .inr ⟨h, by rintro rfl; simp [ho] at hst⟩
  · split at h
    · next hc =>
      obtain ⟨hst, -⟩ : r.st = .ripe ∧ r.target = a := by simpa using hc
      rcases State.mem_roll h with h | h
      · exact .inr ⟨h, by rintro rfl; simp [ho] at hst⟩
      · simp [ho, hst] at h
    · split at h
      · exact .inr ⟨s.dropRecord_subset _ _ h, by rintro rfl; exact absurd h (s.not_mem_dropRecord q)⟩
      · next hc => exact .inr ⟨h, by rintro rfl; simpa [ho] using hc⟩

theorem State.foldl_openRecord_offered {a : Nat} {q : Rec} (ho : q.st = .offered) (rs : List Rec) {s : State}
    (h : q ∈ (rs.foldl (State.openRecord a) s).recs) :
    (∃ r ∈ rs, r.ch = q.ch ∧ r.seq = q.seq ∧ r.st = .confirmed ∧ r.target = a) ∨
      (q ∈ s.recs ∧ (q ∈ rs → q.target + 4 ≠ a)) := by
  induction rs generalizing s with
  | nil => exact .inr ⟨h, by simp⟩
  | cons r rs ih =>
    rcases ih h with ⟨c, hc, hconf⟩ | ⟨hq, hrest⟩
    · exact .inl ⟨c, List.mem_cons_of_mem r hc, hconf⟩
    · rcases State.openRecord_offered hq ho with hconf | ⟨hq, hfirst⟩
      · exact .inl ⟨r, List.mem_cons_self, hconf⟩
      · exact .inr ⟨hq, fun hm => (List.mem_cons.mp hm).elim hfirst hrest⟩

/-! ### The records that a poll shows (R273, R274, R277) -/

/-- The order in which a poll counts its INDEX. -/
def Rec.atMost (a b : Rec) : Prop := a.ch < b.ch ∨ (a.ch = b.ch ∧ a.seq ≤ b.seq)

theorem Rec.atMost_trans {a b c : Rec} (h : a.atMost b) (h' : b.atMost c) : a.atMost c := by
  unfold Rec.atMost at *
  omega

theorem mem_insertRec {r q : Rec} {l : List Rec} : q ∈ insertRec r l ↔ q = r ∨ q ∈ l := by
  induction l with
  | nil => simp [insertRec]
  | cons w l ih =>
    unfold insertRec
    split
    · simp
    · simp only [List.mem_cons, ih]
      exact or_left_comm

theorem insertRec_sorted (r : Rec) {l : List Rec} (h : l.Pairwise Rec.atMost) : (insertRec r l).Pairwise Rec.atMost := by
  induction l with
  | nil => simp [insertRec]
  | cons w l ih =>
    obtain ⟨hw, hl⟩ := List.pairwise_cons.mp h
    unfold insertRec
    split
    · next hlt =>
      have hrw : r.atMost w := by
        simp only [Bool.or_eq_true, Bool.and_eq_true, decide_eq_true_eq, beq_iff_eq] at hlt
        exact hlt.imp_right (And.imp_right le_of_lt)
      refine List.pairwise_cons.mpr ⟨fun q hq => ?_, h⟩
      rcases List.mem_cons.mp hq with rfl | hq
      · exact hrw
      · exact Rec.atMost_trans hrw (hw q hq)
    · next hge =>
      have hwr : w.atMost r := by
        simp only [Bool.or_eq_true, Bool.and_eq_true, decide_eq_true_eq, beq_iff_eq] at hge
        unfold Rec.atMost
        omega
      refine List.pairwise_cons.mpr ⟨fun q hq => ?_, ih hl⟩
      rcases mem_insertRec.mp hq with rfl | hq
      · exact hwr
      · exact hw q hq

theorem mem_foldr_insertRec {q : Rec} {l : List Rec} : q ∈ l.foldr insertRec [] ↔ q ∈ l := by
  induction l with
  | nil => rfl
  | cons r l ih => rw [List.foldr_cons, mem_insertRec, ih, List.mem_cons]

theorem foldr_insertRec_sorted (l : List Rec) : (l.foldr insertRec []).Pairwise Rec.atMost := by
  induction l with
  | nil => exact .nil
  | cons r l ih => exact insertRec_sorted r ih

/-- Settles O20: every record of the queue meets `State.openRecord_offered` in turn, and a poll sorts the records that it filters
out of the queue. -/
theorem onlyConfirmedRecordsAreOffered : Obligations.OnlyConfirmedRecordsAreOffered := by
  refine ⟨fun s a r hr ho => ?opens, fun s p slot => ⟨fun r => ?shown, foldr_insertRec_sorted _⟩⟩
  case opens =>
    rcases State.foldl_openRecord_offered ho s.recs hr with ⟨c, hc, hch, hseq, hst, ha⟩ | ⟨hq, hover⟩
    · exact ⟨c, hc, hch, hseq, .inl ⟨hst, ha⟩⟩
    · exact ⟨r, hq, rfl, rfl, .inr ⟨ho, hover hq⟩⟩
  case shown =>
    rw [State.readable, mem_foldr_insertRec, List.mem_filter]
    simp [and_assoc]

end Sys2Proof.Machine
end

section
/-! PROOFS. The vital ports (chapter 07): the frames that a port serves, the commands that they carry, and the frames and pins
that run no command. -/

namespace Sys2Proof.Machine

/-! ### The ports under other operations -/

theorem State.vp_of_ports {s t : State} (ha : s.vpA = t.vpA) (hb : s.vpB = t.vpB) (p : Port) : s.vp p = t.vp p := by
  cases p
  · exact ha
  · exact hb

@[simp] theorem State.setVp_vp_ne (s : State) {p q : Port} (v : Vp) (h : q ≠ p) : (s.setVp p v).vp q = s.vp q := by
  rw [State.setVp_vp, if_neg h]

@[simp] theorem State.setVp_setVp (s : State) (p : Port) (v w : Vp) : (s.setVp p v).setVp p w = s.setVp p w := by
  cases p <;> rfl

@[simp] theorem State.emit_vp (s : State) (o : Out) (p : Port) : (s.emit o).vp p = s.vp p :=
  State.vp_of_ports (by simp) (by simp) p

@[simp] theorem State.event_vp (s : State) (code origin : Nat) (detail : List Byte) (p : Port) :
    (s.event code origin detail).vp p = s.vp p := State.vp_of_ports (by simp) (by simp) p

@[simp] theorem State.fire_vp (s : State) (i : Nat) (p : Port) : (s.fire i).vp p = s.vp p :=
  State.vp_of_ports (by simp) (by simp) p

@[simp] theorem State.answerFrame_vp_ne (s : State) {p q : Port} (stored : Bool) (r : List Byte) (h : q ≠ p) :
    (s.answerFrame p stored r).vp q = s.vp q := by simp [State.answerFrame, h]

/-- An answered frame changes the response of its port and the stored response of L alone. -/
@[simp] theorem State.answerFrame_vp (s : State) (p : Port) (stored : Bool) (r : List Byte) :
    (s.answerFrame p stored r).vp p =
      { s.vp p with resp := r, stored := if stored && (s.vp p).session == .open' then r else (s.vp p).stored } := by
  simp [State.answerFrame]

/-! ### A started frame (R254, R264, R269) -/

@[simp] theorem State.startFrame_vp (s : State) (p : Port) (clk : Bool) : (s.startFrame p clk).vp p =
    { s.vp p with own := (s.vp p).nextOwn, ownSent := some (s.vp p).nextOwn, badPrev := false, clkMode := clk, stretch := true } := by
  simp [State.startFrame]

@[simp] theorem Vp.checkEcho_frame (v : Vp) (f : Frame) (sent : Option Nat) : (v.checkEcho f sent).mode = v.mode ∧
    (v.checkEcho f sent).session = v.session ∧ (v.checkEcho f sent).number = v.number ∧ (v.checkEcho f sent).last = v.last := by
  unfold Vp.checkEcho
  split <;> exact ⟨rfl, rfl, rfl, rfl⟩

/-- The session of a port is untouched until its frame is judged. -/
@[simp] theorem State.begun_session (s : State) (p : Port) (f : Frame) : ((s.begun p f).vp p).mode = (s.vp p).mode ∧
    ((s.begun p f).vp p).session = (s.vp p).session ∧ ((s.begun p f).vp p).number = (s.vp p).number ∧
    ((s.begun p f).vp p).last = (s.vp p).last := by
  simp [State.begun]

@[simp] theorem State.begun_vp_ne (s : State) {p q : Port} (f : Frame) (h : q ≠ p) : (s.begun p f).vp q = s.vp q := by
  simp [State.begun, State.startFrame, h]

@[simp] theorem State.begun_ahead (s : State) (p : Port) (f : Frame) :
    ((s.begun p f).vp p).ahead f = (s.vp p).ahead f := by simp [Vp.ahead]

/-- A good frame on a port that takes it comes to step 3 of Table 07-7. -/
theorem State.frame_started {s : State} {p : Port} {f : Frame} {k : FrameKind} (hr : s.rdyHigh p = true)
    (hv : (s.vp p).vio = true) (hk : (s.vp p).kind f = k) (hgood : k ≠ .bad) (serve : State → State) :
    s.frame p f serve = (s.begun p f).stepThree p f k serve := by
  subst hk
  unfold State.frame
  rw [if_neg (by simp [hr, hv])]
  dsimp only
  split
  · next h => exact absurd h hgood
  · rfl

/-! ### Step 3 of Table 07-7: the session of a port (Table 07-8) -/

section
variable {s : State} {p : Port} {f : Frame} {k : FrameKind} (serve : State → State)

theorem State.stepThree_noSession (hm : (s.vp p).mode ≠ .guarded) : s.stepThree p f k serve = serve s := by
  simp [State.stepThree, hm]

theorem State.stepThree_open (hm : (s.vp p).mode = .guarded) :
    s.stepThree p f (.request (Op.code .vpOpen)) serve = serve (s.setVp p { s.vp p with misses := 0 }) := by
  simp [State.stepThree, hm]

theorem State.stepThree_new (hm : (s.vp p).mode = .guarded) (hs : (s.vp p).session = .open')
    (ho : k ≠ .request (Op.code .vpOpen)) (hr : k ≠ .request (Op.code .vpResync)) (h1 : 1 ≤ (s.vp p).ahead f)
    (h3 : (s.vp p).ahead f ≤ 3) :
    s.stepThree p f k serve = serve (s.setVp p ((s.vp p).advance (fld f.bytes 2 2) ((s.vp p).ahead f))) := by
  unfold Vp.ahead at *
  simp [State.stepThree, hm, hs, ho, hr, h3, Nat.one_le_iff_ne_zero.mp h1]

theorem State.stepThree_again (hm : (s.vp p).mode = .guarded) (hs : (s.vp p).session = .open')
    (ho : k ≠ .request (Op.code .vpOpen)) (hr : k ≠ .request (Op.code .vpResync)) (h0 : (s.vp p).ahead f = 0) :
    s.stepThree p f k serve = s.setVp p (s.vp p).again := by
  unfold Vp.ahead at h0
  simp [State.stepThree, hm, hs, ho, hr, h0]

theorem State.stepThree_resyncOpen (hm : (s.vp p).mode = .guarded) (hs : (s.vp p).session = .open') :
    s.stepThree p f (.request (Op.code .vpResync)) serve =
      serve (s.setVp p { s.vp p with last := fld f.bytes 2 2, misses := 0 }) := by
  have hne : Op.code .vpResync ≠ Op.code .vpOpen := by decide
  simp [State.stepThree, hm, hs, hne]

theorem State.stepThree_resyncLost (hm : (s.vp p).mode = .guarded) (hs : (s.vp p).session = .lost) :
    s.stepThree p f (.request (Op.code .vpResync)) serve = serve s := by
  have hne : Op.code .vpResync ≠ Op.code .vpOpen := by decide
  simp [State.stepThree, hm, hs, hne]

/-- An IDLE frame is answered without a session as well (log entry 153). -/
theorem State.stepThree_idle (hm : (s.vp p).mode = .guarded) (hs : (s.vp p).session ≠ .open') :
    s.stepThree p f .idle serve = serve s := by
  cases h : (s.vp p).session with
  | open' => exact absurd h hs
  | closed => simp [State.stepThree, hm, h]
  | lost => simp [State.stepThree, hm, h]

end

theorem Op.code_injective : Function.Injective Op.code := fun a b h =>
  Option.some.inj (by rw [← ofCode_code a, ← ofCode_code b, h])

theorem request_kind_ne {o q : Op} (h : o ≠ q) : FrameKind.request o.code ≠ .request q.code := fun hk =>
  h (Op.code_injective (FrameKind.request.inj hk))

/-! ### Requests on a port (Table 07-7, steps 4 to 7) -/

section
variable {s t : State} {p : Port} {f : Frame} {o : Op}

/-- A frame that runs is served in the state that `FrameRuns` names. -/
theorem FrameRuns.served (h : FrameRuns s p f o t) (serve : State → State) : s.frame p f serve = serve t := by
  rw [State.frame_started h.ready h.vio h.kind (by simp)]
  rcases h.session with ⟨hm, rfl⟩ | ⟨hm, rfl, rfl⟩ | ⟨hm, hs, ho, hr, h1, h3, rfl⟩ | ⟨hm, hs, rfl, rfl⟩ | ⟨hm, hs, rfl, rfl⟩
  · exact State.stepThree_noSession serve (by simpa using hm)
  · exact State.stepThree_open serve (by simpa using hm)
  · rw [State.stepThree_new serve (by simpa using hm) (by simpa using hs) (request_kind_ne ho) (request_kind_ne hr)
      (by simpa using h1) (by simpa using h3), State.begun_ahead]
  · exact State.stepThree_resyncOpen serve (by simpa using hm) (by simpa using hs)
  · exact State.stepThree_resyncLost serve (by simpa using hm) (by simpa using hs)

/-- Until a request runs, only its own port has changed, and that not in its session number. -/
theorem FrameRuns.ports (h : FrameRuns s p f o t) : (t.vp p).number = (s.vp p).number ∧ ∀ q, q ≠ p → t.vp q = s.vp q := by
  rcases h.session with ⟨-, rfl⟩ | ⟨-, -, rfl⟩ | ⟨-, -, -, -, -, -, rfl⟩ | ⟨-, -, -, rfl⟩ | ⟨-, -, -, rfl⟩ <;>
    simp +contextual [Vp.advance]

theorem FrameRuns.isMine (h : FrameRuns s p f o t) {mine : Op → List Byte → Bool} (hm : mine o (slice f.bytes 10 50) = true) :
    (s.vp p).isMine f mine = true := by simp [Vp.isMine, h.kind, ofCode_code, hm]

theorem Vp.code_of_kind {v : Vp} {n : Nat} (h : v.kind f = .request n) : fld f.bytes 6 2 = n := by
  unfold Vp.kind at h
  dsimp only at h
  split at h
  · cases h
  · split at h
    · cases h
    · split at h
      · cases h
      · exact FrameKind.request.inj h

/-- A request that passes steps 4 to 7 runs. -/
theorem FrameRuns.runs (h : FrameRuns s p f o t) {x : Ext} (hx : x.intact = true) (run : Rq → State → Act)
    (answer : Rq → Nat → Act → State) : t.serveRequest p f x run answer =
      answer (t.frameRequest p f o x) (fld f.bytes 2 2) (run (t.frameRequest p f o x) t) := by
  have hfree : (t.portPending p && o.code != Op.code .vpPoll && o.code != Op.code .vpOpen) = false := by
    cases hp : t.portPending p with
    | false => rfl
    | true => rcases h.free hp with rfl | rfl <;> simp
  unfold State.serveRequest
  simp only [Vp.code_of_kind h.kind, hfree, ofCode_code, h.checks, Bool.false_eq_true, if_false]
  rw [sound_intact (rq := t.vitalRq (.vital p (fld f.bytes 2 2)) o f x) hx]
  rfl

/-- A request row whose command ends at once on a port: its reply is stored for FETCH and answers the frame. -/
theorem FrameRuns.completes (h : FrameRuns s p f o t) {c : Instr} {x : Ext} {mine : Op → List Byte → Bool}
    {run : Rq → State → Act} {payload : List Byte} {u : State} (hc : exec c s = .next (s.request (.vital p f) x mine run))
    (hlate : x.late = false) (hx : x.intact = true) (hm : mine o (slice f.bytes 10 50) = true)
    (hr : run (t.frameRequest p f o x) t = .done .ok 0 payload u) : CompletesOnPort c s p f o payload u := by
  show exec c s = _
  rw [hc, State.request, State.vitalRequest, if_pos (h.isMine hm), h.served, h.runs hx, hr]
  simp [portReply, State.frameRequest, State.vitalRq, hlate, Status.code]

end

/-! ### Fields of the payload that a frame carries (R257) -/

theorem slice_slice {b : List Byte} {i n j k : Nat} (h : j + k ≤ n) : slice (slice b i n) j k = slice b (i + j) k := by
  simp only [slice, List.drop_take, List.take_take, List.drop_drop]
  rw [Nat.min_eq_left (by omega)]

theorem fld_slice {b : List Byte} {i n j k : Nat} (h : j + k ≤ n) : fld (slice b i n) j k = fld b (i + j) k := by
  rw [fld, slice_slice h]
  rfl

theorem at8_slice {b : List Byte} {i n j : Nat} (h : j < n) : at8 (slice b i n) j = at8 b (i + j) := by
  simp [at8, slice, List.getElem?_take_of_lt h]

theorem zeroAt_slice {b : List Byte} {i n j k : Nat} (h : j + k ≤ n) : zeroAt (slice b i n) j k = zeroAt b (i + j) k := by
  rw [zeroAt, slice_slice h]
  rfl

section
variable {s t : State} {p : Port} {f : Frame} {x : Ext}

theorem frameRequest_body (t : State) (p : Port) (f : Frame) (o : Op) (x : Ext) :
    (t.frameRequest p f o x).body = slice f.bytes 10 o.vitalLen := rfl

theorem frameRequest_length {o : Op} (hlen : f.bytes.length = 64) (ho : o.vitalLen ≤ 54) :
    (t.frameRequest p f o x).body.length = o.vitalLen := slice_length (by omega)

/-! ### Commands on a port (Table 07-6) -/

theorem doSysInfo_onPort : doSysInfo (t.frameRequest p f .sysInfo x) t = .done .ok 0 t.infoPayload t :=
  guard_none (by simp [frameRequest_body, Op.vitalLen, slice])

theorem doStampRead_onPort : doStampRead (t.frameRequest p f .stampRead x) t =
    .done .ok 0 ([byte t.ph.st.code, byte t.ph.band] ++ be 2 t.ph.freq ++
      be 5 (if t.ph.resumed then t.ph.resume else 0) ++ zeros 3 ++ t.ph.stamp) t :=
  guard_none (by simp [frameRequest_body, Op.vitalLen, slice])

theorem doLogRead_onPort (hlen : f.bytes.length = 64) (hz : zeroAt f.bytes 16 2 = true) (h1 : 1 ≤ at8 f.bytes 15)
    (h125 : at8 f.bytes 15 ≤ 125) : doLogRead (t.frameRequest p f .logRead x) t =
      .done .ok 0 (t.logPayload (fld f.bytes 10 5) (at8 f.bytes 15)) t := by
  have hbody := frameRequest_length (t := t) (p := p) (x := x) (o := .logRead) hlen (by decide)
  have hfrom : fld (t.frameRequest p f .logRead x).body 0 5 = fld f.bytes 10 5 := fld_slice (by decide)
  have hcount : at8 (t.frameRequest p f .logRead x).body 5 = at8 f.bytes 15 := at8_slice (by decide)
  have hzero : zeroAt (t.frameRequest p f .logRead x).body 6 2 = true := (zeroAt_slice (by decide)).trans hz
  refine (guard_none ?_).trans (by rw [hfrom, hcount])
  simp only [firstFail_append_none, firstFail_needLength, firstFail_needZero, firstFail_cons_none, hcount,
    Bool.or_eq_false_iff, decide_eq_false_iff_not, firstFail_nil]
  exact ⟨⟨hbody, hzero⟩, ⟨by omega, by omega⟩, trivial⟩

/-! ### Sessions (R270, R271) -/

/-- The state that VP.OPEN leaves on its port, whose frame carried ALIVE `alive`. -/
def State.opened (s : State) (p : Port) (alive : Nat) : State :=
  let w := s.closeSession p
  let number := fromBe (w.drawBytes 4)
  let v := (w.drewBytes 4).drewBytes 2
  ((v.setVp p { v.vp p with
      session := .open', number := number, last := alive, own := fromBe ((w.drewBytes 4).drawBytes 2), misses := 0 }).event 0x0501
    (Route.vital p alive).origin (portCode p :: be 4 number)).fire 6

theorem State.closeSession_vp (s : State) (p : Port) :
    (s.closeSession p).vp p = { s.vp p with reply := none, ready := none, held := none, stored := zeros 60 } := by
  cases p <;> rfl

theorem State.closeSession_vp_ne (s : State) {p q : Port} (h : q ≠ p) : (s.closeSession p).vp q = s.vp q := by
  unfold State.closeSession
  rw [State.setVp_vp_ne _ _ h]
  cases q <;> rfl

/-- A port whose session closes has no request in flight (R270). -/
theorem State.closeSession_live {s : State} {p : Port} {l : Live} (h : l ∈ (s.closeSession p).live) (a : Nat) :
    l.rq.route ≠ .vital p a := by
  intro hr
  simp [State.closeSession, hr] at h

theorem State.drewBytes_vp (s : State) (n : Nat) (p : Port) : (s.drewBytes n).vp p = s.vp p := by cases p <;> rfl

theorem State.opened_vp (s : State) (p : Port) (alive : Nat) : (s.opened p alive).vp p = { s.vp p with
    reply := none, ready := none, held := none, stored := zeros 60, session := .open', number := fromBe (s.drawBytes 4),
    last := alive, own := fromBe (((s.closeSession p).drewBytes 4).drawBytes 2), misses := 0 } := by
  have hdrawn : (s.closeSession p).drawBytes 4 = s.drawBytes 4 := by simp [State.drawBytes]
  simp [State.opened, State.drewBytes_vp, State.closeSession_vp, hdrawn]

theorem State.opened_vp_ne (s : State) {p q : Port} (alive : Nat) (h : q ≠ p) : (s.opened p alive).vp q = s.vp q := by
  simp [State.opened, h, State.drewBytes_vp, State.closeSession_vp_ne]

theorem State.opened_live {s : State} {p : Port} {alive : Nat} {l : Live} (h : l ∈ (s.opened p alive).live) (a : Nat) :
    l.rq.route ≠ .vital p a := State.closeSession_live (by simpa [State.opened] using h) a

theorem doVpOpen_opens (hlen : f.bytes.length = 64) (hi : t.ph.issuing = true) (hd : t.pow.drbgStop = false) :
    ∃ payload, doVpOpen (t.frameRequest p f .vpOpen x) t = .done .ok 0 payload (t.opened p (fld f.bytes 2 2)) := by
  have hbody := frameRequest_length (t := t) (p := p) (x := x) (o := .vpOpen) hlen (by decide)
  exact ⟨_, guard_none (by simp [hbody, needStamp_issuing hi, hd, Op.vitalLen])⟩

/-- The state that VP.RESYNC leaves on its port. -/
def State.resynced (s : State) (p : Port) (alive : Nat) : State :=
  ((s.setVp p { s.vp p with session := .open', last := alive, misses := 0 }).event 0x0502 (Route.vital p alive).origin
    (portCode p :: be 4 (s.vp p).number)).fire 6

theorem doVpResync_resyncs (hlen : f.bytes.length = 64) (hi : t.ph.issuing = true)
    (hn : fld f.bytes 10 4 = (t.vp p).number) :
    ∃ payload, doVpResync (t.frameRequest p f .vpResync x) t = .done .ok 0 payload (t.resynced p (fld f.bytes 2 2)) := by
  have hbody := frameRequest_length (t := t) (p := p) (x := x) (o := .vpResync) hlen (by decide)
  have hnum : fld (t.frameRequest p f .vpResync x).body 0 4 = (t.vp p).number := (fld_slice (by decide)).trans hn
  have hport : (t.frameRequest p f .vpResync x).route.port = p := rfl
  exact ⟨_, guard_none (by simp [hbody, needStamp_issuing hi, hnum, hport, Op.vitalLen])⟩

/-! ### Polls (R272, R275) -/

theorem doVpPoll_passes (hlen : f.bytes.length = 64) (hi : t.ph.issuing = true) (hslot : fld f.bytes 10 6 < 2 ^ 46)
    (hindex : fld f.bytes 16 2 ≤ 1023) : doVpPoll (t.frameRequest p f .vpPoll x) t = .done .ok 0 [] t := by
  have hbody := frameRequest_length (t := t) (p := p) (x := x) (o := .vpPoll) hlen (by decide)
  have h0 : fld (t.frameRequest p f .vpPoll x).body 0 6 = fld f.bytes 10 6 := fld_slice (by decide)
  have h6 : fld (t.frameRequest p f .vpPoll x).body 6 2 = fld f.bytes 16 2 := fld_slice (by decide)
  refine guard_none ?_
  simp only [firstFail_append_none, firstFail_needLength, needStamp_issuing hi, firstFail_cons_none, h0, h6,
    decide_eq_false_iff_not, firstFail_nil]
  exact ⟨⟨hbody, trivial⟩, by omega, by omega, trivial⟩

/-- A poll that passes its checks is answered by `State.poll`. -/
theorem FrameRuns.polls (h : FrameRuns s p f .vpPoll t) (hx : x.intact = true) (hlen : f.bytes.length = 64)
    (hi : t.ph.issuing = true) (hslot : fld f.bytes 10 6 < 2 ^ 46) (hindex : fld f.bytes 16 2 ≤ 1023) :
    exec (.vpPoll (.vital p f) ⟨x, none⟩) s = .next (t.poll p (fld f.bytes 10 6) (fld f.bytes 16 2) (fld f.bytes 2 2)) := by
  have h0 : fld (t.frameRequest p f .vpPoll x).body 0 6 = fld f.bytes 10 6 := fld_slice (by decide)
  have h6 : fld (t.frameRequest p f .vpPoll x).body 6 2 = fld f.bytes 16 2 := fld_slice (by decide)
  show execVpPoll (.vital p f) ⟨x, none⟩ s = _
  unfold execVpPoll
  dsimp only
  rw [if_pos (h.isMine rfl), h.served, h.runs hx, doVpPoll_passes hlen hi hslot hindex]
  simp [answerPoll, State.spoil, h0, h6]

theorem State.poll_answers {s : State} {slot : Nat} (p : Port) (index alive : Nat) (h : s.ph.opensSoon slot = false) :
    let w := s.setVp p { s.vp p with pollSlot := slot, pollValid := true, reply := none }
    s.poll p slot index alive = w.answerFrame p true (w.pollResponse p slot index alive) := by
  simp [State.poll, h]

theorem State.poll_holds {s : State} {slot : Nat} (p : Port) (index alive : Nat) (h : s.ph.opensSoon slot = true) :
    s.poll p slot index alive = s.setVp p { s.vp p with
      pollSlot := slot, pollValid := true, reply := none, held := some (slot, index, alive) } := by
  simp [State.poll, h]

theorem execHeldPollResponse_opened {s : State} {p : Port} {slot index alive : Nat}
    (h : (s.vp p).held = some (slot, index, alive)) (hopen : slot ≤ s.ph.slot) : execHeldPollResponse ⟨p, none⟩ s =
      .next ((s.setVp p { s.vp p with held := none }).answerFrame p true (s.pollResponse p slot index alive)) := by
  simp [execHeldPollResponse, h, Nat.not_lt.mpr hopen, State.spoil]

theorem execHeldPollResponse_waits {s : State} {p : Port} {slot index alive : Nat}
    (h : (s.vp p).held = some (slot, index, alive)) (hwait : s.ph.slot < slot) : execHeldPollResponse ⟨p, none⟩ s = .next s := by
  simp [execHeldPollResponse, h, hwait]

end

/-- Settles O52: each command runs by `FrameRuns.completes` or `FrameRuns.polls`, and its own part by the lemma about it. -/
theorem vitalPortsCarryCommands : Obligations.VitalPortsCarryCommands := by
  refine ⟨fun s t p f x hlate hx => ?status, fun s t p f x hlate hx hlen => ⟨?opens, ?resyncs⟩, ?polls, ?held⟩
  case status =>
    exact ⟨fun h => h.completes rfl hlate hx rfl doSysInfo_onPort, fun h => h.completes rfl hlate hx rfl doStampRead_onPort,
      fun h hlen hz h1 h125 => h.completes rfl hlate hx rfl (doLogRead_onPort hlen hz h1 h125)⟩
  case opens =>
    intro h hi hd
    obtain ⟨payload, hrun⟩ := doVpOpen_opens (p := p) (x := x) hlen hi hd
    refine ⟨_, h.completes rfl hlate hx rfl hrun, ?_, ?_, ?_, ?_, ?_, ?_, fun l hl a => ?live, fun q hq => ?other⟩
    case live => exact State.opened_live (by simpa using hl) a
    case other => simp [hq, State.opened_vp_ne, h.ports.2]
    all_goals simp [State.opened_vp]
  case resyncs =>
    intro h hi hn
    obtain ⟨payload, hrun⟩ := doVpResync_resyncs (x := x) hlen hi hn
    refine ⟨_, h.completes rfl hlate hx rfl hrun, ?_, ?_, ?_, ?_, fun q hq => ?other⟩
    case other => simp [hq, State.resynced, h.ports.2]
    all_goals simp [State.resynced, h.ports.1]
  case polls =>
    intro s t p f x slot index w h hx hlen hi hslot hindex
    refine ⟨fun hsoon => ?_, fun hsoon => ?_⟩
    · rw [h.polls hx hlen hi hslot hindex]
      exact congrArg _ (State.poll_answers p index _ hsoon)
    · rw [h.polls hx hlen hi hslot hindex]
      exact congrArg _ (State.poll_holds p index _ hsoon)
  case held =>
    exact fun s p slot index alive h => ⟨execHeldPollResponse_opened h, execHeldPollResponse_waits h⟩

/-! ### IDLE and FETCH frames (R254, R262, R263) -/

/-- The session of a port admits an IDLE or FETCH frame, which is then answered in state `t` (R264-R267; log entry 153). -/
def State.Admits (s : State) (p : Port) (f : Frame) (t : State) : Prop :=
  ((s.vp p).mode ≠ .guarded ∧ t = s.begun p f) ∨
  ((s.vp p).mode = .guarded ∧ (s.vp p).session = .open' ∧ 1 ≤ (s.vp p).ahead f ∧ (s.vp p).ahead f ≤ 3 ∧
    t = (s.begun p f).setVp p (((s.begun p f).vp p).advance (fld f.bytes 2 2) ((s.vp p).ahead f))) ∨
  ((s.vp p).mode = .guarded ∧ (s.vp p).session ≠ .open' ∧ (s.vp p).kind f = .idle ∧ t = s.begun p f)

section
variable {s t : State} {p : Port} {f : Frame}

theorem State.Admits.served (h : s.Admits p f t) (hr : s.rdyHigh p = true) (hv : (s.vp p).vio = true)
    (hk : (s.vp p).kind f = .idle ∨ (s.vp p).kind f = .fetch) (serve : State → State) : s.frame p f serve = serve t := by
  have hreq : ∀ n, (s.vp p).kind f ≠ .request n := by rcases hk with hk | hk <;> simp [hk]
  have hgood : (s.vp p).kind f ≠ .bad := by rcases hk with hk | hk <;> simp [hk]
  rw [State.frame_started hr hv rfl hgood]
  rcases h with ⟨hm, rfl⟩ | ⟨hm, hs, h1, h3, rfl⟩ | ⟨hm, hs, hidle, rfl⟩
  · exact State.stepThree_noSession serve (by simpa using hm)
  · rw [State.stepThree_new serve (by simpa using hm) (by simpa using hs) (hreq _) (hreq _) (by simpa using h1)
      (by simpa using h3), State.begun_ahead]
  · rw [hidle]
    exact State.stepThree_idle serve (by simpa using hm) (by simpa using hs)

theorem State.Admits.idleFrame (h : s.Admits p f t) (hr : s.rdyHigh p = true) (hv : (s.vp p).vio = true)
    (hk : (s.vp p).kind f = .idle) : exec (.idleFrame p f) s = .next (t.serveIdle p f) := by
  show execIdleFrame p f s = _
  rw [execIdleFrame, if_pos (by simp [hk]), h.served hr hv (.inl hk)]

theorem State.Admits.fetch (h : s.Admits p f t) (hr : s.rdyHigh p = true) (hv : (s.vp p).vio = true)
    (hk : (s.vp p).kind f = .fetch) : exec (.fetch p f) s = .next (t.serveFetch p f) := by
  show execFetch p f s = _
  rw [execFetch, if_pos (by simp [hk]), h.served hr hv (.inr hk)]

theorem firstFail_idle (hc : firstFail ((t.vp p).frameChecks f) = none) (hz : zeroAt f.bytes 6 4 = true) :
    firstFail ((t.vp p).frameChecks f ++ [(!zeroAt f.bytes 6 4, .unsupported, 0)]) = none :=
  firstFail_append_none.mpr ⟨hc, by simp [hz]⟩

theorem State.serveIdle_none (hc : firstFail ((t.vp p).frameChecks f) = none) (hz : zeroAt f.bytes 6 4 = true)
    (hready : (t.vp p).ready = none) : t.serveIdle p f = t.answerFrame p true (t.noneResponse p) := by
  simp only [State.serveIdle, firstFail_idle hc hz, hready]

theorem State.serveIdle_ready {r : VReply} (hc : firstFail ((t.vp p).frameChecks f) = none) (hz : zeroAt f.bytes 6 4 = true)
    (hready : (t.vp p).ready = some r) : t.serveIdle p f =
      (t.setVp p { t.vp p with ready := none }).answerFrame p true (r.part 0 r.alive) := by
  simp only [State.serveIdle, firstFail_idle hc hz, hready]

theorem State.serveFetch_part {r : VReply} {o : Op} (hc : firstFail ((t.vp p).frameChecks f) = none)
    (hfree : t.portPending p = false) (ho : Op.ofCode (fld f.bytes 6 2) = some o)
    (hp : firstFail (t.portChecks (.vital p (fld f.bytes 2 2)) p o) = none) (hr : (t.vp p).reply = some r)
    (hpart : fld f.bytes 8 2 < r.parts) :
    t.serveFetch p f = t.answerFrame p true (r.part (fld f.bytes 8 2) (fld f.bytes 2 2)) := by
  have hchecks := firstFail_append_none.mpr ⟨hp, hc⟩
  simp [State.serveFetch, hfree, ho, hchecks, hr, Nat.not_le.mpr hpart]

/-! ### Frames that are not started, ignored or sent again (R246, R247, R267, R268) -/

theorem State.fire_causes (s : State) (i : Nat) : bit (s.fire i).hp.causes i = true := by
  unfold State.fire
  split
  · next h => exact h
  · have hmsix (u : State) (v : Nat) : (u.msix v).hp.causes = u.hp.causes := by
      unfold State.msix
      (repeat' split) <;> rfl
    simp [hmsix, bit_eq_testBit, testBit_setBit]

theorem execVpFrameUnstarted_zeros (hv : (s.vp p).vio = true) (hm : s.pow.main = true)
    (hlow : s.rdyHigh p = false ∨ (s.vp p).stretch = true) : execVpFrameUnstarted p s =
      .next ((s.setVp p { s.vp p with ignored := sat 16 ((s.vp p).ignored + 1), badPrev := true }).emit
        (.vital p (zeros 64))) := by
  rcases hlow with hlow | hlow <;> simp [execVpFrameUnstarted, State.unstarted, hlow, hv, hm]

theorem execSelNLowTimeout_started (hr : s.rdyHigh p = true) (hv : (s.vp p).vio = true) (clk : Bool) :
    execSelNLowTimeout ⟨p, clk⟩ s = .next ((s.startFrame p clk).ignoreFrame p) := by
  simp [execSelNLowTimeout, hr, hv]

/-- The first and the second ignored frame in a row are counted. -/
theorem State.ignoreFrame_misses (hm : (s.vp p).mode = .guarded) (hs : (s.vp p).session = .open') (h : (s.vp p).misses < 2) :
    (s.ignoreFrame p).vp p = { s.vp p with
      ignored := sat 16 ((s.vp p).ignored + 1), badPrev := true, resp := s.noneResponse p, misses := (s.vp p).misses + 1 } := by
  simp [State.ignoreFrame, hm, hs, h]

/-- The third ignored frame in a row loses the session and fires vector 71. -/
theorem State.ignoreFrame_loses (hm : (s.vp p).mode = .guarded) (hs : (s.vp p).session = .open') (h : 2 ≤ (s.vp p).misses) :
    ((s.ignoreFrame p).vp p).session = .lost ∧ bit (s.ignoreFrame p).hp.causes 6 = true := by
  have hmiss : ¬(s.vp p).misses < 2 := by omega
  simp only [State.ignoreFrame, hm, hs, hmiss, bne_self_eq_false, Bool.or_self, Bool.false_eq_true, if_false]
  exact ⟨by simp, State.fire_causes _ 6⟩

theorem State.vitalRequest_again {o : Op} (hr : s.rdyHigh p = true) (hv : (s.vp p).vio = true)
    (hm : (s.vp p).mode = .guarded) (hs : (s.vp p).session = .open') (h0 : (s.vp p).ahead f = 0)
    (hk : (s.vp p).kind f = .request o.code) (hopen : o ≠ .vpOpen) (hresync : o ≠ .vpResync) (x : Ext)
    {mine : Op → List Byte → Bool} (hmine : mine o (slice f.bytes 10 50) = true) (run : Rq → State → Act) :
    s.vitalRequest p f x mine run = (s.begun p f).setVp p ((s.begun p f).vp p).again := by
  rw [State.vitalRequest, if_pos (by simp [Vp.isMine, hk, ofCode_code, hmine]), State.frame_started hr hv hk (by simp)]
  exact State.stepThree_again _ (by simpa using hm) (by simpa using hs) (request_kind_ne hopen) (request_kind_ne hresync)
    (by simpa using h0)

/-! ### Late replies (R263) -/

theorem Live.isLate_route {l : Live} (h : l.isLate p = true) : ∃ alive, l.rq.route = .vital p alive := by
  unfold Live.isLate at h
  split at h
  · next q a _ _ _ hroute _ => exact ⟨a, by rw [hroute, beq_iff_eq.mp h]⟩
  · exact absurd h Bool.false_ne_true

theorem State.complete_onPort {rq : Rq} {alive : Nat} (hrt : rq.route = .vital p alive) (s : State) (ev : Bool) (st : Status)
    (d : Nat) (b : List Byte) : ((s.complete rq ev st d b).vp p).ready.isSome = true ∧
      (s.complete rq ev st d b).live = s.live := by
  simp [State.complete, hrt, Route.ctx?, State.deliver]

/-- A late reply that becomes ready ends its request. -/
theorem State.finish_late {l : Live} {w : State} {st : Status} {d : Nat} {b : List Byte}
    (hl : s.takeLive (Live.isLate p) = some (l, w)) (hj : l.job = .late st d b) (ho : l.rq.op ≠ .vpOpen) :
    s.finish (Live.isLate p) lateReply = (w.closePart l.rq st).complete l.rq (w.evr.next != s.evr.next) st d b := by
  simp [State.finish, hl, lateReply, hj, ho]

theorem execPendingReplyReady_late {l : Live} {w : State} {st : Status} {d : Nat} {b : List Byte}
    (hl : s.takeLive (Live.isLate p) = some (l, w)) (hj : l.job = .late st d b) (ho : l.rq.op ≠ .vpOpen) :
    ∃ u alive, execPendingReplyReady p s = .next u ∧ l.rq.route = .vital p alive ∧ (u.vp p).ready.isSome = true ∧
      u.live.length < s.live.length ∧ u.ks = s.ks := by
  obtain ⟨hmem, hlate, rfl⟩ := takeLive_some hl
  obtain ⟨alive, hrt⟩ := Live.isLate_route hlate
  obtain ⟨hready, hlive⟩ := State.complete_onPort hrt (({ s with live := s.live.erase l } : State).closePart l.rq st)
    (s.evr.next != s.evr.next) st d b
  refine ⟨_, alive, congrArg Host.Outcome.next (State.finish_late hl hj ho), hrt, hready, ?_, by simp⟩
  have hleft : (({ s with live := s.live.erase l } : State).closePart l.rq st).live = s.live.erase l := by simp
  rw [hlive, hleft, List.length_erase_of_mem hmem]
  exact Nat.sub_lt (List.length_pos_of_mem hmem) Nat.one_pos

end

/-- Settles O53: a frame that the port serves by `State.Admits.idleFrame` or `State.Admits.fetch`, any other by the lemma about
what becomes of it. -/
theorem framesThatRunNoCommand : Obligations.FramesThatRunNoCommand := by
  refine ⟨fun s t p f hr hv hsession hc => ?served, fun s p hv => ?ignored, fun s p f x o hr hv hm hs h0 hk ho => ?again,
    fun s p => ⟨fun l w st d b hl hj ho => execPendingReplyReady_late hl hj ho, rfl, rfl⟩⟩
  case served =>
    have hadmits : s.Admits p f t := hsession
    refine ⟨fun hk hz hready => ?none, fun r hk hz hready => ?ready, fun r o hk hfree ho hp hreply hpart => ?fetch⟩
    case none => rw [hadmits.idleFrame hr hv hk, State.serveIdle_none hc hz hready]
    case ready => rw [hadmits.idleFrame hr hv hk, State.serveIdle_ready hc hz hready]
    case fetch => rw [hadmits.fetch hr hv hk, State.serveFetch_part hc hfree ho hp hreply hpart]
  case ignored =>
    refine ⟨fun hmain hlow => ⟨_, execVpFrameUnstarted_zeros hv hmain hlow, ?_⟩,
      fun hr hm hs hmiss clk => ⟨_, execSelNLowTimeout_started hr hv clk, ?_⟩,
      fun hr hm hs hmiss clk => ⟨_, execSelNLowTimeout_started hr hv clk, ?_⟩⟩
    · exact ⟨by simp [sat], by simp, by simp [State.emit], by simp⟩
    · rw [State.ignoreFrame_misses (by simpa using hm) (by simpa using hs) (by simpa using hmiss)]
      exact ⟨by simp, by simpa using hs, by simp⟩
    · exact State.ignoreFrame_loses (by simpa using hm) (by simpa using hs) (by simpa using hmiss)
  case again =>
    subst ho
    exact congrArg Host.Outcome.next (State.vitalRequest_again hr hv hm hs h0 hk (by decide) (by decide) x rfl doLogRead)

end Sys2Proof.Machine
end

section
/-! PROOFS. Field channels (chapter 08): the sequence window of a channel, the two forms of FIELD.COMMAND, and the decisions on
a release record. -/

namespace Sys2Proof.Machine

/-! ### The sequence window (R299, R316) -/

/-- Whether MASK shows a number below TOP as accepted. -/
def Chan.shows (c : Chan) (seq : Nat) : Bool := c.mask.testBit (c.top - 1 - seq)

/-- A number is refused when it lies below TOP and below the window, or MASK shows it, or the last number has been accepted. -/
theorem Chan.duplicate_isSome {c : Chan} {seq : Nat} : (c.duplicate seq).isSome = true ↔
    seq < c.top ∧ (64 ≤ c.top - 1 - seq ∨ c.shows seq = true ∨ 2 ^ 40 ≤ c.top) := by
  rw [Chan.duplicate, Chan.shows, ← bit_eq_testBit]
  generalize 2 ^ 40 = last
  rcases Nat.lt_or_ge seq c.top with h | h
  · rw [if_neg (Nat.not_le.mpr h)]
    dsimp only
    (repeat' split) <;> simp [*]
  · simp [h, Nat.not_lt.mpr h]

theorem Chan.ripen_top (c : Chan) (seq : Nat) : (c.ripen seq).top = max c.top (seq + 1) := by
  unfold Chan.ripen
  split <;> dsimp only <;> omega

/-- In the window of a channel that ripens a number, MASK shows that number and every number that it showed before. -/
theorem Chan.ripen_shows {c : Chan} {a b : Nat} (hw : (c.ripen b).top - 1 - a < 64)
    (h : a = b ∨ (a < c.top ∧ c.shows a = true)) : (c.ripen b).shows a = true := by
  unfold Chan.shows at h ⊢
  unfold Chan.ripen at hw ⊢
  split
  case isTrue htop =>
    rw [if_pos htop] at hw
    dsimp only at hw ⊢
    rcases h with rfl | ⟨ha, hbit⟩
    · rw [Nat.add_sub_cancel, Nat.sub_self, Nat.testBit_zero, decide_eq_true_eq]
      omega
    · obtain ⟨k, hk⟩ : ∃ k, b + 1 - 1 - a = k + 1 := ⟨b - a - 1, by omega⟩
      have hold : k + 1 - (b + 1 - c.top) = c.top - 1 - a := by omega
      rw [hk, Nat.testBit_succ, Nat.mul_comm _ 2, Nat.mul_add_div two_pos, Nat.div_eq_of_lt one_lt_two, Nat.add_zero,
        Nat.testBit_div_two, if_neg (by omega), Nat.testBit_mod_two_pow, Nat.testBit_mul_two_pow, hold, hbit]
      simp
      omega
  case isFalse htop =>
    dsimp only
    rw [testBit_setBit]
    rcases h with rfl | ⟨-, hbit⟩
    · simp
    · simp [hbit]

/-- Settles O19: a number that has ripened and one that was refused both lie below the new TOP, and in the window MASK shows
them. -/
theorem noSequenceNumberRipensTwice : Obligations.NoSequenceNumberRipensTwice := by
  intro c a b
  simp only [Chan.duplicate_isSome]
  refine ⟨?ripened, ?refused⟩
  case ripened =>
    have htop := c.ripen_top a
    refine ⟨by omega, ?_⟩
    rcases Nat.lt_or_ge ((c.ripen a).top - 1 - a) 64 with hw | hw
    · exact .inr (.inl (Chan.ripen_shows hw (.inl rfl)))
    · exact .inl hw
  case refused =>
    rintro ⟨ha, hrefused⟩
    have htop := c.ripen_top b
    refine ⟨by omega, ?_⟩
    rcases Nat.lt_or_ge ((c.ripen b).top - 1 - a) 64 with hw | hw
    · rcases hrefused with hlow | hshown | hlast
      · omega
      · exact .inr (.inl (Chan.ripen_shows hw (.inr ⟨ha, hshown⟩)))
      · exact .inr (.inr (by omega))
    · exact .inl hw

/-! ### FIELD.COMMAND, command form (Table 08-3) -/

/-- The first word of the frame table that an entry names depends on the runs of the slices alone. -/
theorem State.tableAt_of_slices {s t : State} (h : s.slices = t.slices) (e : List Byte) : s.tableAt e = t.tableAt e := by
  have hslc : s.slc = t.slc := funext (State.slc_of_slices h)
  simp only [State.tableAt, State.area, hslc]

/-- The lane of a first computation depends on the lanes alone. -/
theorem State.pickFirst_of_lanes {s t : State} (h : s.lanes = t.lanes) : s.pickFirst = t.pickFirst := by
  have hlane : s.lane = t.lane := funext fun i => by rw [State.lane, State.lane, h]
  unfold State.pickFirst State.leastLoaded State.candidates State.inService
  rw [hlane]

/-- The GREEN record of a command that passes steps 6 to 9 of Table 08-3, before its first decision (R293). -/
def State.greenRecord (s : State) (rq : Rq) (e : List Byte) (n lane : Nat) : Rec where
  ch := at8 rq.body 1
  seq := fld rq.body 2 5
  slice := n
  st := .green
  body := rq.body
  entry := e
  arrC := rq.c
  arrSlot := rq.c * 64 + rq.phi / 1024
  passed := false
  target := 0
  rolls := 0
  table := s.tableAt e
  data := []
  len := 0
  lane := lane
  lane2 := lane
  delay := 0

theorem stageRecord_parks {s : State} {rq : Rq} {l : Nat} (h : s.pickFirst = some l) (e : List Byte) (n : Nat) :
    stageRecord rq e n s = .park (.record (at8 rq.body 1) (fld rq.body 2 5))
      (({ s with recs := s.recs ++ [s.greenRecord rq e n l] } : State).startWork l
        (.first (at8 rq.body 1) (fld rq.body 2 5))) := by
  simp only [stageRecord, h]
  rfl

/-- The state that such a command leaves: its key and its binding entry are used, and its record stands on a lane. -/
def State.staged (s : State) (rq : Rq) (e : List Byte) (n l : Nat) : State :=
  ({ (s.touchKey (entryKey e)).touchEntry (at8 rq.body 1) with recs := s.recs ++ [s.greenRecord rq e n l] } : State).startWork l
    (.first (at8 rq.body 1) (fld rq.body 2 5))

/-- Steps 6 to 9 passed: the record of the command is staged. -/
theorem fieldWithEntry_stages {s : State} {rq : Rq} {e : List Byte} {n l : Nat} (hslice : entrySlice e = n)
    (hkey : firstFail (s.fieldKeyChecks rq (at8 rq.body 1) e) = none) (hcached : entryKey e ∈ s.ks.cache)
    (herr : entryKey e ∉ rq.x.keyErrs)
    (hgreen : ∀ r ∈ s.recs, r.ch = at8 rq.body 1 → r.seq = fld rq.body 2 5 → r.st ≠ .green)
    (hwindow : (s.chan (at8 rq.body 1)).duplicate (fld rq.body 2 5) = none) (hroom : s.queueFull (at8 rq.body 1) = false)
    (hlane : s.pickFirst = some l) :
    fieldWithEntry rq e n s = .park (.record (at8 rq.body 1) (fld rq.body 2 5)) (s.staged rq e n l) := by
  have hone : s.recs.any (fun r => r.ch == at8 rq.body 1 && r.seq == fld rq.body 2 5 && r.st == .green) = false := by
    rw [List.any_eq_false]
    intro r hr
    simpa using hgreen r hr
  have hpick : ((s.touchKey (entryKey e)).touchEntry (at8 rq.body 1)).pickFirst = some l := by
    rw [State.pickFirst_of_lanes (t := s) (by simp), hlane]
  have hrec : ((s.touchKey (entryKey e)).touchEntry (at8 rq.body 1)).greenRecord rq e n l = s.greenRecord rq e n l := by
    simp only [State.greenRecord, State.tableAt_of_slices (t := s)
      (s := (s.touchKey (entryKey e)).touchEntry (at8 rq.body 1)) (by simp)]
  have hrecs : ((s.touchKey (entryKey e)).touchEntry (at8 rq.body 1)).recs = s.recs := by simp
  rw [fieldWithEntry, guard_none (by simp [hslice, hkey]), if_neg (not_not_intro hcached), if_neg herr, hone,
    if_neg Bool.false_ne_true, guard_none (by simp [hwindow, hroom]), stageRecord_parks hpick, hrec, hrecs]
  rfl

/-- The payload of a command has its form (Table 08-1, steps 1 and 2 of Table 08-3). -/
structure CommandForm (rq : Rq) : Prop where
  least : 35 ≤ rq.body.length
  most  : rq.body.length ≤ 66
  push  : (∃ m w, rq.route = .push m w) → rq.body.length ≤ 48
  flags : at8 rq.body 0 / 2 = 0
  slot  : at8 rq.body 7 / 64 = 0

/-- A command whose payload has its form goes on with the entry in force of its channel. -/
theorem doFieldCommand_goesOn {t : State} {rq : Rq} {e : List Byte} {n : Nat} (hn : rq.route.tenant = some n)
    (hform : CommandForm rq) (hi : t.ph.issuing = true) (hd : t.pow.drbgStop = false)
    (hinv : t.live.any (Live.invalidates (at8 rq.body 1)) = false) (htable : t.table ≠ none)
    (hsusp : (t.chan (at8 rq.body 1)).suspended = false) (he : t.entryOf (at8 rq.body 1) = some e) (hu : t.usable e = true) :
    doFieldCommand rq t = fieldWithEntry rq e n t := by
  have htab : t.table.isNone = false := by simpa [Option.isSome_iff_ne_none] using htable
  unfold doFieldCommand
  dsimp only
  rw [guard_none ?form, hinv, if_neg Bool.false_ne_true, guard_none (by simp [htab, hsusp]), he]
  · dsimp only
    rw [guard_none (by simp [hu]), hn]
    rfl
  case form =>
    split
    · next m w hroute =>
      simp [needStamp_issuing hi, hd, hform.flags, hform.slot, hform.least, hform.most, hform.push ⟨m, w, hroute⟩]
    · simp [needStamp_issuing hi, hd, hform.flags, hform.slot, hform.least, hform.most]

/-! ### FIELD.COMMAND, load form (R312, R313) -/

/-- The payload of a frame-table load has its form (R312, Table 08-9). -/
structure LoadForm (b : List Byte) : Prop where
  length   : b.length = 12
  flags    : at8 b 0 = 0x80
  zero     : zeroAt b 5 1 = true
  reserved : refReserved b 6 = false
  least    : 1 ≤ at8 b 4
  most     : at8 b 4 ≤ 128
  words    : (refAt b 6).words = at8 b 4

theorem LoadForm.passes {b : List Byte} (h : LoadForm b) : firstFail [(b.length != 12, .length, 0x0089),
    (at8 b 0 != 0x80 || !zeroAt b 5 1 || refReserved b 6, .unsupported, 0),
    (at8 b 4 < 1 || 128 < at8 b 4 || (refAt b 6).badSize || (refAt b 6).words != at8 b 4, .length, 0)] = none := by
  have hsize : (decide (at8 b 4 < 1) || decide (128 < at8 b 4) || (refAt b 6).badSize || (refAt b 6).words != at8 b 4) =
      false := by
    have hleast := h.least
    have hmost := h.most
    simp [Ref.badSize, h.words]
    omega
  simp only [firstFail_cons_none, hsize, firstFail_nil, and_true]
  simp [h.length, h.flags, h.zero, h.reserved]

section
variable {t : State} {rq : Rq} {n : Nat} (hn : rq.route.tenant = some n) (hform : LoadForm rq.body)
  (hread : t.holdsAll n .r (refAt rq.body 6) = true) (hdata : t.inData n (refAt rq.body 6) = true)
  (hwait : t.mustWait rq = false)
include hn hform hread hdata hwait

/-- Steps that pass the check of R313 are written into the area. -/
theorem doFieldLoad_writes {q : Part} (hbad : (t.meet rq.x.bad [refAt rq.body 6]).badWord (refAt rq.body 6) = none)
    (harea : t.area n (at8 rq.body 1) = some q) (hruns : t.areaRuns n (at8 rq.body 1) = false)
    (hfits : fld rq.body 2 2 + at8 rq.body 4 ≤ q.len) (hok : ∀ w ∈ t.wmWords (refAt rq.body 6), stepOk w = true)
    (hend : ∃ w ∈ t.wmWords (refAt rq.body 6), stepOp w = 8) :
    doFieldLoad rq t = .done .ok 0 [] (t.wmWriteAll (q.base + fld rq.body 2 2) (t.wmWords (refAt rq.body 6))) := by
  have hsteps : (decide (q.len < fld rq.body 2 2 + at8 rq.body 4) || !(t.wmWords (refAt rq.body 6)).all stepOk ||
      !(t.wmWords (refAt rq.body 6)).any (fun w => stepOp w == 8)) = false := by
    simpa using ⟨⟨hfits, hok⟩, hend⟩
  simp only [doFieldLoad, hn, Option.getD_some, guard_none hform.passes, hread, hdata, hwait, hbad, harea, hruns,
    guard_none (firstFail_cons_none.mpr ⟨hsteps, firstFail_nil⟩), Bool.not_true, Bool.false_eq_true, if_false]

/-- A double-bit error in a word that the load reads ends it (R193). -/
theorem doFieldLoad_faults {a : Nat} (hbad : (t.meet rq.x.bad [refAt rq.body 6]).badWord (refAt rq.body 6) = some a) :
    doFieldLoad rq t =
      .refuse ((t.meet rq.x.bad [refAt rq.body 6]).wmEcc rq.route.origin .command a) .fault 0x0042 := by
  simp only [doFieldLoad, hn, Option.getD_some, guard_none hform.passes, hread, hdata, hwait, hbad, Bool.not_true,
    Bool.false_eq_true, if_false]

end

/-- Settles O17: a command passes the checks of its form with `doFieldCommand_goesOn` and steps 6 to 9 with
`fieldWithEntry_stages`; a load ends as `doFieldLoad_writes` or `doFieldLoad_faults` says. -/
theorem fieldCommandsEnter : Obligations.FieldCommandsEnter := by
  refine ⟨?command, ?load⟩
  case command =>
    intro s t v x rt arr p e n l b ch seq rq h hn hload hmin hmax hpush hflags hslot hi hd hinv htable hsusp he hu hslice hkey
      hcached herr hgreen hwindow hroom hlane
    have hruns : doFieldCommand rq t = .park (.record ch seq) (t.staged rq e n l) :=
      (doFieldCommand_goesOn (rq := rq) hn ⟨hmin, hmax, hpush, hflags, hslot⟩ hi hd hinv htable hsusp he hu).trans
        (fieldWithEntry_stages hslice hkey hcached herr hgreen hwindow hroom hlane)
    refine ⟨t.staged rq e n l, t.greenRecord rq e n l, staysInFlight rfl h (by simpa using hload) hruns,
      by simp [State.staged], rfl, rfl, rfl, rfl, rfl, rfl, rfl, rfl, rfl, rfl, rfl, by simp [State.staged], rfl⟩
  case load =>
    intro s t v x rt arr p n q b r h hn hlen hflags hz href hmin hmax hwords _ hread hdata hwait m rq
    have hload : (Op.fieldCommand == .fieldCommand && isLoad b) = true := by simp [isLoad, hflags, bit]
    have hform : LoadForm rq.body := ⟨hlen, hflags, hz, href, hmin, hmax, hwords⟩
    refine ⟨fun hbad harea hruns hfits hok hend => ?writes, fun a hbad hx => ?faults⟩
    case writes =>
      exact completes rfl h hload (doFieldLoad_writes (rq := rq) hn hform hread hdata hwait hbad harea hruns hfits hok hend)
    case faults =>
      have hruns : doFieldLoad rq t = .refuse (m.wmEcc rt.origin .command a) .fault 0x0042 :=
        doFieldLoad_faults (rq := rq) hn hform hread hdata hwait hbad
      have hrequest := request_arrives h hx (fun o b => o == .fieldCommand && isLoad b) doFieldLoad hload
      rw [hruns, settle_of_refuse, State.closePart_other (by simp) (by simp)] at hrequest
      exact congrArg Host.Outcome.next hrequest

/-! ### What the decisions on a record read -/

theorem State.withSpace_congr {s t : State} (h : s.recs = t.recs) (ports fuel a : Nat) :
    s.withSpace ports fuel a = t.withSpace ports fuel a := by
  induction fuel generalizing a with
  | zero => rfl
  | succ fuel ih =>
    have hfull : s.slotFull ports a = t.slotFull ports a := by simp only [State.slotFull, h]
    simp only [State.withSpace, hfull, ih]

/-- The target slot of a record depends on the phase unit and on the release queue alone (R301). -/
theorem State.targetFor_congr {s t : State} (hp : s.ph = t.ph) (hr : s.recs = t.recs) (r : Rec) :
    s.targetFor r = t.targetFor r := by
  simp only [State.targetFor, State.lowerSlots, State.withSpace_congr hr, hp, hr]

/-- The frame table of a record depends on working memory and on the runs of slices alone. -/
theorem State.frameTable_congr {s t : State} (hw : s.wm = t.wm) (hs : s.slices = t.slices) (r : Rec) :
    s.frameTable r = t.frameTable r := by
  simp only [State.frameTable, State.wmWords, State.wmRange, State.wmRead_congr (congrArg Wm.cells hw) hs]

/-! ### The first decision (R293, R294) -/

@[simp] theorem State.endWork_slot (s : State) (w : Work) (k : Nat) : (s.endWork w).slot k = s.slot k :=
  State.slot_of_slots (by simp) k

theorem State.decide1_passes {s : State} {r : Rec} {k : Key} {bad : List Nat} (hk : (s.slot (entryKey r.entry)).key = some k)
    (htable : (s.endWork (.first r.ch r.seq)).tableStop r bad = none)
    (hchecks : firstFail (s.firstChecks r (openField k.secret (entryMode r.entry) r.body).2) = none)
    (hlen : (runFrame (s.frameTable r) (openField k.secret (entryMode r.entry) r.body).1 (r.body.take 18)).2 ≠ 0) :
    s.decide1 r bad = (s.endWork (.first r.ch r.seq)).setRecord { r with
      passed := true
      data := (runFrame (s.frameTable r) (openField k.secret (entryMode r.entry) r.body).1 (r.body.take 18)).1
      len := (runFrame (s.frameTable r) (openField k.secret (entryMode r.entry) r.body).1 (r.body.take 18)).2 } := by
  have hsame : (s.endWork (.first r.ch r.seq)).firstChecks r = s.firstChecks r := by
    funext ok
    simp only [State.firstChecks, State.targetFor_congr (s := s.endWork _) (t := s) (by simp) (by simp)]
  have hframe : (s.endWork (.first r.ch r.seq)).frameTable r = s.frameTable r := State.frameTable_congr (by simp) (by simp) r
  simp only [State.decide1, State.endWork_slot, hk, htable, hsame, hchecks, hframe, if_neg hlen]

theorem State.tableStop_refused {s : State} {r : Rec} {a : Access} (h : s.refused r.fetches = some a) (bad : List Nat) :
    s.tableStop r bad = some (s.wmAccess r.slice a, .access, 0x0041) := by
  simp only [State.tableStop, h]

theorem State.decide1_stops {s t : State} {r : Rec} {k : Key} {bad : List Nat} {st : Status} {d : Nat}
    (hk : (s.slot (entryKey r.entry)).key = some k)
    (htable : (s.endWork (.first r.ch r.seq)).tableStop r bad = some (t, st, d)) :
    s.decide1 r bad = (s.endWork (.first r.ch r.seq)).stopRecord r t st d := by
  simp only [State.decide1, State.endWork_slot, hk, htable]

theorem exec_firstDecision_green {s : State} {ch seq : Nat} {r : Rec} (hr : s.record ch seq = some r) (hst : r.st = .green)
    (hp : r.passed = false) (bad : List Nat) : exec (.firstDecision ch seq ⟨false, bad⟩) s =
      .next ((s.decide1 r bad).schedule).pump := by
  simp [exec, execFirstDecision, State.firstDecision, hr, hst, hp]

/-! ### Ripening (R299-R304, R308) -/

theorem State.commit_ripens {s : State} {ch seq : Nat} {r : Rec} (hr : s.record ch seq = some r) (hst : r.st = .green)
    (hp : r.passed = true) (hl : s.lowerGreen ch seq = false) : s.commit ch seq = s.ripen r := by
  simp [State.commit, hr, hst, hp, hl]

theorem State.ripen_passes {s : State} {r : Rec} (h : firstFail (r.slotChecks (s.targetFor r)) = none) :
    let l2 := (s.pickSecond r.lane).getD r.lane
    s.ripen r = (((s.setChan r.ch (Chan.persist (s.chan r.ch) ((s.chan r.ch).ripen r.seq))).setRecord
      { r with st := .ripe, target := s.targetFor r, lane2 := l2, delay := s.delay }).drewDelay).startWork l2
        (.second r.ch r.seq) := by
  simp only [State.ripen, h]
  rfl

/-! ### The second decision (R305, R307) -/

theorem State.secondDecision_agrees {s : State} {ch seq : Nat} {r : Rec} {bad : List Nat} (hr : s.record ch seq = some r)
    (hst : r.st = .ripe) (htable : s.tableStop r bad = none) : s.secondDecision ch seq .agree bad = s.confirm r := by
  simp [State.secondDecision, hr, hst, htable]

theorem State.secondDecision_splits {s : State} {ch seq : Nat} {r : Rec} {bad : List Nat} (hr : s.record ch seq = some r)
    (hst : r.st = .ripe) (htable : s.tableStop r bad = none) : s.secondDecision ch seq .split bad = s.splitRecord r := by
  simp [State.secondDecision, hr, hst, htable]

/-! ### The response to a split (R513, R525) -/

@[simp] theorem State.windfall_tam (s : State) (r : Rec) (st : Status) (d : Nat) (e : Bool) :
    (s.windfall r st d e).tam = s.tam := by
  unfold State.windfall
  dsimp only
  split
  · simp
  · next hl =>
    obtain ⟨-, -, rfl⟩ := takeLive_some hl
    simp

@[simp] theorem State.windfallAll_tam (s : State) (p : Rec → Bool) (st : Status) (d : Nat) :
    (s.windfallAll p st d).tam = s.tam := by
  simp [State.windfallAll]

theorem State.windfallAll_subset (s : State) (p : Rec → Bool) (st : Status) (d : Nat) : (s.windfallAll p st d).recs ⊆
    s.recs := fun _ hq => (State.mem_foldl_windfall hq).1

@[simp] theorem State.alarmKey_tam (s : State) (k : Nat) : (s.alarmKey k).tam = s.tam := by simp [State.alarmKey]

theorem State.alarmKey_subset (s : State) (k : Nat) : (s.alarmKey k).recs ⊆ s.recs := by
  intro q hq
  simp only [State.alarmKey] at hq
  rw [State.foldl_recs (by simp)] at hq
  simp only [State.freeSlot_frame] at hq
  simpa using State.windfallAll_subset _ _ _ _ hq

@[simp] theorem State.alarm_tam (s : State) : s.alarm.tam = s.tam := by simp [State.alarm]

theorem State.foldl_alarmKey_subset (ks : List Nat) (s : State) : (ks.foldl State.alarmKey s).recs ⊆ s.recs := by
  induction ks generalizing s with
  | nil => exact List.Subset.refl _
  | cons k ks ih => exact fun _ hq => s.alarmKey_subset k (ih _ hq)

theorem State.alarm_subset (s : State) : s.alarm.recs ⊆ s.recs := State.foldl_alarmKey_subset _ s

@[simp] theorem State.toLife_split (s : State) (new : Life) (cause origin : Nat) :
    (s.toLife new cause origin).tam.split = s.tam.split := by simp [State.toLife]

@[simp] theorem State.awaitRestart_split (s : State) : s.awaitRestart.tam.split = s.tam.split := rfl

@[simp] theorem State.tamperEvent_split (s : State) (i resp : Nat) : (s.tamperEvent i resp).tam.split = s.tam.split := by
  unfold State.tamperEvent
  dsimp only
  (repeat' split) <;> simp [State.recordFiring]

theorem State.lockDown_spec (s : State) : s.lockDown.recs = [] ∧ s.lockDown.tam.split = s.tam.split := by
  simp only [State.lockDown]
  split <;> simp

@[simp] theorem State.eraseTenants_recs (s : State) : s.eraseTenants.recs = [] := rfl

@[simp] theorem State.eraseReset_recs (s : State) : s.eraseReset.recs = [] := by simp [State.eraseReset]

theorem State.erase_spec (s : State) (i : Nat) : (s.erase i).recs = [] ∧ (s.erase i).tam.split = s.tam.split := by
  unfold State.erase
  dsimp only
  split
  · simp
  · split <;> simp [State.eraseAll]

/-- A response adds no record and keeps the mark of a split (Table 15-2). -/
theorem State.respond_spec (s : State) (i resp : Nat) : (s.respond i resp).recs ⊆ s.recs ∧
    (s.respond i resp).tam.split = s.tam.split := by
  have hstart : ∀ u, u = (if 1 ≤ resp then (s.tamperEvent i resp).alarm else s.tamperEvent i resp) →
      u.recs ⊆ s.recs ∧ u.tam.split = s.tam.split := by
    rintro u rfl
    split
    · exact ⟨by simpa using (s.tamperEvent i resp).alarm_subset, by simp⟩
    · simp
  obtain ⟨hrecs, hsplit⟩ := hstart _ rfl
  simp only [State.respond]
  generalize (if 1 ≤ resp then (s.tamperEvent i resp).alarm else s.tamperEvent i resp) = u at hrecs hsplit ⊢
  split
  · obtain ⟨hnone, hkept⟩ := u.lockDown_spec
    exact ⟨by simp [hnone], hkept.trans hsplit⟩
  · split
    · obtain ⟨hnone, hkept⟩ := u.erase_spec i
      exact ⟨by simp [hnone], hkept.trans hsplit⟩
    · exact ⟨hrecs, hsplit⟩

theorem State.fireSource_spec (s : State) (i : Nat) : (s.fireSource i).recs ⊆ s.recs ∧
    (s.fireSource i).tam.split = s.tam.split := by
  unfold State.fireSource
  split
  · simp
  · exact State.respond_spec _ i _

/-- A split marks the module and adds no record (R525). -/
theorem State.splitDecision_spec (s : State) (kind subject origin : Nat) :
    (s.splitDecision kind subject origin).recs ⊆ s.recs ∧ (s.splitDecision kind subject origin).tam.split = true := by
  unfold State.splitDecision
  dsimp only
  refine ⟨fun q hq => ?_, (State.fireSource_spec _ 14).2.trans (by simp)⟩
  simpa using (State.fireSource_spec _ 14).1 hq

theorem State.splitRecord_spec (s : State) (r : Rec) : (s.splitRecord r).tam.split = true ∧
    ∀ q ∈ (s.splitRecord r).recs, q ∈ s.recs ∧ ¬(q.ch = r.ch ∧ q.seq = r.seq) := by
  unfold State.splitRecord
  dsimp only
  refine ⟨(State.splitDecision_spec _ _ _ _).2, fun q hq => ?_⟩
  simpa [State.dropRecord_recs, or_iff_not_imp_left] using (State.splitDecision_spec _ _ _ _).1 hq

/-- Settles O18: the decisions and the commit by the lemmas above; what a split leaves is `State.splitRecord_spec`. -/
theorem recordsRipenAndAreConfirmed : Obligations.RecordsRipenAndAreConfirmed := by
  refine ⟨fun s ch seq r k hr hst hp hk => ⟨fun bad htable hchecks hlen => ?passes, fun bad a hfetch => ?refused⟩,
    fun s ch seq r hr hst hp hl hslot => ?ripens, fun s ch seq r bad hr hst htable => ?agrees,
    fun s ch seq r bad hr hst htable => ?splits⟩
  case passes => rw [exec_firstDecision_green hr hst hp, State.decide1_passes hk htable hchecks hlen]
  case refused => rw [exec_firstDecision_green hr hst hp, State.decide1_stops hk (State.tableStop_refused hfetch bad)]
  case ripens =>
    show Host.Outcome.next (s.commit ch seq).pump = _
    rw [State.commit_ripens hr hst hp hl, State.ripen_passes hslot]
  case agrees =>
    show Host.Outcome.next (s.secondDecision ch seq .agree bad).pump = _
    rw [State.secondDecision_agrees hr hst htable]
    rfl
  case splits =>
    exact ⟨s.splitRecord r, congrArg (fun u : State => Host.Outcome.next u.pump) (State.secondDecision_splits hr hst htable),
      s.splitRecord_spec r⟩

end Sys2Proof.Machine
end

section
/-! PROOFS. The key store (chapter 09): the commands that make, import and wrap keys, the key cache and its sweeper, and two
statements that a counterexample refutes. -/

namespace Sys2Proof.Machine

/-! ### What a request about keys reads of the state -/

/-- The key that an owner may name depends on the slots alone. -/
theorem State.keyFor_congr {s t : State} (h : s.ks.slots = t.ks.slots) (owner k : Nat) : s.keyFor owner k = t.keyFor owner k := by
  simp only [State.keyFor, State.slot_of_slots h]

/-- The key that an owner names stands in its slot. -/
theorem State.slot_of_keyFor {s : State} {owner k : Nat} {key : Key} (h : s.keyFor owner k = some key) :
    (s.slot k).key = some key := by
  unfold State.keyFor at h
  split at h
  · cases h
  · split at h
    · cases h
    · next held hheld =>
      split at h
      · rw [hheld, h]
      · cases h

theorem State.keyFor_of_cachedKey {s : State} {owner k : Nat} {key : Key} (h : s.cachedKey owner k = some key) :
    s.keyFor owner k = some key := by
  unfold State.cachedKey at h
  split at h
  · exact h
  · cases h

/-- The slot that a creating command fills depends on the slots and on the requests in flight. -/
theorem State.target_congr {s t : State} (hs : s.ks.slots = t.ks.slots) (hl : s.live = t.live) (owner n : Nat) :
    s.target owner n = t.target owner n := by
  have hfree : s.free = t.free := funext fun k => by simp only [State.free, State.slot_of_slots hs, State.claimed, hl]
  simp only [State.target, State.lowestFree, hfree]

/-- The curve that an owner may name depends on the loaded curves alone. -/
theorem State.curve_congr {s t : State} (h : s.ks.curves = t.ks.curves) (owner id : Nat) :
    s.curve owner id = t.curve owner id := by
  simp only [State.curve, h]

theorem State.scalarChecks_congr {s t : State} (h : s.ks.curves = t.ks.curves) (owner type size : Nat) (secret : List Byte) :
    s.scalarChecks owner type size secret = t.scalarChecks owner type size secret := by
  simp only [State.scalarChecks, State.curve_congr h]

theorem State.secretLen_congr {s t : State} (h : s.ks.curves = t.ks.curves) (owner type size : Nat) :
    s.secretLen owner type size = t.secretLen owner type size := by
  simp only [State.secretLen, State.curve_congr h]

/-! ### A new key in its slot (R334, R341, R342) -/

/-- A key that is installed fills its slot and leaves every other slot. -/
theorem State.install_slot (s : State) (k : Nat) (key : Key) (j : Nat) :
    (s.install k key).slot j = if j = k then { s.slot k with key := some key, lostHss := none } else s.slot j := by
  rw [← State.setSlot_slot]
  unfold State.install
  dsimp only
  cases hload : (s.setSlot k { s.slot k with key := some key, lostHss := none }).loadCache k with
  | none => rfl
  | some t =>
    obtain ⟨-, -, hslots⟩ := State.loadCache_frame hload
    exact State.slot_of_slots hslots j

theorem State.install_key (s : State) (k : Nat) (key : Key) : ((s.install k key).slot k).key = some key := by
  rw [State.install_slot, if_pos rfl]

/-- In a state with the slots of `t`, a key that is installed leaves every other slot as it is in `t`. -/
theorem State.install_others {s t : State} (h : s.ks.slots = t.ks.slots) {k : Nat} {key : Key} :
    ∀ j, j ≠ k → (s.install k key).slot j = t.slot j := by
  intro j hj
  rw [State.install_slot, if_neg hj, State.slot_of_slots h]

/-- A new key stands one level below its parent. -/
theorem State.makeKey_level {s : State} {parent : Nat} {par : Key} (h : (s.slot parent).key = some par) (owner slot : Nat)
    (p : Spec) (origin : Nat) (secret pub : List Byte) (next : Nat) :
    (s.makeKey owner slot parent p origin secret pub next).attr.level = par.attr.level + 1 := by
  simp [State.makeKey, h]

/-- A command that ends by creating a key replies what R341 says and leaves the key installed. -/
theorem creates {c : Instr} {s t w : State} {v : Via} {o : Op} {rt : Route} {p : List Byte} {arr : Nat × Nat} {x : Ext}
    {mine : Op → List Byte → Bool} {run : Rq → State → Act} {k : Nat} {key : Key}
    (hc : exec c s = .next (s.request v x mine run)) (h : Arrives s v o rt p arr t) (hm : mine o (p.drop 16) = true)
    (hr : run (t.request? rt p arr o x) t = .create w k key) :
    Completes c s t (t.request? rt p arr o x) (keyReply k key) (w.install k key) :=
  completes hc h hm hr

/-- Lane work that meets no mismatch goes on (R415). -/
theorem onLane_sound {s : State} {rq : Rq} {k : State → Act} (h : rq.x.misses = 0) : Act.onLane s rq k = k s := by
  simp [Act.onLane, h]

/-- A derivation whose lanes or hash units meet no mismatch goes on (R415, R417). -/
theorem derive_sound {s : State} {rq : Rq} {prf : Nat} {k : State → Act} (h : rq.x.misses = 0) :
    Act.derive s rq prf k = k s := by
  simp [Act.derive, onLane_sound h, Act.onHash, h]

/-! ### KEY.GEN (R342, R442) -/

theorem State.generate_slots (s : State) (owner : Nat) (p : Spec) : (s.generate owner p).2.ks.slots = s.ks.slots := by
  unfold State.generate
  split
  · split <;> rfl
  · split
    · rfl
    · split <;> rfl

/-- The key that KEY.GEN makes of a type that needs no multiplier. -/
def State.generated (s : State) (rq : Rq) : Key :=
  let p := specAt rq.body
  let secret := (s.generate rq.owner p).1
  s.makeKey rq.owner (s.target rq.owner (fld rq.body 2 2)) (fld rq.body 0 2) p 0 secret
    (s.publicOf rq.owner p.type p.size secret) 0

section
variable {t : State} {rq : Rq}

/-- The checks of KEY.GEN pass (Tables 09-4, 09-5; R324, R325, R330). -/
structure GenFits (t : State) (rq : Rq) : Prop where
  length  : rq.body.length = 16
  issuing : t.ph.issuing = true
  random  : t.pow.drbgStop = false
  form    : specReserved rq.body = false
  spec    : firstFail (t.specChecks rq.owner (specAt rq.body)) = none
  secret  : publicType (specAt rq.body).type = false
  parent  : firstFail (t.parentChecks rq (fld rq.body 0 2)) = none
  target  : firstFail (t.targetChecks rq.owner (fld rq.body 2 2)) = none
  agrees  : rq.x.split = false

theorem GenFits.passes (h : GenFits t rq) : firstFail (needLength rq 16 ++ t.needStamp ++ t.needRandom ++
    [(specReserved rq.body, .unsupported, 0)] ++ t.specChecks rq.owner (specAt rq.body) ++
    [(publicType (specAt rq.body).type, .policy, 0x0091)] ++ t.parentChecks rq (fld rq.body 0 2) ++
    t.targetChecks rq.owner (fld rq.body 2 2)) = none := by
  simp [h.length, needStamp_issuing h.issuing, h.random, h.form, h.spec, h.secret, h.parent, h.target]

theorem doKeyGen_creates (h : GenFits t rq) (hec : (specAt rq.body).type ≠ 0x10) (hrsa : (specAt rq.body).type ≠ 0x20)
    (hroom : t.cacheReady = true) : doKeyGen rq t =
      .create (t.drewDelay.generate rq.owner (specAt rq.body)).2 (t.target rq.owner (fld rq.body 2 2))
        (t.drewDelay.generated rq) := by
  have hready : t.drewDelay.cacheReady = true := hroom
  unfold doKeyGen
  dsimp only
  rw [guard_none h.passes, twice_agrees h.agrees]
  rw [if_neg (by simp [hec, hrsa]), Act.needEntry, if_pos hready]
  rfl

theorem doKeyGen_queues (h : GenFits t rq) (hmult : (specAt rq.body).type = 0x10 ∨ (specAt rq.body).type = 0x20) :
    doKeyGen rq t = .park (.mult rq.owner 0 (t.target rq.owner (fld rq.body 2 2)) [] [])
      { t.drewDelay with mult := { t.mult with gated := false } } := by
  unfold doKeyGen
  dsimp only
  rw [guard_none h.passes, twice_agrees h.agrees]
  rw [if_pos (by simpa using hmult)]
  rfl

/-! ### KEY.DERIVE (R344) -/

/-- The checks of KEY.DERIVE pass, and its source is in the cache. -/
structure DeriveFits (t : State) (rq : Rq) (src : Key) : Prop where
  label   : 1 ≤ at8 rq.body 17 ∧ at8 rq.body 17 ≤ 64
  context : at8 rq.body 18 ≤ 128
  length  : rq.body.length = 20 + at8 rq.body 17 + at8 rq.body 18
  issuing : t.ph.issuing = true
  random  : t.pow.drbgStop = false
  form    : specReserved rq.body = false
  zero    : at8 rq.body 19 = 0
  type    : (specAt rq.body).type = 1 ∨ (specAt rq.body).type = 2
  spec    : firstFail (t.specChecks rq.owner (specAt rq.body)) = none
  usage   : firstFail (t.keyChecks rq (fld rq.body 0 2) (fun k => k.may uDerive)) = none
  parent  : firstFail (t.parentChecks rq (fld rq.body 0 2)) = none
  source  : t.cachedKey rq.owner (fld rq.body 0 2) = some src
  fits    : prfFits src.attr.type (at8 rq.body 16) = true
  lane    : at8 rq.body 16 = 0 → t.laneInService = true
  target  : firstFail (t.targetChecks rq.owner (fld rq.body 2 2)) = none
  agrees  : rq.x.split = false
  sound   : rq.x.misses = 0
  entry   : fld rq.body 0 2 ∉ rq.x.keyErrs

/-- The key that KEY.DERIVE makes under its source. -/
def State.derived (s : State) (rq : Rq) (src : Key) : Key :=
  let b := rq.body
  let f := prfOf src.secret (at8 b 16)
  s.makeKey rq.owner (s.target rq.owner (fld b 2 2)) (fld b 0 2) (specAt b) 2
    (kdf f.1 f.2 (slice b 20 (at8 b 17)) (slice b (20 + at8 b 17) (at8 b 18)) (specAt b).size) [] 0

theorem doKeyDerive_creates {src : Key} (h : DeriveFits t rq src) : doKeyDerive rq t =
    .create (t.touchKey (fld rq.body 0 2)).drewDelay (t.target rq.owner (fld rq.body 2 2))
      ((t.touchKey (fld rq.body 0 2)).drewDelay.derived rq src) := by
  obtain ⟨hmin, hmax⟩ := h.label
  have hlen : (decide (rq.body.length < 20) || decide (at8 rq.body 17 < 1) || decide (64 < at8 rq.body 17) ||
      decide (128 < at8 rq.body 18) || rq.body.length != 20 + at8 rq.body 17 + at8 rq.body 18) = false := by
    have hcontext := h.context
    have hlength := h.length
    simp
    omega
  have htype : (decide ((specAt rq.body).type ∈ keyTypes) && (specAt rq.body).type != 1 && (specAt rq.body).type != 2) =
      false := by
    rcases h.type with he | he <;> simp [he]
  have hlane : firstFail (if at8 rq.body 16 = 0 then t.needLane else []) = none := by
    split
    · next hprf => simp [State.needLane, h.lane hprf]
    · rfl
  have hsource := State.keyFor_of_cachedKey h.source
  unfold doKeyDerive
  dsimp only
  rw [guard_none ?checks, withKey_cached h.source h.entry, derive_sound h.sound, twice_agrees h.agrees]
  · rfl
  case checks =>
    simp only [firstFail_append_none, firstFail_cons_none, hlen, htype, hlane, needStamp_issuing h.issuing, h.random, h.form,
      h.spec, h.usage, h.parent, h.target, hsource, zeroAt_one h.zero, State.firstFail_needRandom, firstFail_nil, Option.map_some,
      Option.getD_some, h.fits, Bool.not_true, Bool.or_false, and_self]

end

/-- Settles O26: `doKeyGen_creates`, `doKeyGen_queues` and `doKeyDerive_creates`, each key read off `State.makeKey`. -/
theorem keysAreMade : Obligations.KeysAreMade := by
  refine ⟨?gen, ?derive⟩
  case gen =>
    intro s t v x rt arr p b q rq k h hlen hi hd hform hspec htype hparent htarget hsplit
    have hfits : GenFits t rq := ⟨by simp [rq, hlen], hi, hd, hform, hspec, htype, hparent, htarget, hsplit⟩
    refine ⟨fun ⟨hec, hrsa⟩ hroom => ?_, fun hmult => staysInFlight rfl h rfl (doKeyGen_queues hfits hmult)⟩
    have hslots : (t.drewDelay.generate rq.owner q).2.ks.slots = t.ks.slots := State.generate_slots ..
    exact ⟨_, _, creates rfl h rfl (doKeyGen_creates hfits hec hrsa hroom), State.install_key .., rfl, rfl, rfl, rfl, rfl, rfl,
      rfl, rfl, rfl, fun par hpar => State.makeKey_level (s := t.drewDelay) hpar .., State.install_others hslots⟩
  case derive =>
    intro s t v x rt arr p src b q rq k f h hmin hmax hcontext hlen hi hd hform hz htype hspec husage hparent hsource hprf hlane
      htarget hsplit hmiss herr
    have hfits : DeriveFits t rq src := ⟨⟨hmin, hmax⟩, hcontext, hlen, hi, hd, hform, hz, htype, hspec, husage, hparent, hsource,
      hprf, hlane, htarget, hsplit, hmiss, herr⟩
    have hpar : (t.slot (fld b 0 2)).key = some src := State.slot_of_keyFor (State.keyFor_of_cachedKey hsource)
    exact ⟨_, _, creates rfl h rfl (doKeyDerive_creates hfits), State.install_key .., rfl, rfl,
      State.makeKey_level (s := (t.touchKey (fld b 0 2)).drewDelay) hpar .., rfl, State.install_others rfl⟩

/-! ### KEY.IMPORT (R343) -/

/-- The state after a key is put to use: on a loaded curve that is a non-approved service (R624, Table 19-3). -/
def State.notingUse (s : State) (rq : Rq) (key : Key) : State := if key.unapproved then s.unapproved rq.route.origin else s

theorem State.notingUse_slots (s : State) (rq : Rq) (key : Key) : (s.notingUse rq key).ks.slots = s.ks.slots := by
  unfold State.notingUse
  split <;> simp

/-- The key that KEY.IMPORT makes. -/
def State.imported (s : State) (rq : Rq) (secret pub : List Byte) : Key :=
  let p := specAt rq.body
  s.makeKey rq.owner (s.target rq.owner (fld rq.body 2 2)) (fld rq.body 0 2) p 1 (secretOf p.type secret) pub
    (nextOf p.type secret)

theorem State.importKey_creates (s : State) (rq : Rq) (secret pub : List Byte) : s.importKey rq secret pub =
    .create (s.notingUse rq (s.imported rq secret pub)) (s.target rq.owner (fld rq.body 2 2)) (s.imported rq secret pub) := rfl

/-- The state in which a command decides on an input that it has read. -/
def State.readIn (s : State) (rq : Rq) (d : Desc) : State := (s.didInput rq d).drewDelay

@[simp] theorem State.readIn_ks (s : State) (rq : Rq) (d : Desc) : (s.readIn rq d).ks = s.ks := by simp [State.readIn]

@[simp] theorem State.readIn_live (s : State) (rq : Rq) (d : Desc) : (s.readIn rq d).live = s.live := by simp [State.readIn]

theorem State.readIn_target (s : State) (rq : Rq) (d : Desc) (owner n : Nat) :
    (s.readIn rq d).target owner n = s.target owner n :=
  State.target_congr (by simp) (by simp) owner n

section
variable {t : State} {rq : Rq}

/-- The checks of KEY.IMPORT pass before it reads DATA (R343 steps 1 and 2). -/
structure ImportPasses (t : State) (rq : Rq) : Prop where
  length  : rq.body.length = 36
  issuing : t.ph.issuing = true
  random  : t.pow.drbgStop = false
  form    : specReserved rq.body = false
  zero    : zeroAt rq.body 18 2 = true
  spec    : firstFail (t.specChecks rq.owner (specAt rq.body)) = none
  own     : firstFail (t.importChecks rq) = none
  agrees  : rq.x.split = false

theorem ImportPasses.passes (h : ImportPasses t rq) : firstFail (needLength rq 36 ++ t.needStamp ++ t.needRandom ++
    [(specReserved rq.body || !zeroAt rq.body 18 2, .unsupported, 0)] ++ t.specChecks rq.owner (specAt rq.body) ++
    t.importChecks rq) = none := by
  simp [h.length, needStamp_issuing h.issuing, h.random, h.form, h.zero, h.spec, h.own]

/-- A public key in clear is installed when its point passes Table 12-10. -/
theorem doKeyImport_clear {data : List Byte} (h : ImportPasses t rq) (hclear : fld rq.body 16 2 = 0xFFFF)
    (hin : t.input rq 0 (descAt rq.body 20) = .data data)
    (hpoint : ∀ c, (specAt rq.body).type = 0x11 → t.curve rq.owner (specAt rq.body).size = some c →
      firstFail (c.pointChecks data) = none) :
    let s := t.readIn rq (descAt rq.body 20)
    doKeyImport rq t = .create (s.notingUse rq (s.imported rq [] data)) (t.target rq.owner (fld rq.body 2 2))
      (s.imported rq [] data) := by
  intro s
  have hcurves : s.ks.curves = t.ks.curves := congrArg KeyStore.curves (State.readIn_ks ..)
  have hchecks : firstFail (if (specAt rq.body).type = 0x11 then
      (match s.curve rq.owner (specAt rq.body).size with
        | none => []
        | some c => c.pointChecks data) else []) = none := by
    rw [State.curve_congr hcurves]
    split
    · next htype =>
      split
      · rfl
      · next c hc => exact hpoint c htype hc
    · rfl
  unfold doKeyImport
  dsimp only
  rw [guard_none h.passes, if_pos hclear, withInput_data hin, twice_agrees h.agrees,
    ← State.readIn_target t rq (descAt rq.body 20), ← State.importKey_creates]
  exact guard_none hchecks

/-- A wrapped secret that opens is installed (R343 steps 3 and 4). -/
theorem doKeyImport_wrapped {w : Key} {data secret : List Byte} (h : ImportPasses t rq) (hwrapped : fld rq.body 16 2 ≠ 0xFFFF)
    (hmiss : rq.x.misses = 0) (herr : fld rq.body 16 2 ∉ rq.x.keyErrs) (hw : t.cachedKey rq.owner (fld rq.body 16 2) = some w)
    (hin : t.input rq 0 (descAt rq.body 20) = .data data) (hopen : kwpOpen w.secret data = some secret)
    (hlen : secret.length = t.secretLen rq.owner (specAt rq.body).type (specAt rq.body).size)
    (hscalar : firstFail (t.scalarChecks rq.owner (specAt rq.body).type (specAt rq.body).size secret) = none) :
    let s := (t.touchKey (fld rq.body 16 2)).readIn rq (descAt rq.body 20)
    let pub := s.publicOf rq.owner (specAt rq.body).type (specAt rq.body).size secret
    doKeyImport rq t = .create (s.notingUse rq (s.imported rq secret pub)) (t.target rq.owner (fld rq.body 2 2))
      (s.imported rq secret pub) := by
  intro s pub
  have hcurves : s.ks.curves = t.ks.curves := by simp [s, State.touchKey]
  have hin' : (t.touchKey (fld rq.body 16 2)).input rq 0 (descAt rq.body 20) = .data data := hin
  unfold doKeyImport
  dsimp only
  rw [guard_none h.passes, if_neg hwrapped, withKey_cached hw herr, withInput_data hin', onLane_sound hmiss,
    twice_agrees h.agrees]
  have htarget : s.target rq.owner (fld rq.body 2 2) = t.target rq.owner (fld rq.body 2 2) := State.readIn_target ..
  rw [← htarget, ← State.importKey_creates]
  show importWrapped rq w data s = _
  simp only [importWrapped, hopen]
  exact guard_none (by simp [State.secretLen_congr hcurves, State.scalarChecks_congr hcurves, hlen, hscalar])

/-! ### KEY.UNWRAP (R346, R348) -/

/-- A symmetric or HMAC key is its secret encoding, of SIZE bits, and nothing else (Table 09-7). -/
theorem State.symmetric_secret {type : Nat} (h : type = 1 ∨ type = 2) (s : State) (owner size : Nat) (plain : List Byte) :
    publicType type = false ∧ s.publicOf owner type size plain = [] ∧ secretOf type plain = plain ∧ nextOf type plain = 0 ∧
      s.secretLen owner type size = size / 8 ∧ s.scalarChecks owner type size plain = [] := by
  rcases h with rfl | rfl <;> exact ⟨rfl, rfl, rfl, rfl, rfl, rfl⟩

/-- The key that KEY.UNWRAP makes of a blob of a symmetric or HMAC key, with the usage that the mask leaves. -/
def State.unwrapped (s : State) (rq : Rq) (a : Attr) (plain : List Byte) : Key :=
  s.makeKey rq.owner (s.target rq.owner (fld rq.body 4 2)) (fld rq.body 2 2)
    ⟨a.type, a.size, a.usage &&& fld rq.body 6 2, a.flags, a.faultMode, a.channel⟩ 1 plain [] 0

theorem unwrapInto_creates {a : Attr} {plain : List Byte} (htype : a.type = 1 ∨ a.type = 2) (hlen : plain.length = a.size / 8)
    (s : State) : unwrapInto rq a plain s s = .create (s.notingUse rq (s.unwrapped rq a plain))
      (s.target rq.owner (fld rq.body 4 2)) (s.unwrapped rq a plain) := by
  obtain ⟨hpublic, hpub, hsecret, hnext, hwant, hscalar⟩ := State.symmetric_secret htype s rq.owner a.size plain
  have hpoint : a.type ≠ 0x11 := by omega
  unfold unwrapInto
  simp only [hpublic, hwant, Bool.false_eq_true, if_false, hpoint, hpub, hsecret, hnext]
  rw [guard_none (by simp [hlen, hscalar])]
  rfl

/-- A blob of a symmetric or HMAC key. -/
structure BlobOpens (wrapper blob plain : List Byte) : Prop where
  kind   : fld blob 0 2 = 0x0901
  least  : 58 ≤ blob.length
  length : fld blob 2 2 = blob.length
  curve  : fld blob 24 2 = 0
  attrs  : firstFail (blobChecks (attrAt blob 4)) = none
  type   : (attrAt blob 4).type = 1 ∨ (attrAt blob 4).type = 2
  opens  : openBlob wrapper blob = some plain
  size   : plain.length = (attrAt blob 4).size / 8

theorem unwrapBlob_opens {w : Key} {blob plain : List Byte} (h : BlobOpens w.secret blob plain) (s : State) :
    unwrapBlob rq w blob s = unwrapInto rq (attrAt blob 4) plain s s := by
  have hleast := h.least
  have htype := h.type
  unfold unwrapBlob
  dsimp only
  rw [guard_none (by simp [h.kind, h.length, h.curve, hleast]), h.opens]
  dsimp only
  rw [guard_none h.attrs, if_neg (by simp; omega)]

/-- The checks of KEY.UNWRAP pass before it reads the blob. -/
structure UnwrapPasses (t : State) (rq : Rq) : Prop where
  length  : rq.body.length = 24
  issuing : t.ph.issuing = true
  random  : t.pow.drbgStop = false
  lane    : t.laneInService = true
  usage   : firstFail (t.keyChecks rq (fld rq.body 0 2) (fun k => k.attr.type == 1 && k.may uUnwrap)) = none
  parent  : firstFail (t.parentChecks rq (fld rq.body 2 2)) = none
  target  : firstFail (t.targetChecks rq.owner (fld rq.body 4 2)) = none
  desc    : firstFail (t.needDesc rq 8 1) = none
  size    : (descAt rq.body 8).len ≤ 4096

theorem doKeyUnwrap_creates {w : Key} {blob plain : List Byte} (h : UnwrapPasses t rq) (hsplit : rq.x.split = false)
    (hmiss : rq.x.misses = 0) (herr : fld rq.body 0 2 ∉ rq.x.keyErrs) (hw : t.cachedKey rq.owner (fld rq.body 0 2) = some w)
    (hin : t.input rq 0 (descAt rq.body 8) = .data blob) (hblob : BlobOpens w.secret blob plain) :
    let s := (t.touchKey (fld rq.body 0 2)).readIn rq (descAt rq.body 8)
    doKeyUnwrap rq t = .create (s.notingUse rq (s.unwrapped rq (attrAt blob 4) plain)) (t.target rq.owner (fld rq.body 4 2))
      (s.unwrapped rq (attrAt blob 4) plain) := by
  intro s
  have hin' : (t.touchKey (fld rq.body 0 2)).input rq 0 (descAt rq.body 8) = .data blob := hin
  unfold doKeyUnwrap
  dsimp only
  rw [guard_none ?checks, withKey_cached hw herr, withInput_data hin', onLane_sound hmiss, twice_agrees hsplit]
  · have htarget : s.target rq.owner (fld rq.body 4 2) = t.target rq.owner (fld rq.body 4 2) := State.readIn_target ..
    rw [← htarget, ← unwrapInto_creates hblob.type hblob.size, ← unwrapBlob_opens hblob]
    rfl
  case checks =>
    simp [h.length, needStamp_issuing h.issuing, h.random, State.needLane, h.lane, h.usage, h.parent, h.target, h.desc, h.size]

end

/-- Settles O27: `doKeyImport_clear`, `doKeyImport_wrapped` and `doKeyUnwrap_creates` end in a key that is created. -/
theorem keysAreImportedAndUnwrapped : Obligations.KeysAreImportedAndUnwrapped := by
  refine ⟨?imports, ?unwraps⟩
  case imports =>
    intro s t v x rt arr p data b q rq k h hlen hi hd hform hz hspec hown hsplit
    have hpasses : ImportPasses t rq := ⟨by simp [rq, hlen], hi, hd, hform, hz, hspec, hown, hsplit⟩
    refine ⟨fun hclear hin hpoint => ?clear, fun w secret hwrapped hmiss herr hw hin hopen hsecret hscalar => ?wrapped⟩
    case clear =>
      have hslots : (t.readIn rq (descAt b 20)).ks.slots = t.ks.slots := by simp
      exact ⟨_, _, creates rfl h rfl (doKeyImport_clear hpasses hclear hin hpoint), State.install_key .., rfl, rfl, rfl,
        State.install_others ((State.notingUse_slots ..).trans hslots)⟩
    case wrapped =>
      have hslots : ((t.touchKey (fld b 16 2)).readIn rq (descAt b 20)).ks.slots = t.ks.slots := by
        simp [State.touchKey]
      exact ⟨_, _, creates rfl h rfl (doKeyImport_wrapped hpasses hwrapped hmiss herr hw hin hopen hsecret hscalar),
        State.install_key .., rfl, rfl, State.install_others ((State.notingUse_slots ..).trans hslots)⟩
  case unwraps =>
    intro s t v x rt arr p blob plain w b rq k a h hlen hi hd hlane husage hparent htarget hdesc hsize hw hin hsplit hmiss herr
      hkind hleast hattrs hlength hcurve hopens htype hplain
    have hpasses : UnwrapPasses t rq := ⟨by simp [rq, hlen], hi, hd, hlane, husage, hparent, htarget, hdesc, hsize⟩
    have hblob : BlobOpens w.secret blob plain := ⟨hkind, hleast, hlength, hcurve, hattrs, htype, hopens, hplain⟩
    have hslots : ((t.touchKey (fld b 0 2)).readIn rq (descAt b 8)).ks.slots = t.ks.slots := by
      simp [State.touchKey]
    exact ⟨_, _, creates rfl h rfl (doKeyUnwrap_creates hpasses hsplit hmiss herr hw hin hblob), State.install_key .., rfl, rfl,
      rfl, rfl, rfl, rfl, State.install_others ((State.notingUse_slots ..).trans hslots)⟩

/-! ### KEY.WRAP (R345, R346) -/

/-- The checks of KEY.WRAP pass, and both keys are in the cache. -/
structure WrapFits (t : State) (rq : Rq) (w k : Key) : Prop where
  length  : rq.body.length = 24
  random  : t.pow.drbgStop = false
  lane    : t.laneInService = true
  zero    : zeroAt rq.body 4 4 = true
  wraps   : firstFail (t.keyChecks rq (fld rq.body 0 2) (fun k => k.attr.type == 1 && k.may uWrap)) = none
  subject : firstFail (t.keyChecks rq (fld rq.body 2 2) Key.usable) = none
  leaves  : bit k.attr.flags 0 = true
  desc    : firstFail (t.needDesc rq 8 2) = none
  room    : 42 + kwpLen (t.material k).length ≤ (descAt rq.body 8).len
  wrapper : t.cachedKey rq.owner (fld rq.body 0 2) = some w
  key     : t.cachedKey rq.owner (fld rq.body 2 2) = some k
  dma     : t.dmaStop rq.owner = none
  agrees  : rq.x.split = false
  sound   : rq.x.misses = 0
  entries : fld rq.body 0 2 ∉ rq.x.keyErrs ∧ fld rq.body 2 2 ∉ rq.x.keyErrs

/-- A key that is used stays in the cache with every other. -/
theorem State.cachedKey_touchKey {s : State} {owner k : Nat} {key : Key} (h : s.cachedKey owner k = some key) (j : Nat) :
    (s.touchKey j).cachedKey owner k = some key := by
  have hmem : k ∈ s.ks.cache := by
    unfold State.cachedKey at h
    split at h
    · assumption
    · cases h
  have hstays : k ∈ (s.touchKey j).ks.cache := by
    simp only [State.touchKey, List.mem_append, List.mem_filter, List.mem_singleton, bne_iff_ne, hmem, true_and]
    exact (eq_or_ne k j).symm
  rw [State.cachedKey, if_pos hstays]
  exact (State.keyFor_congr (t := s) rfl owner k).trans (State.keyFor_of_cachedKey h)

/-- A key that KEY.WRAP has exported, its record written again (R345, R352). -/
def Key.markExported (k : Key) (c : Nat) : Key := { k with pflags := setBit k.pflags 1 true }.stored c

/-- The state that KEY.WRAP leaves before it marks its subject: both keys used, the salt drawn and the blob written. -/
def State.wrote (t : State) (rq : Rq) (w k : Key) : State :=
  let s := ((t.touchKey (fld rq.body 0 2)).touchKey (fld rq.body 2 2)).drewDelay.drewDelay
  (s.drewBytes 16).output rq.owner (descAt rq.body 8)
    (wrapBlob 0x0901 w.secret k.attr.blob [] (s.drawBytes 16) (t.material k))

theorem State.wrote_slot (t : State) (rq : Rq) (w k : Key) (j : Nat) : (t.wrote rq w k).slot j = t.slot j :=
  State.slot_of_slots (by simp only [State.wrote, State.output_frame]; rfl) j

/-- The state that KEY.WRAP leaves. -/
def State.wrapped (t : State) (rq : Rq) (w k : Key) : State :=
  (t.wrote rq w k).setSlot (fld rq.body 2 2) { t.slot (fld rq.body 2 2) with key := some (k.markExported t.ph.c) }

theorem State.wrapped_key (t : State) (rq : Rq) (w k : Key) :
    ((t.wrapped rq w k).slot (fld rq.body 2 2)).key = some (k.markExported t.ph.c) := by
  rw [State.wrapped, State.setSlot_slot_same]

theorem State.wrapped_others (t : State) (rq : Rq) (w k : Key) :
    ∀ j, j ≠ fld rq.body 2 2 → (t.wrapped rq w k).slot j = t.slot j := by
  intro j hj
  rw [State.wrapped, State.setSlot_slot_ne _ _ hj, State.wrote_slot]

theorem doKeyWrap_wraps {t : State} {rq : Rq} {w k : Key} (h : WrapFits t rq w k) : doKeyWrap rq t =
    .done .ok 0 (be 4 (42 + kwpLen (t.material k).length)) (t.wrapped rq w k) := by
  obtain ⟨hwErr, hkErr⟩ := h.entries
  have hkey := State.keyFor_of_cachedKey h.key
  have hdma : ((((t.touchKey (fld rq.body 0 2)).touchKey (fld rq.body 2 2)).drewDelay.drewDelay).drewBytes 16).dmaStop rq.owner =
      none := by simpa [State.dmaStop] using h.dma
  unfold doKeyWrap
  dsimp only
  rw [hkey, guard_none ?checks, if_neg (Nat.not_lt.mpr h.room), withKey_cached h.wrapper hwErr,
    withKey_cached (State.cachedKey_touchKey h.key _) hkErr, onLane_sound h.sound, twice_agrees h.agrees, withOutput_sent hdma,
    State.wrapped, ← State.wrote_slot t rq w k]
  · rfl
  case checks =>
    simp [h.length, h.random, State.needLane, h.lane, h.zero, h.wraps, h.subject, h.leaves, h.desc]

/-- Settles O28: `doKeyWrap_wraps`, and the slots of its state. -/
theorem keyWrapWritesTheBlob : Obligations.KeyWrapWritesTheBlob := by
  intro s t v x rt arr p w k b rq d n a blob m h hlen hd hlane hz hwrap hsubject hexport hdesc hroom hw hk hwKey hkKey hdma hsplit
    hmiss hwErr hkErr
  have hfits : WrapFits t rq w k := ⟨by simp [rq, hlen], hd, hlane, hz, hwrap, hsubject, hexport, hdesc, hroom,
    (if_pos hw).trans hwKey, (if_pos hk).trans hkKey, hdma, hsplit, hmiss, hwErr, hkErr⟩
  exact ⟨_, completes rfl h rfl (doKeyWrap_wraps hfits), State.wrapped_key .., State.wrapped_others t rq w k, rfl⟩

/-! ### Freed slots and lost keys (R334, R357) -/

/-- Below the last generation of its slot, freeing a key clears its cache entry, closes its streams and empties the slot under the
next generation. -/
theorem State.freeSlot_below {s : State} {k : Nat} (hgen : (s.slot k).gen < 0xFFFFFF) (origin : Nat) : s.freeSlot k origin =
    ((s.dropCache k).endStreams k).setSlot k { s.slot k with key := none, gen := (s.slot k).gen + 1 } :=
  if_neg (Nat.ne_of_lt hgen)

/-- A slot that is freed below its last generation is empty under the next one, and every other slot is unchanged. -/
theorem State.freeSlot_slot {s : State} {k : Nat} (hgen : (s.slot k).gen < 0xFFFFFF) (origin j : Nat) :
    (s.freeSlot k origin).slot j =
      if j = k then { s.slot k with key := none, gen := (s.slot k).gen + 1 } else s.slot j := by
  have hslots : ((s.dropCache k).endStreams k).ks.slots = s.ks.slots := by
    simp only [State.endStreams_frame]
    rfl
  rw [State.freeSlot_below hgen, State.setSlot_slot, State.slot_of_slots hslots]

theorem State.freeSlot_swept {s : State} {k : Nat} (hgen : (s.slot k).gen < 0xFFFFFF) (origin : Nat) :
    (s.freeSlot k origin).ks.swept = s.ks.swept := by
  rw [State.freeSlot_below hgen]
  simp [State.setSlot, State.dropCache]

/-- A lost key frees its slot, whatever else is recorded of it. -/
theorem State.loseKey_slot {s : State} {k : Nat} {key : Key} (hkey : (s.slot k).key = some key) (htype : key.attr.type ≠ 0x30)
    (j : Nat) : (s.loseKey k).slot j = (s.freeSlot k noOrigin).slot j := by
  simp only [State.loseKey, hkey, htype, if_false]
  exact State.slot_of_slots (by simp) j

/-- Requests that are ended leave: none that `p` picks out is in flight any more. -/
theorem State.endAll_none_left {p : Live → Bool} (hp : ∀ l, p l = true → l.job ≠ .again) (s : State) (st : Status) (d : Nat) :
    ∀ l ∈ (s.endAll p st d).live, p l = false := by
  have hfold : ∀ (ls : List Live) (s : State), s.live.filter p = ls →
      (ls.foldl (fun s l => ({ s with live := s.live.erase l }.closePart l.rq st).complete l.rq false st d []) s).live.filter p =
        [] := by
    intro ls
    induction ls with
    | nil => exact fun s h => h
    | cons l ls ih =>
      intro s h
      refine ih _ ?_
      rw [State.complete_live_filter hp]
      simp only [State.closePart_frame]
      rw [← List.erase_filter, h, List.erase_cons_head]
  intro l hl
  simpa using List.filter_eq_nil_iff.mp (hfold _ s rfl) l hl

theorem Live.wantsKey_job {k : Nat} {l : Live} : l.wantsKey k = true ↔ l.job = .held (.key k) := by
  simp [Live.wantsKey]

/-! ### KEY_CACHE_LOAD (R339, R357) -/

/-- A key with a good copy enters the cache while it has room. -/
theorem exec_keyCacheLoad_comes {s : State} {k : Nat} {key : Key} (hwait : s.live.any (Live.wantsKey k) = true)
    (hkey : (s.slot k).key = some key) (hok : key.flash.okA = true) (hroom : s.ks.cache.length < s.cacheRoom) (okB : Bool) :
    exec (.keyCacheLoad k true okB) s = .next (s.touchKey k).pump := by
  show execKeyCacheLoad k true okB s = _
  simp [execKeyCacheLoad, hwait, hkey, hok, State.keyComes, State.loadCache, hroom]

/-- A key with no good copy is lost, and the requests that wait for it end. -/
theorem exec_keyCacheLoad_loses {s : State} {k : Nat} {key : Key} (hwait : s.live.any (Live.wantsKey k) = true)
    (hkey : (s.slot k).key = some key) (htype : key.attr.type ≠ 0x30) :
    exec (.keyCacheLoad k false false) s = .next ((s.loseKey k).endAll (Live.wantsKey k) .fault 0x009A).pump := by
  show execKeyCacheLoad k false false s = _
  simp [execKeyCacheLoad, hwait, hkey, htype]

/-! ### KEY_SWEEPER_VISIT (R353) -/

/-- The sweeper at its next slot. -/
def State.sweepTo (s : State) (k : Nat) : State := s.mapKs (fun v => { v with sweepAt := k })

@[simp] theorem State.sweepTo_slot (s : State) (k j : Nat) : (s.sweepTo k).slot j = s.slot j := rfl

@[simp] theorem State.sweepTo_sweepAt (s : State) (k : Nat) : (s.sweepTo k).ks.sweepAt = k := rfl

@[simp] theorem State.sweepTo_swept (s : State) (k : Nat) : (s.sweepTo k).ks.swept = s.ks.swept := rfl

/-- One more slot freed in the pass of the sweeper. -/
def State.countSwept (s : State) : State := s.mapKs (fun v => { v with swept := v.swept + 1 })

@[simp] theorem State.countSwept_slot (s : State) (j : Nat) : s.countSwept.slot j = s.slot j := rfl

@[simp] theorem State.countSwept_swept (s : State) : s.countSwept.ks.swept = s.ks.swept + 1 := rfl

/-- Before the last slot of its pass, with nothing to wait for, the sweeper does what it finds to do and goes on. -/
theorem exec_keySweeperVisit_goesOn {s : State} (hm : s.pow.main = true) (hbusy : s.keyBusy s.ks.sweepAt = false)
    (hlast : s.ks.sweepAt < 16383) (okA okB : Bool) (fix : Bool × Bool) : exec (.keySweeperVisit okA okB fix) s =
      .next ((s.visit s.ks.sweepAt ⟨okA, okB, fix.1, fix.2⟩).sweepTo (s.ks.sweepAt + 1)) := by
  have hwait (l : Look) : s.sweepWaits s.ks.sweepAt l = false := by simp [State.sweepWaits, hbusy]
  have hnext : (s.ks.sweepAt + 1) % 16384 = s.ks.sweepAt + 1 := Nat.mod_eq_of_lt (by omega)
  have hmain (u : State) (f : KeyStore → KeyStore) (hu : u.pow = s.pow) : (u.mapKs f).pow.main = true := by
    rw [show (u.mapKs f).pow = u.pow from rfl, hu, hm]
  show execKeySweeperVisit okA okB fix s = _
  unfold execKeySweeperVisit
  dsimp only
  rw [hmain _ _ (by simp), hwait, if_neg (by simp), if_neg (Nat.ne_of_lt hlast), hnext, State.sweepTo]

/-- An orphaned key is freed and counted. -/
theorem State.visit_orphan {s : State} {k : Nat} {key : Key} (hk : 0x40 ≤ k) (hkey : (s.slot k).key = some key)
    (ho : s.orphaned key = true) (l : Look) :
    s.visit k l = (s.freeSlot k noOrigin).countSwept := by
  simp [State.visit, State.countSwept, Nat.not_lt.mpr hk, hkey, ho]

/-- A key that has its parents and a good copy keeps its slot; its copies are as after the sweeper's look. -/
theorem State.visit_kept {s : State} {k : Nat} {key : Key} (hk : 0x40 ≤ k) (hkey : (s.slot k).key = some key)
    (ho : s.orphaned key = false) {l : Look} (hl : key.flash.fails l = false) : s.visit k l =
      s.setSlot k { s.slot k with key := some { key with flash := key.flash.seen l s.ph.c } } := by
  simp [State.visit, Nat.not_lt.mpr hk, hkey, ho, hl]

/-- Two good copies rewritten at most 16,777,216 cycles ago stay as they are. -/
theorem Flash.seen_good {f : Flash} {c : Nat} (hA : f.okA = true) (hB : f.okB = true) (hageA : c - f.ageA ≤ 16777216)
    (hageB : c - f.ageB ≤ 16777216) : f.seen ⟨true, true, false, false⟩ c = f := by
  cases f
  simp only at hA hB hageA hageB
  simp [Flash.seen, Flash.sweep, hA, hB, Nat.not_lt.mpr hageA, Nat.not_lt.mpr hageB, b01]

/-- The second copy failed: it is written again from the first. -/
theorem Flash.seen_second_failed {f : Flash} (hA : f.okA = true) (c : Nat) : f.seen ⟨true, false, false, false⟩ c =
    ⟨true, true, if 16777216 < c - f.ageA then c else f.ageA, c, f.writes + 1⟩ := by
  simp [Flash.seen, Flash.sweep, hA, b01]

/-- Settles O30: `exec_keyCacheLoad_comes` and `exec_keyCacheLoad_loses`; the sweeper goes on from what `State.visit_orphan` or
`State.visit_kept` gives. -/
theorem keysAreLoadedAndSwept : Obligations.KeysAreLoadedAndSwept := by
  refine ⟨fun s k hwait => ⟨fun key hkey hok hroom => ?comes, fun key hkey htype hgen => ?lost⟩,
    fun s key hm hlow hlast hkey hbusy => ⟨fun ho hgen => ?orphan, fun ho hA hB hageA hageB => ?good, fun ho hA => ?failed⟩⟩
  case comes =>
    exact ⟨s.touchKey k, exec_keyCacheLoad_comes hwait hkey hok hroom true, by simp [State.touchKey], rfl, rfl⟩
  case lost =>
    have hslot : ((s.loseKey k).endAll (Live.wantsKey k) .fault 0x009A).slot k =
        { s.slot k with key := none, gen := (s.slot k).gen + 1 } := by
      rw [State.slot_of_slots (t := s.loseKey k) (by simp), State.loseKey_slot hkey htype, State.freeSlot_slot hgen, if_pos rfl]
    refine ⟨_, exec_keyCacheLoad_loses hwait hkey htype, congrArg Slot.key hslot, congrArg Slot.gen hslot, fun l hl hjob => ?_⟩
    have hgone := State.endAll_none_left (fun m hm => by simp [Live.wantsKey_job.mp hm]) _ _ _ l hl
    rw [Live.wantsKey_job.mpr hjob] at hgone
    cases hgone
  case orphan =>
    refine ⟨_, exec_keySweeperVisit_goesOn hm hbusy hlast .., ?_⟩
    rw [State.visit_orphan hlow hkey ho]
    refine ⟨?_, State.sweepTo_sweepAt .., ?_, fun j hj => ?_⟩
    · rw [State.sweepTo_slot, State.countSwept_slot, State.freeSlot_slot hgen, if_pos rfl]
    · rw [State.sweepTo_swept, State.countSwept_swept, State.freeSlot_swept hgen]
    · rw [State.sweepTo_slot, State.countSwept_slot, State.freeSlot_slot hgen, if_neg hj]
  case good =>
    have hsame : { s.slot s.ks.sweepAt with key := some key } = s.slot s.ks.sweepAt := by rw [← hkey]
    refine ⟨_, exec_keySweeperVisit_goesOn hm hbusy hlast .., ?_⟩
    rw [State.visit_kept hlow hkey ho (by simp [Flash.fails, hA]), Flash.seen_good hA hB hageA hageB, hsame]
    refine ⟨State.sweepTo_sweepAt .., fun j => ?_, State.sweepTo_swept ..⟩
    rw [State.sweepTo_slot, State.setSlot_slot]
    split
    · next hj => rw [hj]
    · rfl
  case failed =>
    refine ⟨_, exec_keySweeperVisit_goesOn hm hbusy hlast .., ?_⟩
    rw [State.visit_kept hlow hkey ho (by simp [Flash.fails, hA]), Flash.seen_second_failed hA]
    refine ⟨?_, fun j hj => ?_⟩
    · rw [State.sweepTo_slot, State.setSlot_slot_same]
    · rw [State.sweepTo_slot, State.setSlot_slot_ne _ _ hj]

/-! ### KEY_DESTROY_COMPLETE of a slot that is empty already (R334) -/

/-- A slot that the sweeper has freed while a KEY.DESTROY waits is not freed again: the request replies, and nothing else
happens. -/
theorem exec_keyDestroyComplete_empty {s w : State} {k : Nat} {l : Live} (hbusy : s.keyBusy k = false)
    (htake : s.takeLive (fun l => l.job == .keyDestroy k) = some (l, w)) (hempty : (s.slot k).key = none) :
    exec (.keyDestroyComplete k) s = .next (w.complete l.rq false .ok 0 (be 2 0)) := by
  obtain ⟨-, -, rfl⟩ := takeLive_some htake
  have hnone : (({ s with live := s.live.erase l } : State).slot k).key.isNone = true := Option.isNone_iff_eq_none.mpr hempty
  show execKeyDestroyComplete k s = _
  simp [execKeyDestroyComplete, hbusy, State.finish, htake, hnone]

/-- A KEY.DESTROY of slot 0x100 that waits. -/
def destroying : Live :=
  ⟨⟨.ring (.slice 0) 0 0 0 0, [], .keyDestroy, be 2 0x100, [], ⟨[], false, false, 0, [], false, [], none⟩, 0, 0, 0, false, false, 0,
    none⟩, .keyDestroy 0x100⟩

/-- The delivered module with that request in flight. -/
def awaitingDestroy : State := { State.reset with live := [destroying] }

/-- Refutes O29: the completion of a KEY.DESTROY whose slot is empty already, as when the sweeper has freed it meanwhile (R334),
leaves the generation of the slot. -/
theorem not_keysAreDestroyedAndNarrowed : ¬Obligations.KeysAreDestroyedAndNarrowed := by
  rintro ⟨⟨-, hcompletes⟩, -⟩
  have htake : awaitingDestroy.takeLive (fun l => l.job == .keyDestroy 0x100) =
      some (destroying, { awaitingDestroy with live := awaitingDestroy.live.erase destroying }) := rfl
  obtain ⟨u, hexec, -, hgen, -⟩ := hcompletes awaitingDestroy _ 0x100 destroying rfl htake (by decide)
  have hu := Host.Outcome.next.inj ((exec_keyDestroyComplete_empty rfl htake rfl).symm.trans hexec)
  rw [← hu, State.slot_of_slots (t := awaitingDestroy) (by simp)] at hgen
  exact absurd hgen (by decide)

/-! ### Signing requests of a lost HSS key (R384) -/

/-- A signing request that names the slot of a lost HSS key of its owner is not answered like one that names an empty slot. -/
theorem firstFail_keyChecks_hssLost {s : State} {rq : Rq} {k : Nat} (hnone : s.keyFor rq.owner k = none)
    (hlost : s.hssLost rq k = true) (ok : Key → Bool) : firstFail (s.keyChecks rq k ok) = some (.fault, 0x00A3) := by
  simp [State.keyChecks, hnone, hlost, firstFail]

/-- The delivered module after an HSS key of slice 0 was lost in slot 0x100. -/
def hssGone : State := State.reset.setSlot 0x100 ⟨1, false, none, some 0⟩

/-- PK.SIGN of slice 0 by HSS with the key in slot 0x100. -/
def hssSigning : Rq :=
  ⟨.ring (.slice 0) 0 0 0 0, [], .pkSign, be 2 0x100 ++ [4#8], [], ⟨[], false, false, 0, [], false, [], none⟩, 0, 0, 0, false, false,
    0, none⟩

/-- Refutes O31: PK.SIGN with an HSS key that was lost names an empty slot and is answered with ST_FAULT, DETAIL 0x00A3 (R384). -/
theorem not_orphansAndForeignKeysAreRefused : ¬Obligations.OrphansAndForeignKeysAreRefused := by
  rintro ⟨-, hforeign⟩
  obtain ⟨hnone, hanswer, -⟩ := hforeign hssGone hssSigning 0x100 (fun _ => true) (.inr (.inl (by decide)))
  rw [firstFail_keyChecks_hssLost hnone (by decide)] at hanswer
  exact absurd hanswer (by decide)

end Sys2Proof.Machine
end

section
/-! PROOFS. Attestation (chapter 10) and the random numbers of chapter 19: the leaves of an HSS key, the build of its next
bottom tree, and the DRBG with its continuous tests. -/

namespace Sys2Proof.Machine

/-! ### Leaves of an HSS key (R366, R367) -/

/-- The checks before a leaf is used pass when NEXT is not lost, a leaf is left and its bottom tree is built. -/
theorem Hss.firstFail_checks {h : Hss} :
    firstFail h.checks = none ↔ h.lost = false ∧ h.spent = false ∧ h.leaf / 2 ^ 20 ≤ h.built := by
  rw [← Nat.not_lt, ← decide_eq_false_iff_not, Hss.checks]
  cases h.lost <;> cases h.spent <;> cases decide (h.built < h.leaf / 2 ^ 20) <;> simp [firstFail]

@[simp] theorem Hss.use_leaf (h : Hss) : h.use.leaf = h.leaf + 1 := rfl

@[simp] theorem Hss.use_lost (h : Hss) : h.use.lost = h.lost := rfl

/-- Inside the reserved block a signature leaves NEXT alone (R367). -/
theorem Hss.use_next_of_lt {h : Hss} (hlt : h.leaf < h.next) : h.use.next = h.next := if_neg hlt.ne

/-- At the end of the reserved block a signature reserves the next 1,024 leaves first (R367). -/
theorem Hss.use_next_of_eq {h : Hss} (heq : h.leaf = h.next) : h.use.next = h.next + 1024 := if_pos heq

/-- Settles O44: NEXT moves only when the leaf has reached it, and then by a whole block. -/
theorem noLeafIsUsedTwice : Obligations.NoLeafIsUsedTwice := by
  intro h hle hchecks
  obtain ⟨hlost, -, -⟩ := Hss.firstFail_checks.mp hchecks
  rw [Hss.use_leaf, Hss.use_lost]
  rcases hle.lt_or_eq with hlt | heq
  case inl =>
    rw [Hss.use_next_of_lt hlt]
    exact ⟨rfl, hlt, le_rfl, hlost, fun _ => rfl⟩
  case inr =>
    rw [Hss.use_next_of_eq heq]
    exact ⟨rfl, by omega, by omega, hlost, fun hlt => absurd heq hlt.ne⟩

/-! ### The next bottom tree (R369) -/

theorem Hss.finishBuild_of_building {h : Hss} (hb : h.building = true) :
    h.finishBuild = { h with built := h.built + 1, building := false } := if_pos hb

theorem exec_bottomTreeBuilt_key {s : State} {k : Nat} {key : Key} (hk : k ≠ 2) (hkey : (s.slot k).key = some key)
    (htype : key.attr.type = 0x30) : exec (.bottomTreeBuilt k) s =
      .next (s.setSlot k { s.slot k with key := some { key with hss := key.hss.finishBuild } }) := by
  show execBottomTreeBuilt k s = _
  simp [execBottomTreeBuilt, hk, hkey, htype]

theorem exec_bottomTreeBuilt_identity {s : State} (hid : s.ks.identity = true) :
    exec (.bottomTreeBuilt 2) s = .next (s.mapKs (fun v => { v with hss := v.hss.finishBuild })) :=
  congrArg Host.Outcome.next (if_pos hid)

/-! ### The indicator after an evaluation (R623, R632) -/

/-- Of the power state an evaluation changes the indicator alone, and not before the module is ready. -/
theorem State.evaluate_pow {s : State} (hready : s.pow.ready = true) (origin : Nat) :
    (s.evaluate origin).pow = { s.pow with approved := s.indicator } := by
  by_cases hsame : s.indicator = s.pow.approved
  · simp [State.evaluate, hsame]
  · simp [State.evaluate, hready, hsame]

theorem State.indicator_stopped {s : State} (hstop : s.pow.drbgStop = true) : s.indicator = 2 := by
  simp [State.indicator, hstop]

/-! ### The DRBG and its continuous tests (R627, R629) -/

theorem exec_drbgReseed_due {s : State} (hdue : 2 ^ 20 ≤ s.pow.drbgReqs) :
    exec .drbgReseed s = .next (s.mapPow (fun p => { p with drbgReqs := 0 })) :=
  congrArg Host.Outcome.next (if_pos hdue)

@[simp] theorem State.stopDrbg_ks (s : State) (test : Nat) : (s.stopDrbg test).ks = s.ks := by simp [State.stopDrbg]

/-- The DRBG of a ready module stops with the indicator at ERROR, and the rest of the power state stays. -/
theorem State.stopDrbg_pow {s : State} (hready : s.pow.ready = true) (test : Nat) :
    (s.stopDrbg test).pow = { s.pow with drbgStop := true, approved := 2 } := by
  rw [State.stopDrbg, State.evaluate_pow (by simp [hready]), State.indicator_stopped (by simp)]
  simp

section
variable {s : State} {test : Nat} (hmain : s.pow.main = true) (hready : s.pow.ready = true) (hruns : s.pow.drbgStop = false)
  (hlow : 1 ≤ test) (hhigh : test ≤ 2)
include hmain hready hruns hlow hhigh

/-- A continuous test of a ready module that fails stops the DRBG, and the repetition of the start-up tests decides the rest. -/
theorem exec_entropyTestFailure (passes : Bool) : exec (.entropyTestFailure test passes) s = .next
    (((s.stopDrbg test).mapPow (fun p => if passes then { p with drbgStop := false, drbgReqs := 0 }
      else { p with halted := true, selftest := 2 })).evaluate noOrigin) := by
  show execEntropyTestFailure test passes s = _
  cases passes <;> simp [execEntropyTestFailure, hmain, hready, hruns, Nat.not_lt.mpr hlow, Nat.not_lt.mpr hhigh]

/-- With the repetition failed, the DRBG stays stopped and the module halts. -/
theorem exec_entropyTestFailure_halts : ∃ u, exec (.entropyTestFailure test false) s = .next u ∧ u.pow.drbgStop = true ∧
    u.pow.halted = true ∧ u.pow.approved = 2 ∧ u.ks = s.ks := by
  refine ⟨_, exec_entropyTestFailure hmain hready hruns hlow hhigh false, ?_⟩
  have hpow := State.stopDrbg_pow hready test
  rw [State.evaluate_pow (by simp [hpow, hready]), State.indicator_stopped (by simp [hpow])]
  simp [hpow]

/-- With the repetition passed, the DRBG is seeded afresh and the module goes on. -/
theorem exec_entropyTestFailure_reseeds : ∃ u, exec (.entropyTestFailure test true) s = .next u ∧ u.pow.drbgStop = false ∧
    u.pow.drbgReqs = 0 ∧ u.pow.halted = s.pow.halted ∧ u.ks = s.ks := by
  refine ⟨_, exec_entropyTestFailure hmain hready hruns hlow hhigh true, ?_⟩
  have hpow := State.stopDrbg_pow hready test
  rw [State.evaluate_pow (by simp [hpow, hready])]
  simp [hpow]

end

/-- Settles O40: the build of a bottom tree, the reseed, and both ends of a failed continuous test. -/
theorem backgroundWorkEnds : Obligations.BackgroundWorkEnds := by
  intro s k key
  refine ⟨fun hk hkey htype hbuilding => ?_, fun hid hbuilding => ?_, exec_drbgReseed_due,
    fun hmain hready hruns test hlow hhigh => ⟨exec_entropyTestFailure_halts hmain hready hruns hlow hhigh,
      exec_entropyTestFailure_reseeds hmain hready hruns hlow hhigh⟩⟩
  · rw [exec_bottomTreeBuilt_key hk hkey htype, Hss.finishBuild_of_building hbuilding]
  · rw [exec_bottomTreeBuilt_identity hid, State.mapKs, Hss.finishBuild_of_building hbuilding]

end Sys2Proof.Machine
end

section
/-! PROOFS. Cipher lanes (chapter 11), the counter modes of Table 11-2: a data block is combined with a block of the key stream,
which AES gives in full for a key of 16, 24 or 32 bytes, so that the same stream applied twice gives the data back. -/

namespace Sys2Proof.Machine

/-! ### Byte strings combined byte by byte -/

@[simp] theorem xorBytes_length (a b : List Byte) : (xorBytes a b).length = min a.length b.length := List.length_zipWith

/-- The bytes beyond a first piece are combined with what stands behind a key stream of its length. -/
theorem xorBytes_append (d a b : List Byte) :
    xorBytes d (a ++ b) = xorBytes (d.take a.length) a ++ xorBytes (d.drop a.length) b := by
  induction a generalizing d with
  | nil => simp [xorBytes]
  | cons x a ih =>
    cases d with
    | nil => simp [xorBytes]
    | cons y d => simpa [xorBytes] using ih d

/-- A byte string combined twice with one that is as long comes back. -/
theorem xorBytes_xorBytes_cancel {d k : List Byte} (h : d.length ≤ k.length) : xorBytes (xorBytes d k) k = d := by
  induction d generalizing k with
  | nil => rfl
  | cons x d ih =>
    cases k with
    | nil => simp at h
    | cons y k =>
      have hrest := ih (Nat.le_of_succ_le_succ h)
      simp only [xorBytes, List.zipWith_cons_cons] at hrest ⊢
      rw [hrest, BitVec.xor_assoc, BitVec.xor_self, BitVec.xor_zero]

/-! ### Pieces of a list -/

/-- A list of `n` times `k` elements is cut into `n` pieces of `k` elements. -/
theorem chunksOf_whole {α : Type} {k : Nat} (hk : 0 < k) {fuel n : Nat} {l : List α} (hl : l.length = k * n) (hf : n ≤ fuel) :
    (chunksOf k fuel l).length = n ∧ ∀ c ∈ chunksOf k fuel l, c.length = k := by
  induction fuel generalizing n l with
  | zero => simp [chunksOf, Nat.le_zero.mp hf]
  | succ fuel ih =>
    cases l with
    | nil =>
      have hn : n = 0 := by simpa [hk.ne'] using hl
      simp [chunksOf, hn]
    | cons x l =>
      cases n with
      | zero => simp at hl
      | succ n =>
        rw [Nat.mul_succ] at hl
        obtain ⟨hlen, hmem⟩ := ih (n := n) (l := (x :: l).drop k) (by rw [List.length_drop, hl, Nat.add_sub_cancel])
          (Nat.le_of_succ_le_succ hf)
        have hfirst : ((x :: l).take k).length = k := by rw [List.length_take, hl]; omega
        exact ⟨congrArg (· + 1) hlen, fun c hc => (List.mem_cons.mp hc).elim (fun h => h ▸ hfirst) (hmem c)⟩

theorem blocks_whole {k n : Nat} (hk : 0 < k) {l : List Byte} (hl : l.length = k * n) :
    (blocks k l).length = n ∧ ∀ c ∈ blocks k l, c.length = k :=
  chunksOf_whole hk hl (hl ▸ Nat.le_mul_of_pos_left n hk)

/-! ### The length of an AES block -/

theorem getD_length_of_words {ws : List (List Byte)} (hw : ∀ w ∈ ws, w.length = 4) {i : Nat} (hi : i < ws.length) :
    (ws.getD i []).length = 4 := by
  rw [List.getD_eq_getElem _ _ hi]
  exact hw _ (List.getElem_mem hi)

/-- The key schedule goes on by one word of four bytes at a time. -/
theorem expandKey_words {nk : Nat} (hnk : 0 < nk) (fuel i : Nat) (rcon : Byte) {ws : List (List Byte)} (hlen : nk ≤ ws.length)
    (hw : ∀ w ∈ ws, w.length = 4) : (expandKey nk fuel i rcon ws).length = ws.length + fuel ∧
      ∀ w ∈ expandKey nk fuel i rcon ws, w.length = 4 := by
  induction fuel generalizing i rcon ws with
  | zero => exact ⟨rfl, hw⟩
  | succ fuel ih =>
    have hprev := getD_length_of_words hw (hnk.trans_le hlen)
    have hback := getD_length_of_words hw (show nk - 1 < ws.length by omega)
    rw [expandKey, Nat.add_comm fuel 1, ← Nat.add_assoc]
    refine ih _ _ (hlen.trans (Nat.le_succ _)) (List.forall_mem_cons.mpr ⟨?_, hw⟩)
    generalize ws.getD 0 [] = prev at hprev ⊢
    rw [xorBytes_length, hback]
    split
    · simp [xorBytes_length, hprev]
    · split <;> simp [hprev]

/-- The last round key of AES has 16 bytes (FIPS 197). -/
theorem roundKeys_last_length {key : List Byte} {nk : Nat} (hnk : 0 < nk) (hkey : key.length = 4 * nk) :
    ((roundKeys key).getLastD []).length = 16 := by
  obtain ⟨hcount, hwords⟩ := blocks_whole (by decide) hkey
  obtain ⟨htotal, hfour⟩ := expandKey_words hnk (4 * (nk + 7) - nk) nk 1#8 (ws := (blocks 4 key).reverse)
    (by rw [List.length_reverse, hcount]) (by simpa using hwords)
  have hflat : ((expandKey nk (4 * (nk + 7) - nk) nk 1#8 (blocks 4 key).reverse).reverse.flatten).length = 16 * (nk + 7) := by
    rw [List.length_flatten, List.map_congr_left (g := fun _ => 4) (fun w hw => hfour w (List.mem_reverse.mp hw)),
      List.map_const', List.sum_replicate, List.length_reverse, htotal, List.length_reverse, hcount, smul_eq_mul]
    omega
  obtain ⟨hrounds, hsixteen⟩ := blocks_whole (by decide) hflat
  rw [roundKeys, hkey, Nat.mul_div_cancel_left nk (by decide)]
  have hne : blocks 16 (expandKey nk (4 * (nk + 7) - nk) nk 1#8 (blocks 4 key).reverse).reverse.flatten ≠ [] :=
    List.ne_nil_of_length_pos (by omega)
  rw [List.getLastD_eq_getLast?, List.getLast?_eq_some_getLast hne]
  exact hsixteen _ (List.getLast_mem hne)

/-- AES gives 16 bytes under a key of whole words. -/
theorem aesEncrypt_length {key : List Byte} {nk : Nat} (hnk : 0 < nk) (hkey : key.length = 4 * nk) (blk : List Byte) :
    (aesEncrypt key blk).length = 16 := by
  rw [aesEncrypt, xorBytes_length, roundKeys_last_length hnk hkey, shiftRows, List.length_map, List.length_range, Nat.min_self]

/-! ### Key streams -/

/-- Data combined block by block with a key stream, whose block `i` is `ks i`. -/
def streamCrypt (ks : Nat → List Byte) (data : List Byte) : List Byte :=
  ((blocks 16 data).zipIdx).flatMap fun (b, i) => xorBytes b (ks i)

theorem ctrCrypt_eq_streamCrypt (key : List Byte) (c : Nat) (d : List Byte) :
    ctrCrypt key c d = streamCrypt (fun i => aesEncrypt key (be 16 ((c + i) % 2 ^ 128))) d := rfl

theorem gctr_eq_streamCrypt (key icb d : List Byte) : gctr key icb d =
    streamCrypt (fun i => aesEncrypt key (icb.take 12 ++ be 4 ((fromBe (icb.drop 12) + i) % 2 ^ 32))) d := rfl

theorem ccmCrypt_eq_streamCrypt (key iv : List Byte) (c : Nat) (d : List Byte) :
    ccmCrypt key iv c d = streamCrypt (fun i => aesEncrypt key (ccmCtr iv (c + i))) d := rfl

/-- `n` blocks of a key stream from block `i` on. -/
def streamBytes (ks : Nat → List Byte) (n i : Nat) : List Byte := (List.range' i n).flatMap ks

section
variable {ks : Nat → List Byte} (hks : ∀ i, (ks i).length = 16)
include hks

theorem streamBytes_length (n i : Nat) : (streamBytes ks n i).length = 16 * n := by
  simp [streamBytes, List.length_flatMap, hks, Nat.mul_comm]

/-- Block by block, data meets the bytes of the key stream in order. -/
theorem chunks_eq_xorBytes (fuel i : Nat) (data : List Byte) :
    ((chunksOf 16 fuel data).zipIdx i).flatMap (fun (b, j) => xorBytes b (ks j)) = xorBytes data (streamBytes ks fuel i) := by
  induction fuel generalizing i data with
  | zero => simp [chunksOf, streamBytes, xorBytes]
  | succ fuel ih =>
    cases data with
    | nil => simp [chunksOf, xorBytes]
    | cons x data =>
      have hstream : streamBytes ks (fuel + 1) i = ks i ++ streamBytes ks fuel (i + 1) := by
        simp [streamBytes, List.range'_succ]
      rw [hstream, xorBytes_append, hks, ← ih, chunksOf, List.zipIdx_cons, List.flatMap_cons]
      exact List.cons_ne_nil x data

theorem streamCrypt_eq_xorBytes (data : List Byte) : streamCrypt ks data = xorBytes data (streamBytes ks data.length 0) :=
  chunks_eq_xorBytes hks data.length 0 data

/-- A key stream of whole blocks, applied twice, gives the data back. -/
theorem streamCrypt_streamCrypt (data : List Byte) : streamCrypt ks (streamCrypt ks data) = data := by
  have hcover : data.length ≤ (streamBytes ks data.length 0).length := by rw [streamBytes_length hks]; omega
  have hlen : (streamCrypt ks data).length = data.length := by
    rw [streamCrypt_eq_xorBytes hks, xorBytes_length, Nat.min_eq_left hcover]
  rw [streamCrypt_eq_xorBytes hks (streamCrypt ks data), hlen, streamCrypt_eq_xorBytes hks, xorBytes_xorBytes_cancel hcover]

end

/-- Settles O35: each mode is a key stream of AES blocks (R388), and `streamCrypt_streamCrypt` holds for every such stream. -/
theorem counterModesUndoThemselves : Obligations.CounterModesUndoThemselves := by
  intro key iv d c hkey _
  obtain ⟨nk, hnk, hwords⟩ : ∃ nk, 0 < nk ∧ key.length = 4 * nk := by
    rcases hkey with h | h | h
    · exact ⟨4, by decide, h⟩
    · exact ⟨6, by decide, h⟩
    · exact ⟨8, by decide, h⟩
  have hundo (blk : Nat → List Byte) (data : List Byte) :
      streamCrypt (fun i => aesEncrypt key (blk i)) (streamCrypt (fun i => aesEncrypt key (blk i)) data) = data :=
    streamCrypt_streamCrypt (fun i => aesEncrypt_length hnk hwords (blk i)) data
  simp only [ctrCrypt_eq_streamCrypt, gcmCrypt, gctr_eq_streamCrypt, ccmCrypt_eq_streamCrypt]
  exact ⟨hundo _ d, fun _ => hundo _ d, hundo _ d⟩

end Sys2Proof.Machine
end

section
/-! PROOFS. Cipher lanes (chapter 11), the SEAL and HASH commands: what each leaves to the lanes once its checks pass, and how a
segment of bulk work ends. -/

namespace Sys2Proof.Machine

/-! ### The shared steps of these commands -/

/-- A command goes on with an input that may be absent (R157). -/
theorem withInput?_reads {t : State} {rq : Rq} {i at' : Nat} {bs : List Byte} {f : List Byte → State → Act}
    (h : InputIs t rq i at' bs) : Act.withInput? t rq i at' f = f bs (t.tookIn rq at') := by
  rcases h with ⟨habsent, rfl⟩ | ⟨hpresent, hdata⟩
  · simp [Act.withInput?, State.tookIn, habsent]
  · simp [Act.withInput?, State.tookIn, hpresent, withInput_data hdata]

@[simp] theorem firstFail_needLane {s : State} : firstFail s.needLane = none ↔ s.laneInService = true := by
  simp [State.needLane]

/-- A command whose own part leaves bulk work stays in flight with it, and idle lanes are given segments. -/
theorem schedules_bulk {c : Instr} {s t u : State} {v : Via} {o : Op} {rt : Route} {p : List Byte} {arr : Nat × Nat} {x : Ext}
    {mine : Op → List Byte → Bool} {run : Rq → State → Act} {b : Bulk} (hc : exec c s = .next (s.request v x mine run).schedule)
    (h : Arrives s v o rt p arr t) (hx : x.intact = true) (hm : mine o (p.drop 16) = true)
    (hr : run (t.request? rt p arr o x) t = .bulk u b) :
    exec c s = .next (u.hold t.evr.next (t.request? rt p arr o x) (.bulk b)).schedule := by
  rw [hc, request_arrives h hx mine run hm, hr, Act.bulk, settle_of_park]

/-! ### SEAL.ONCE (R404, R405) -/

/-- A SEAL.ONCE that has the form of Table 11-6 and names a key that it may use. -/
structure SealOnceFits (t : State) (rq : Rq) (key : Key) : Prop where
  length   : rq.body.length = 88
  random   : t.pow.drbgStop = false
  lane     : t.laneInService = true
  form     : firstFail (sealForm rq.body 7) = none
  noOutput : at8 rq.body 2 = algCmac → descAbsent rq.body 56 = true
  noTag    : (at8 rq.body 3 = 2 ∧ tagged (at8 rq.body 2) = true) ∨ zeroAt rq.body 72 16 = true
  aad      : firstFail (t.dataDesc rq 24) = none
  data     : firstFail (t.dataDesc rq 40) = none
  out      : firstFail (t.mayDesc rq 56 2) = none
  limits   : dataOk (at8 rq.body 2) (at8 rq.body 3) (at8 rq.body 5) (descLen rq.body 40) = true
  room     : outLen (at8 rq.body 2) (at8 rq.body 3) (descLen rq.body 40) ≤ descLen rq.body 56
  mayUse   : firstFail (t.sealKey rq (fld rq.body 0 2) (at8 rq.body 2) (at8 rq.body 3)) = none
  cached   : t.cachedKey rq.owner (fld rq.body 0 2) = some key
  entry    : fld rq.body 0 2 ∉ rq.x.keyErrs
  agrees   : rq.x.split = false

/-- The reserved output descriptor and tag of R94, as SEAL.ONCE and the parts of a stream check them. -/
theorem reserved_ok {absent zero noOut tag : Bool} (hout : noOut = true → absent = true) (htag : tag = true ∨ zero = true) :
    ((noOut && !absent) || (!tag && !zero)) = false := by
  cases absent <;> cases zero <;> cases noOut <;> cases tag <;> simp_all

theorem doSealOnce_bulk {t : State} {rq : Rq} {key : Key} {aad data : List Byte} (hf : SealOnceFits t rq key)
    (haad : InputIs (t.touchKey (fld rq.body 0 2)) rq 0 24 aad)
    (hdata : InputIs ((t.touchKey (fld rq.body 0 2)).tookIn rq 24) rq 1 40 data) :
    let a := (((t.touchKey (fld rq.body 0 2)).tookIn rq 24).tookIn rq 40).drewDelay
    let r := sealOnce rq.body rq.owner (fld rq.body 0 2) key.secret (a.sealIv rq.body).1 aad data
    r.2.2.2.length ≤ descLen rq.body 56 →
    doSealOnce rq t = .bulk ((a.sealIv rq.body).2.counted (fld rq.body 0 2) key (at8 rq.body 2) (at8 rq.body 3))
      ⟨rq.owner, fld rq.body 0 2, segments (aad.length + data.length), 0, r.1, r.2.1, r.2.2.1, outAt rq.body 56, r.2.2.2, none,
        none⟩ := by
  intro a r hlen
  have hreserved : ((at8 rq.body 2 == algCmac && !descAbsent rq.body 56) ||
      (!(at8 rq.body 3 == 2 && tagged (at8 rq.body 2)) && !zeroAt rq.body 72 16)) = false :=
    reserved_ok (by simpa using hf.noOutput) (by simpa using hf.noTag)
  unfold doSealOnce
  dsimp only
  rw [guard_none ?checks, withKey_cached hf.cached hf.entry, withInput?_reads haad, withInput?_reads hdata,
    twice_agrees hf.agrees]
  · exact if_neg (Nat.not_lt.mpr hlen)
  case checks =>
    simp only [firstFail_append_none, firstFail_needLength, State.firstFail_needRandom, firstFail_needLane, firstFail_cons_none,
      firstFail_nil, hf.length, hf.random, hf.lane, hf.form, hreserved, hf.aad, hf.data, hf.out, hf.limits, hf.mayUse,
      decide_eq_false (Nat.not_lt.mpr hf.room), Bool.not_true, Bool.or_false, and_self]

/-! ### Segments (R395, R396) -/

theorem State.find_of_takeLive {s w : State} {q : Live → Bool} {l : Live} (h : s.takeLive q = some (l, w)) :
    s.live.find? q = some l := by
  unfold State.takeLive at h
  split at h
  · cases h
  · next m hm => cases h; exact hm

section
variable {s w : State} {lane i : Nat} {l : Live} {b : Bulk} (hctx : (s.lane lane).bulkCtx = some i)
  (htake : (s.endWork (.bulk i)).takeLive (Live.bulkOf i) = some (l, w)) (hjob : l.job = .bulk b)
include hctx htake hjob

/-- The last segment of an operation ends it. -/
theorem exec_segmentComplete_last (hlast : b.segs ≤ 1) : exec (.segmentComplete lane false) s =
    .next (((b.finish l.rq.route.origin w).settle s.evr.next l.rq).schedule).pump := by
  have hfind : s.live.find? (Live.bulkOf i) = some l := by simpa using State.find_of_takeLive htake
  show Host.Outcome.next (s.segment lane false).pump = _
  simp [State.segment, hctx, hfind, hjob, hlast, State.finish, htake]

/-- Any other segment only counts down. -/
theorem exec_segmentComplete_more (hmore : 1 < b.segs) : exec (.segmentComplete lane false) s =
    .next ((((s.endWork (.bulk i)).setJob l (.bulk { b with segs := b.segs - 1, tries := 0 }))).schedule).pump := by
  have hfind : s.live.find? (Live.bulkOf i) = some l := by simpa using State.find_of_takeLive htake
  show Host.Outcome.next (s.segment lane false).pump = _
  simp [State.segment, hctx, hfind, hjob, Nat.not_le.mpr hmore]

end

/-- Settles O32: the command by `doSealOnce_bulk`, a segment by whether it is the last. -/
theorem sealOnceAndSegments : Obligations.SealOnceAndSegments := by
  refine ⟨?_, fun s w lane i l b hctx htake hjob =>
    ⟨exec_segmentComplete_last hctx htake hjob, exec_segmentComplete_more hctx htake hjob⟩⟩
  intro s t v x rt arr p aad data key b rq k u a r harr hlen hrandom hlane hform hnoOut hnoTag haad hdata hout hlimits hroom hkey
    hcached herr hinAad hinData hsplit hx hr
  have hf : SealOnceFits t rq key := ⟨by simp [rq, hlen], hrandom, hlane, hform, hnoOut, hnoTag, haad, hdata, hout, hlimits,
    hroom, hkey, hcached, herr, hsplit⟩
  exact schedules_bulk rfl harr hx rfl (doSealOnce_bulk hf hinAad hinData hr)

/-! ### Streams (R400-R402, R406) -/

/-- A SEAL.INIT that has the form of Table 11-6, names a key that it may use, and finds room for a stream. -/
structure SealInitFits (t : State) (rq : Rq) (key : Key) : Prop where
  length : rq.body.length = 48
  random : t.pow.drbgStop = false
  lane   : t.laneInService = true
  form   : firstFail (sealForm rq.body 5) = none
  total  : at8 rq.body 2 = algCcm ∨ fld rq.body 40 8 = 0
  aad    : firstFail (t.dataDesc rq 24) = none
  limits : at8 rq.body 2 = algCcm → dataOk (at8 rq.body 2) (at8 rq.body 3) (at8 rq.body 5) (fld rq.body 40 8) = true
  mayUse : firstFail (t.sealKey rq (fld rq.body 0 2) (at8 rq.body 2) (at8 rq.body 3)) = none
  free   : t.streamCount (ctxOf rq.owner) < 16
  handle : (t.ctx (ctxOf rq.owner)).handle ≤ 0xFFFF
  cached : t.cachedKey rq.owner (fld rq.body 0 2) = some key
  entry  : fld rq.body 0 2 ∉ rq.x.keyErrs
  agrees : rq.x.split = false

/-- The state that SEAL.INIT leaves: the IV drawn, the protect operation counted, and the next handle one further. -/
def State.streamStarted (a : State) (rq : Rq) (key : Key) (h : Nat) : State :=
  let s := (a.sealIv rq.body).2
  (s.counted (fld rq.body 0 2) key (at8 rq.body 2) (at8 rq.body 3)).setCtx (ctxOf rq.owner)
    { s.ctx (ctxOf rq.owner) with handle := h + 1 }

theorem State.sealIv_ctxs (s : State) (b : List Byte) : (s.sealIv b).2.ctxs = s.ctxs := by
  unfold State.sealIv
  dsimp only
  split <;> simp

theorem State.tookIn_ctxs (s : State) (rq : Rq) (at' : Nat) : (s.tookIn rq at').ctxs = s.ctxs := by simp [State.tookIn]

theorem doSealInit_bulk {t : State} {rq : Rq} {key : Key} {aad : List Byte} (hf : SealInitFits t rq key)
    (haad : InputIs (t.touchKey (fld rq.body 0 2)) rq 0 24 aad) :
    let a := ((t.touchKey (fld rq.body 0 2)).tookIn rq 24).drewDelay
    let h := (t.ctx (ctxOf rq.owner)).handle
    doSealInit rq t = .bulk (a.streamStarted rq key h) ⟨rq.owner, fld rq.body 0 2, segments aad.length, 0, .ok, 0,
      be 2 h ++ zeros 2 ++ padTo 16 (a.sealIv rq.body).1, none, [],
      some (Stream.start rq.owner h (fld rq.body 0 2) key.secret (at8 rq.body 2) (at8 rq.body 3) (at8 rq.body 4)
        (a.sealIv rq.body).1 aad (fld rq.body 40 8)), none⟩ := by
  intro a h
  have hctxs : (a.sealIv rq.body).2.ctxs = t.ctxs := by simp [State.sealIv_ctxs, a, State.tookIn_ctxs]
  have hhandle : ((a.sealIv rq.body).2.ctx (ctxOf rq.owner)).handle = h :=
    congrArg Ctx.handle (State.ctx_of_ctxs hctxs _)
  have htotal : (at8 rq.body 2 != algCcm && fld rq.body 40 8 != 0) = false := by
    rcases hf.total with halg | hzero
    · simp [halg]
    · simp [hzero]
  have hlimits : (at8 rq.body 2 == algCcm && !dataOk (at8 rq.body 2) (at8 rq.body 3) (at8 rq.body 5) (fld rq.body 40 8)) =
      false := by
    by_cases halg : at8 rq.body 2 = algCcm
    · simp [hf.limits halg]
    · simp [halg]
  unfold doSealInit
  dsimp only
  rw [guard_none ?checks, withKey_cached hf.cached hf.entry, withInput?_reads haad, twice_agrees hf.agrees, hhandle]
  · rfl
  case checks =>
    simp only [firstFail_append_none, firstFail_needLength, State.firstFail_needRandom, firstFail_needLane, firstFail_cons_none,
      firstFail_nil, hf.length, hf.random, hf.lane, hf.form, htotal, hf.aad, hlimits, hf.mayUse,
      decide_eq_false (Nat.not_le.mpr hf.free), decide_eq_false (Nat.not_lt.mpr hf.handle), Bool.or_false, and_self]

/-- A part of a stream that has the form of Table 11-6 and whose stream and key are there. -/
structure PartFits (t : State) (rq : Rq) (last : Bool) (size : Nat) (w : Stream) (key : Key) : Prop where
  length   : rq.body.length = size
  random   : t.pow.drbgStop = false
  lane     : t.laneInService = true
  zero     : zeroAt rq.body 2 6 = true
  inOrder  : t.streamBusy rq (fld rq.body 0 2) = false
  stream   : t.stream (ctxOf rq.owner) (fld rq.body 0 2) = some w
  noOutput : w.alg = algCmac → descAbsent rq.body 24 = true
  noTag    : last = true → (w.op = 2 ∧ tagged w.alg = true) ∨ zeroAt rq.body 40 16 = true
  data     : firstFail (t.dataDesc rq 8) = none
  out      : firstFail (t.mayDesc rq 24 2) = none
  limits   : firstFail (w.partChecks last (descLen rq.body 8) (descLen rq.body 24)) = none
  mayUse   : firstFail (t.partKey rq w) = none
  cached   : t.cachedKey rq.owner w.key = some key
  entry    : w.key ∉ rq.x.keyErrs
  agrees   : rq.x.split = false

theorem sealPart_runs {t : State} {rq : Rq} {last : Bool} {size : Nat} {w : Stream} {key : Key} {data : List Byte}
    (hf : PartFits t rq last size w key) (hin : InputIs (t.touchKey w.key) rq 0 8 data)
    (k : Stream → List Byte → List Byte → State → Act) :
    sealPart rq last size t k = k w key.secret data ((t.touchKey w.key).tookIn rq 8).drewDelay := by
  have hreserved : ((w.alg == algCmac && !descAbsent rq.body 24) ||
      (last && !(w.op == 2 && tagged w.alg) && !zeroAt rq.body 40 16)) = false := by
    cases last with
    | false => simpa using hf.noOutput
    | true => exact reserved_ok (by simpa using hf.noOutput) (by simpa using hf.noTag rfl)
  unfold sealPart
  dsimp only
  rw [guard_none (by simpa using hf.lane), hf.inOrder, if_neg Bool.false_ne_true,
    guard_none (by simp [hf.length, hf.random, hf.zero]), hf.stream]
  dsimp only
  rw [guard_none ?checks, withKey_cached hf.cached hf.entry, withInput?_reads hin, twice_agrees hf.agrees]
  case checks =>
    simp only [firstFail_append_none, firstFail_cons_none, firstFail_nil, hreserved, hf.data, hf.out, hf.limits, hf.mayUse,
      and_self]

theorem doSealAbort_drops {t : State} {rq : Rq} (hlen : rq.body.length = 8) (hzero : zeroAt rq.body 2 6 = true)
    (hlane : t.laneInService = true) (hfree : t.streamBusy rq (fld rq.body 0 2) = false) : doSealAbort rq t =
    .done .ok 0 [] (t.setCtx (ctxOf rq.owner) { t.ctx (ctxOf rq.owner) with
      streams := (t.ctx (ctxOf rq.owner)).streams.filter (fun u => u.handle != fld rq.body 0 2) }) := by
  unfold doSealAbort
  dsimp only
  rw [guard_none (by simp [hlen, hlane, hzero]), hfree, if_neg Bool.false_ne_true]
  rfl

/-- Settles O33: SEAL.INIT by `doSealInit_bulk`, SEAL.ABORT by `doSealAbort_drops`, and both kinds of part by `sealPart_runs`. -/
theorem streamsRunInOrder : Obligations.StreamsRunInOrder := by
  refine ⟨?whole, ?parts⟩
  case whole =>
    intro s t v x rt arr p b
    refine ⟨?init, ?abort⟩
    case init =>
      intro aad key rq i k a h harr hlen hrandom hlane hform htotal haad hlimits hkey hfree hhandle hcached herr hin hsplit hx
      have hf : SealInitFits t rq key := ⟨by simp [rq, hlen], hrandom, hlane, hform, htotal, haad, hlimits, hkey, hfree, hhandle,
        hcached, herr, hsplit⟩
      exact ⟨a.streamStarted rq key h, schedules_bulk rfl harr hx rfl (doSealInit_bulk hf hin),
        by simp [State.streamStarted, rq, i]⟩
    case abort =>
      intro rq i harr hlen hzero hlane hfree
      exact completes rfl harr rfl (doSealAbort_drops (by simp [hlen]) hzero hlane hfree)
  case parts =>
    intro s t v x rt arr p data w key b h a r hrandom hlane hzero _ herr hsplit hx
    refine ⟨?update, ?final⟩
    case update =>
      intro rq harr hlen hfree hstream hnoOut hdata hout hlimits hkey hcached hin
      have hf : PartFits t rq false 40 w key := ⟨by simp [rq, hlen], hrandom, hlane, hzero, hfree, hstream, hnoOut,
        fun hlast => absurd hlast Bool.false_ne_true, hdata, hout, hlimits, hkey, hcached, herr, hsplit⟩
      exact schedules_bulk rfl harr hx rfl (sealPart_runs hf hin _)
    case final =>
      intro rq ok harr hlen hfree hstream hnoOut hnoTag hdata hout hlimits hkey hcached hin
      have hf : PartFits t rq true 56 w key := ⟨by simp [rq, hlen], hrandom, hlane, hzero, hfree, hstream, hnoOut,
        fun _ => hnoTag, hdata, hout, hlimits, hkey, hcached, herr, hsplit⟩
      exact schedules_bulk rfl harr hx rfl (sealPart_runs hf hin _)

/-! ### HASH.DIGEST (R408) -/

theorem digestAct_replies {b : List Byte} (hop : at8 b 1 = 1) (value : List Byte) (s : State) :
    digestAct b false value s = .done .ok 0 ([byte (at8 b 4)] ++ zeros 3 ++ padTo 64 (value.take (at8 b 4))) s := by
  simp [digestAct, hop]

/-- A HASH.DIGEST for the value of hash `h` that has the form of Table 11-6. -/
structure DigestForm (t : State) (rq : Rq) (h : Hash) : Prop where
  length : rq.body.length = 88
  alg    : Hash.ofAlg (at8 rq.body 0) = some h
  op     : at8 rq.body 1 = 1
  zero   : zeroAt rq.body 5 3 = true
  value  : zeroAt rq.body 24 64 = true
  size   : hashTagOk h.len (fld rq.body 2 2) (at8 rq.body 4) = true
  desc   : firstFail (t.dataDesc rq 8) = none

section
variable {t : State} {rq : Rq} {h : Hash} {data : List Byte} (hf : DigestForm t rq h)
include hf

theorem doHashDigest_hashes (hnokey : fld rq.body 2 2 = 0) (hin : InputIs t rq 0 8 data) : doHashDigest false rq t =
    .done .ok 0 ([byte (at8 rq.body 4)] ++ zeros 3 ++ padTo 64 ((h.digest data).take (at8 rq.body 4))) (t.tookIn rq 8) := by
  unfold doHashDigest
  dsimp only
  rw [guard_none ?checks, if_pos hnokey, withInput?_reads hin, digestAct_replies hf.op, hf.alg]
  · rfl
  case checks => simp [hnokey, hf.length, hf.alg, hf.op, hf.zero, hf.value, hnokey ▸ hf.size, hf.desc]

theorem doHashDigest_authenticates {key : Key} (hkey : fld rq.body 2 2 ≠ 0) (hrandom : t.pow.drbgStop = false)
    (hchecks : firstFail (t.keyChecks rq (fld rq.body 2 2) (fun key => key.may uMac)) = none)
    (htype : firstFail (t.typeCheck rq.owner (fld rq.body 2 2) 2) = none)
    (hcached : t.cachedKey rq.owner (fld rq.body 2 2) = some key) (herr : fld rq.body 2 2 ∉ rq.x.keyErrs)
    (hin : InputIs (t.touchKey (fld rq.body 2 2)) rq 0 8 data) (hsplit : rq.x.split = false) : doHashDigest false rq t =
    .done .ok 0 ([byte (at8 rq.body 4)] ++ zeros 3 ++ padTo 64 ((hmac h key.secret data).take (at8 rq.body 4)))
      ((t.touchKey (fld rq.body 2 2)).tookIn rq 8).drewDelay := by
  unfold doHashDigest
  dsimp only
  rw [guard_none ?checks, if_neg hkey, withKey_cached hcached herr, withInput?_reads hin, twice_agrees hsplit,
    digestAct_replies hf.op, hf.alg]
  · rfl
  case checks =>
    simp [hkey, hf.length, hf.alg, hf.op, hf.zero, hf.value, hf.size, hf.desc, hrandom, hchecks, htype]

end

/-- Settles O34: `doHashDigest_hashes` without a key and `doHashDigest_authenticates` with one. -/
theorem hashDigestGivesTheDigest : Obligations.HashDigestGivesTheDigest := by
  intro s t v x rt arr p data h b rq n harr hlen halg hop hzero hvalue htag hdesc
  have hf : DigestForm t rq h := ⟨by simp [rq, hlen], halg, hop, hzero, hvalue, htag, hdesc⟩
  exact ⟨fun hnokey hin => completes rfl harr rfl (doHashDigest_hashes hf hnokey hin),
    fun key hkey hrandom hchecks htype hcached herr hin hsplit => completes rfl harr rfl
      (doHashDigest_authenticates hf hkey hrandom hchecks htype hcached herr hin hsplit)⟩

end Sys2Proof.Machine
end

section
/-! PROOFS. Cipher lanes (chapter 11), the states of a lane: the commands of R409 and R567, and the events that move a lane. Work
that is started, moved or dropped changes what the lanes hold and leaves each lane its state, its CAUSE and its operations left
(`State.standing`). -/

namespace Sys2Proof.Machine

/-! ### LANE.RETIRE, LANE.RESTORE and POWER.DOMAIN -/

theorem State.beginRetire_inService {s : State} {i : Nat} (h : (s.lane i).st = .inService) (origin : Nat) :
    s.beginRetire i origin =
      ((s.setLane i { s.lane i with st := .retiring, queue := [] }).wakeKept).rehome (s.lane i).queue := by
  simp [State.beginRetire, h]

section
variable {t : State} {rq : Rq} {i : Nat} (hlane : at8 rq.body 0 = i) (hlen : rq.body.length = 4)
include hlane hlen

theorem doLaneRetire_retires (hzero : zeroAt rq.body 1 3 = true) (hi : i < 4) (hst : (t.lane i).st = .inService)
    (hmore : t.inServiceCount ≠ 1) :
    doLaneRetire rq t = .park (.laneRetire i) (t.beginRetire i rq.route.origin) := by
  subst hlane
  unfold doLaneRetire
  dsimp only
  rw [guard_none (by simp [hlen, hzero, hi, hst, hmore]), hst]

theorem doLaneRetire_keepsTheLast (hzero : zeroAt rq.body 1 3 = true) (hi : i < 4) (hst : (t.lane i).st = .inService)
    (hlast : t.inServiceCount = 1) : doLaneRetire rq t = .refuse t .policy 0x00B6 := by
  subst hlane
  exact guard_fails (a := needLength rq 4 ++ needZero rq 1 3 ++ [(decide (4 ≤ at8 rq.body 0), .range, 0)])
    (c := (t.lane (at8 rq.body 0)).st == .inService && t.inServiceCount == 1) (by simp [hlen, hzero, hi])
    (by simp [hst, hlast]) _

theorem doLaneRestore_tests (hzero : zeroAt rq.body 1 3 = true) (hi : i < 4) (hst : (t.lane i).st = .retired)
    (hon : (t.lane i).on = true) : doLaneRestore rq t =
    .done .ok 0 [] (t.setLane i { t.lane i with st := .testing, gated := false }) := by
  subst hlane
  exact guard_none (by simp [hlen, hzero, hi, hst, hon])

end

section
variable {t : State} {rq : Rq} {d : Nat}

/-- A POWER.DOMAIN of a lane domain comes down to the switch of its lane. -/
theorem doPowerDomain_lane {on : Nat} (hdomain : at8 rq.body 0 = d) (hswitch : at8 rq.body 1 = on) (hlen : rq.body.length = 4)
    (hzero : zeroAt rq.body 2 2 = true) (hlow : 2 ≤ d) (hhigh : d ≤ 5) (hon : on ≤ 1) :
    doPowerDomain rq t = switchLane rq d (on == 1) t := by
  subst hdomain hswitch
  have hlanes : (at8 rq.body 0 == 0 || at8 rq.body 0 == 1 || at8 rq.body 0 == 6) = false := by
    simp only [Bool.or_eq_false_iff, beq_eq_false_iff_ne]
    omega
  unfold doPowerDomain
  dsimp only
  rw [guard_none ?checks, if_neg (by omega)]
  case checks =>
    simp only [firstFail_append_none, firstFail_needLength, firstFail_needZero, firstFail_cons_none, firstFail_nil, hlen, hzero,
      decide_eq_false (Nat.not_lt.mpr hon), decide_eq_false (show ¬ 7 < at8 rq.body 0 by omega), hlanes, and_self]

theorem switchLane_on (hoff : (t.lane (d - 2)).on = false) : switchLane rq d true t = .park (.domainOn d) t := by
  simp [switchLane, hoff]

section
variable (hon : (t.lane (d - 2)).on = true) (hst : (t.lane (d - 2)).st = .inService)
include hon hst

theorem switchLane_off (hmore : t.inServiceCount ≠ 1) :
    switchLane rq d false t = .park (.domainOff d) (t.beginRetire (d - 2) rq.route.origin) := by
  simp [switchLane, hon, hst, hmore]

theorem switchLane_keepsTheLast (hlast : t.inServiceCount = 1) : switchLane rq d false t = .refuse t .policy 0x00B6 := by
  simp [switchLane, hon, hst, hlast]

end

end

/-- Settles O9: each command comes down to `State.beginRetire` of the lane, to its test, or to the switch of its domain. -/
theorem laneCommandsTakeEffect : Obligations.LaneCommandsTakeEffect := by
  refine ⟨fun s t v x rt arr p => ⟨?retire, ?restore, ?off, ?on⟩, fun s t v x rt arr p hlast hlen => ⟨?lastRetire, ?lastOff⟩⟩
  case retire =>
    intro harr hlen hzero hi hst hmore
    rw [← State.beginRetire_inService hst rt.origin]
    exact staysInFlight rfl harr rfl (doLaneRetire_retires (by simp) (by simp [hlen]) (by simpa using hzero) hi hst hmore)
  case restore =>
    intro harr hlen hzero hi hst hon
    exact completes rfl harr rfl (doLaneRestore_tests (by simp) (by simp [hlen]) (by simpa using hzero) hi hst hon)
  case off =>
    intro harr hlen hzero hlow hhigh hswitch hon hst hmore
    rw [← State.beginRetire_inService hst rt.origin]
    exact staysInFlight rfl harr rfl ((doPowerDomain_lane (by simp) (by simpa using hswitch) (by simp [hlen])
      (by simpa using hzero) hlow hhigh (by decide)).trans (switchLane_off hon hst hmore))
  case on =>
    intro harr hlen hzero hlow hhigh hswitch hoff
    exact staysInFlight rfl harr rfl ((doPowerDomain_lane (by simp) (by simpa using hswitch) (by simp [hlen])
      (by simpa using hzero) hlow hhigh (by decide)).trans (switchLane_on hoff))
  case lastRetire =>
    intro harr hzero hi hst
    exact refuses rfl harr rfl (doLaneRetire_keepsTheLast (by simp) (by simp [hlen]) (by simpa using hzero) hi hst hlast)
  case lastOff =>
    intro harr hzero hlow hhigh hswitch hon hst
    exact refuses rfl harr rfl ((doPowerDomain_lane (by simp) (by simpa using hswitch) (by simp [hlen])
      (by simpa using hzero) hlow hhigh (by decide)).trans (switchLane_keepsTheLast hon hst hlast))

/-! ### What work on the lanes leaves of a lane -/

/-- State, CAUSE and operations left of each lane (Table 11-7). -/
def State.standing (s : State) (i : Nat) : LaneSt × Nat × Nat := ((s.lane i).st, (s.lane i).cause, (s.lane i).left)

theorem State.standing_iff {s : State} {i c n : Nat} {st : LaneSt} :
    s.standing i = (st, c, n) ↔ (s.lane i).st = st ∧ (s.lane i).cause = c ∧ (s.lane i).left = n := by
  simp [State.standing]

theorem State.lane_of_lanes {s t : State} (h : s.lanes = t.lanes) (i : Nat) : s.lane i = t.lane i := by
  rw [State.lane, State.lane, h]

theorem State.standing_of_lanes {s t : State} (h : s.lanes = t.lanes) : s.standing = t.standing :=
  funext fun i => by rw [State.standing, State.standing, State.lane_of_lanes h]

theorem State.event_lanes (s : State) (code origin : Nat) (detail : List Byte) : (s.event code origin detail).lanes = s.lanes := by
  simp

theorem State.fireLane_lanes (s : State) : s.fireLane.lanes = s.lanes := by simp

/-- An update of a lane that keeps its own standing keeps that of every lane. -/
theorem State.setLane_standing {s : State} {i : Nat} {l : Lane} (h : (l.st, l.cause, l.left) = s.standing i) :
    (s.setLane i l).standing = s.standing := by
  funext j
  rw [State.standing, State.setLane_lane]
  split
  · next hj => rw [h, hj]
  · rfl

@[simp] theorem State.copyWork_standing (s : State) (w : Work) : (s.copyWork w).standing = s.standing := by
  refine foldl_keep (fun s i => ?_) _ s
  dsimp only
  split
  · exact State.setLane_standing rfl
  · rfl

@[simp] theorem State.startNext_standing (s : State) (i : Nat) : (s.startNext i).standing = s.standing := by
  unfold State.startNext
  dsimp only
  split
  · rfl
  · split
    · exact (State.copyWork_standing ..).trans (State.setLane_standing rfl)
    · rfl

@[simp] theorem State.startWork_standing (s : State) (i : Nat) (w : Work) : (s.startWork i w).standing = s.standing :=
  (State.startNext_standing ..).trans (State.setLane_standing rfl)

@[simp] theorem State.dropWork_standing (s : State) (p : Work → Bool) : (s.dropWork p).standing = s.standing := by
  refine foldl_keep (fun s i => ?_) _ s
  split
  · exact (State.startNext_standing ..).trans (State.setLane_standing rfl)
  · rfl

@[simp] theorem State.wakeKept_standing (s : State) : s.wakeKept.standing = s.standing := by
  refine foldl_keep (fun s i => ?_) _ s
  split
  · exact State.setLane_standing rfl
  · rfl

@[simp] theorem State.rehome_standing (s : State) (ws : List Work) : (s.rehome ws).standing = s.standing := by
  refine foldl_keep (fun s w => ?_) ws s
  split
  · rfl
  · exact State.startWork_standing ..

@[simp] theorem State.startBulk_standing (s : State) : s.startBulk.standing = s.standing := by
  unfold State.startBulk
  split
  · rw [State.startWork_standing]
    rfl
  · rfl

@[simp] theorem State.schedule_standing (s : State) : s.schedule.standing = s.standing :=
  times_keep State.startBulk_standing 4 s

@[simp] theorem State.windfall_standing (s : State) (r : Rec) (st : Status) (d : Nat) (e : Bool) :
    (s.windfall r st d e).standing = s.standing := by
  have hdrop : (s.dropRecord r.ch r.seq).standing = s.standing := State.dropWork_standing ..
  rw [← hdrop]
  apply State.standing_of_lanes
  unfold State.windfall
  dsimp only
  split
  · simp
  · next htake =>
    obtain ⟨-, -, rfl⟩ := takeLive_some htake
    simp

@[simp] theorem State.windfallAll_standing (s : State) (p : Rec → Bool) (st : Status) (d : Nat) :
    (s.windfallAll p st d).standing = s.standing := foldl_keep (fun _ _ => State.windfall_standing ..) _ s

@[simp] theorem State.output_lanes (s : State) (owner : Nat) (d : Desc) (bytes : List Byte) :
    (s.output owner d bytes).lanes = s.lanes := State.output_keep (by simp) (by simp) s owner d bytes

theorem Bulk.fail_lanes (b : Bulk) (origin : Nat) (s : State) (n : Nat) (rq : Rq) :
    ((b.fail origin s).settle n rq).lanes = s.lanes := by
  unfold Bulk.fail
  dsimp only
  rw [settle_done]
  (repeat' split) <;> simp

theorem State.failAllBulk_lanes (s : State) : s.failAllBulk.lanes = s.lanes := by
  refine foldl_keep (g := State.lanes) (fun s l => ?_) _ s
  split
  · exact Bulk.fail_lanes ..
  · rfl

theorem State.answerRetire_lanes (s : State) (i : Nat) : (s.answerRetire i).lanes = s.lanes :=
  State.finish_lanes (by simp) s

@[simp] theorem State.noLaneLeft_standing (s : State) : s.noLaneLeft.standing = s.standing := by
  unfold State.noLaneLeft
  split
  · exact State.schedule_standing s
  · rw [State.standing_of_lanes (State.failAllBulk_lanes _), State.windfallAll_standing]

/-- A lane retired at once is RETIRED with its CAUSE, and what becomes of its work changes nothing about that (R415). -/
theorem State.retireNow_standing (s : State) (i cause : Nat) : (s.retireNow i cause).standing i = (.retired, cause, 0) := by
  unfold State.retireNow
  dsimp only
  rw [State.standing_of_lanes (State.answerRetire_lanes _ _), State.noLaneLeft_standing, State.standing_of_lanes (State.fireLane_lanes _),
    State.rehome_standing, State.wakeKept_standing, State.standing, State.setLane_lane_same]

theorem State.retireNow_lane (s : State) (i cause : Nat) :
    ((s.retireNow i cause).lane i).st = .retired ∧ ((s.retireNow i cause).lane i).cause = cause := by
  obtain ⟨hretired, hcause, -⟩ := State.standing_iff.mp (s.retireNow_standing i cause)
  exact ⟨hretired, hcause⟩

/-! ### Lanes out of service take no segments -/

theorem State.copyWork_work (s : State) (w : Work) (j : Nat) : ((s.copyWork w).lane j).work = (s.lane j).work := by
  refine foldl_keep (g := fun s => (State.lane s j).work) (fun s i => ?_) _ s
  dsimp only
  split
  · rw [State.setLane_lane]
    split
    · next hj => rw [hj]
    · rfl
  · rfl

theorem State.startWork_work_ne (s : State) {i j : Nat} (h : j ≠ i) (w : Work) :
    ((s.startWork i w).lane j).work = (s.lane j).work := by
  unfold State.startWork State.startNext
  dsimp only
  split
  · rw [State.setLane_lane_ne _ _ h]
  · split
    · rw [State.copyWork_work, State.setLane_lane_ne _ _ h, State.setLane_lane_ne _ _ h]
    · rw [State.setLane_lane_ne _ _ h]

theorem State.mem_idleLanes {s : State} {i : Nat} (h : i ∈ s.idleLanes) : (s.lane i).st = .inService := by
  simp only [State.idleLanes, State.inService, List.mem_append, List.mem_filter, beq_iff_eq] at h
  rcases h with ⟨⟨⟨-, hst⟩, -⟩, -⟩ | ⟨⟨⟨-, hst⟩, -⟩, -⟩
  · exact hst
  · exact hst

theorem State.startBulk_work {s : State} {j : Nat} (h : (s.lane j).st ≠ .inService) :
    (s.startBulk.lane j).work = (s.lane j).work := by
  unfold State.startBulk
  split
  · next i is k hidle hnext =>
    have hi : (s.lane i).st = .inService := State.mem_idleLanes (by rw [hidle]; exact List.mem_cons_self)
    have hji : j ≠ i := by
      rintro rfl
      exact h hi
    rw [State.startWork_work_ne _ hji]
    rfl
  · rfl

theorem State.schedule_work {s : State} {j : Nat} (h : (s.lane j).st ≠ .inService) :
    (s.schedule.lane j).work = (s.lane j).work := by
  suffices htimes : ∀ n (s : State), (s.lane j).st ≠ .inService →
      ((times State.startBulk n s).lane j).work = (s.lane j).work from htimes 4 s h
  intro n
  induction n with
  | zero => exact fun _ _ => rfl
  | succ n ih =>
    intro s h
    have hst : (s.startBulk.lane j).st = (s.lane j).st := congrArg Prod.fst (congrFun s.startBulk_standing j)
    rw [times, ih _ (hst ▸ h), State.startBulk_work h]

/-! ### Tests, probation, idle gating and drains (R410-R412, R565) -/

section
variable {s : State} {i : Nat}

theorem exec_laneTestComplete_passes (hst : (s.lane i).st = .testing) :
    exec (.laneTestComplete i true) s = .next (s.setLane i { s.lane i with st := .probation, left := 256 }) := by
  show execLaneTestComplete i true s = _
  simp [execLaneTestComplete, hst]

theorem exec_laneTestComplete_fails (hst : (s.lane i).st = .testing) :
    exec (.laneTestComplete i false) s = .next (s.laneFault i 3) := by
  show execLaneTestComplete i false s = _
  simp [execLaneTestComplete, hst]

section
variable (hst : (s.lane i).st = .probation) (hcopies : (s.lane i).copies ≠ [])
include hst hcopies

theorem exec_probationComparison_counts (hleft : 1 < (s.lane i).left) : exec (.probationComparison i true) s =
    .next (s.setLane i { s.lane i with left := (s.lane i).left - 1, copies := (s.lane i).copies.drop 1 }) := by
  show execProbationComparison i true s = _
  simp [execProbationComparison, hst, hcopies, Nat.not_le.mpr hleft]

theorem exec_probationComparison_last (hleft : (s.lane i).left = 1) :
    ∃ u, exec (.probationComparison i true) s = .next u ∧ u.standing i = (.inService, (s.lane i).cause, 0) := by
  have hserves : exec (.probationComparison i true) s =
      .next (((s.setLane i { s.lane i with st := .inService, left := 0, copies := [] }).event 0x0802 noOrigin
        [byte i]).fireLane).schedule := by
    show execProbationComparison i true s = _
    simp [execProbationComparison, hst, hcopies, hleft]
  refine ⟨_, hserves, ?_⟩
  rw [State.schedule_standing, State.standing_of_lanes (State.fireLane_lanes _),
    State.standing_of_lanes (State.event_lanes ..), State.standing, State.setLane_lane_same]

theorem exec_probationComparison_differs : exec (.probationComparison i false) s =
    .next (((s.setLane i { s.lane i with misses := sat 32 ((s.lane i).misses + 1) }).event 0x0804 noOrigin
      ([byte i] ++ be 2 (256 - (s.lane i).left))).retireNow i 4) := by
  show execProbationComparison i false s = _
  simp [execProbationComparison, hst, hcopies]

end

theorem exec_probationIdleFeed_feeds (hst : (s.lane i).st = .probation) (hcopies : (s.lane i).copies = []) :
    exec (.probationIdleFeed i) s = .next (s.setLane i { s.lane i with copies := [.kat] }) := by
  show execProbationIdleFeed i s = _
  simp [execProbationIdleFeed, hst, hcopies]

theorem exec_domainIdleGate_lane (hi : i < 4) (hon : (s.lane i).on = true) (hwork : (s.lane i).work = [])
    (hqueue : (s.lane i).queue = []) (hst : (s.lane i).st = .inService) (hspare : i ∉ s.keptAwake) :
    exec (.domainIdleGate (i + 2)) s = .next (s.setLane i { s.lane i with gated := true }) := by
  have hhigh : i + 2 ≤ 5 := by omega
  show execDomainIdleGate (i + 2) s = _
  simp [execDomainIdleGate, hhigh, hon, hwork, hqueue, hst, hspare]

theorem exec_domainIdleGate_mult (h : s.multQueued = false) :
    exec (.domainIdleGate 6) s = .next { s with mult := { s.mult with gated := true } } := by
  show execDomainIdleGate 6 s = _
  simp [execDomainIdleGate, h]

theorem State.laneRetired_lane (s : State) (i origin : Nat) : (s.laneRetired i origin).lane i =
    { s.lane i with st := .retired, cause := 1, left := 0, work := [], queue := [], copies := [] } := by
  rw [State.laneRetired, State.lane_of_lanes (State.fireLane_lanes _), State.lane_of_lanes (State.event_lanes ..),
    State.setLane_lane_same]

/-- A drained lane enters RETIRED; idle lanes are then given segments, and a LANE.RETIRE that waits is answered (R410). -/
theorem exec_laneDrained_retires (hst : (s.lane i).st = .retiring) (hwork : (s.lane i).work = []) :
    ∃ u, exec (.laneDrained i) s = .next u ∧ u.standing i = (.retired, 1, 0) ∧ (u.lane i).work = [] := by
  obtain ⟨o, q, hu⟩ : ∃ o q, exec (.laneDrained i) s =
      .next ((((s.laneRetired i o).noteCause q s.evr.next).schedule).answerRetire i) :=
    ⟨_, _, congrArg Host.Outcome.next (if_pos (by simp [hst, hwork]))⟩
  have hlane : ((s.laneRetired i o).noteCause q s.evr.next).lane i = (s.laneRetired i o).lane i :=
    State.lane_of_lanes (by simp) i
  rw [State.laneRetired_lane] at hlane
  refine ⟨_, hu, ?_, ?_⟩
  · rw [State.standing_of_lanes (State.answerRetire_lanes _ _), State.schedule_standing, State.standing, hlane]
  · rw [State.lane_of_lanes (State.answerRetire_lanes _ _), State.schedule_work (by simp [hlane]), hlane]

end

/-- Settles O10: each event by its own effect, and what follows it by what work on the lanes leaves of a lane. -/
theorem laneEventsMoveTheLane : Obligations.LaneEventsMoveTheLane := by
  intro s i hi
  refine ⟨fun hst => ⟨_, exec_laneTestComplete_passes hst, by simp⟩,
    fun hst => ⟨_, exec_laneTestComplete_fails hst, State.retireNow_lane _ i 3⟩,
    exec_probationComparison_counts, fun hst hcopies hleft => ?last,
    fun hst hcopies => ⟨_, exec_probationComparison_differs hst hcopies, State.retireNow_lane _ i 4⟩,
    exec_probationIdleFeed_feeds, exec_domainIdleGate_lane hi, exec_domainIdleGate_mult, fun hst hwork _ => ?drained⟩
  case last =>
    obtain ⟨u, hu, hstanding⟩ := exec_probationComparison_last hst hcopies hleft
    obtain ⟨hserves, -, hdone⟩ := State.standing_iff.mp hstanding
    exact ⟨u, hu, hserves, hdone⟩
  case drained =>
    obtain ⟨u, hu, hstanding, hnone⟩ := exec_laneDrained_retires hst hwork
    obtain ⟨hretired, hcause, -⟩ := State.standing_iff.mp hstanding
    exact ⟨u, hu, hretired, hcause, hnone⟩

end Sys2Proof.Machine
end

section
/-! PROOFS. Canonical form (State.Canonical): the operations that the commands share keep it. One lemma per operation, in the
order of the model; each follows the branches of its operation and cites the lemmas of the operations that it calls. -/

namespace Sys2Proof.Machine

-- Elaborated one after the other, so that many short lemmas need little memory.
set_option Elab.async false

/-- An update of components beside the tables keeps the canonical form. -/
theorem State.Canonical.update {s : State} (h : s.Canonical)
    {pending ph live hp wm cached table recs vpA vpB ks mult evr cus tam pow drawn out}
    (ed : hp.dpm = s.hp.dpm := by with_reducible rfl) (ev : hp.vectors = s.hp.vectors := by with_reducible rfl)
    (ec : wm.cells = s.wm.cells := by with_reducible rfl) (es : ks.slots = s.ks.slots := by with_reducible rfl)
    (er : ks.regs = s.ks.regs := by with_reducible rfl) (eu : ks.curves = s.ks.curves := by with_reducible rfl)
    (eq : tam.quiet = s.tam.quiet := by with_reducible rfl) :
    (State.mk pending ph s.ctxs live hp wm s.slices s.chans cached table recs vpA vpB ks s.lanes mult evr cus s.loops tam pow
      drawn out).Canonical :=
  { h with dpm := ed ▸ h.dpm, vectors := ev ▸ h.vectors, cells := ec ▸ h.cells, slots := es ▸ h.slots
           regs := er ▸ h.regs, curves := eu ▸ h.curves, quiet := eq ▸ h.quiet }

theorem State.Canonical.ite {c : Prop} [Decidable c] {s t : State} (hs : s.Canonical) (ht : t.Canonical) :
    (if c then s else t).Canonical := by split <;> assumption

theorem State.Canonical.foldl {α : Type} {f : State → α → State} {l : List α} {s : State} (h : s.Canonical)
    (hf : ∀ s a, s.Canonical → (f s a).Canonical) : (l.foldl f s).Canonical := by
  induction l generalizing s with
  | nil => exact h
  | cons a l ih => exact ih (hf s a h)

theorem State.Canonical.times {f : State → State} {n : Nat} {s : State} (h : s.Canonical)
    (hf : ∀ s, s.Canonical → (f s).Canonical) : (times f n s).Canonical := by
  induction n generalizing s with
  | zero => exact h
  | succ n ih => exact ih (hf s h)

/-- What a command's own part leaves: the state of an end or of a wait is canonical. -/
def Act.Canonical : Act → Prop
  | .done _ _ _ s => s.Canonical
  | .park _ s => s.Canonical

theorem Act.Canonical.ite {c : Prop} [Decidable c] {a b : Act} (ha : a.Canonical) (hb : b.Canonical) :
    (if c then a else b).Canonical := by split <;> assumption

theorem Act.Canonical.done {st d p} {s : State} (h : s.Canonical) : (Act.done st d p s).Canonical := h
theorem Act.Canonical.park {j} {s : State} (h : s.Canonical) : (Act.park j s).Canonical := h

/-- What a command answers: a next state that is canonical, or no next state. -/
def Outcome.Canonical : Host.Outcome State Fault Refusal → Prop
  | .next s => s.Canonical
  | _ => True

theorem Outcome.Canonical.ite {c : Prop} [Decidable c] {a b : Host.Outcome State Fault Refusal} (ha : Outcome.Canonical a)
    (hb : Outcome.Canonical b) : Outcome.Canonical (if c then a else b) := by split <;> assumption

theorem Outcome.Canonical.fault {f} : Outcome.Canonical (.fault f) := trivial

theorem Outcome.Canonical.next {s : State} (h : s.Canonical) : Outcome.Canonical (.next s) := h

section
variable {s : State} (h : s.Canonical)
include h
theorem State.Canonical.setCtx {i c} : (s.setCtx i c).Canonical := { h with ctxs := Tbl.wf_put _ _ h.ctxs }
theorem State.Canonical.setSlc {i c} : (s.setSlc i c).Canonical := { h with slices := Tbl.wf_put _ _ h.slices }
theorem State.Canonical.setChan {i c} : (s.setChan i c).Canonical := { h with chans := Tbl.wf_put _ _ h.chans }
theorem State.Canonical.setLane {i c} : (s.setLane i c).Canonical := { h with lanes := Tbl.wf_put _ _ h.lanes }
theorem State.Canonical.setLoop {i c} : (s.setLoop i c).Canonical := { h with loops := Tbl.wf_put _ _ h.loops }
theorem State.Canonical.setSlot {i c} : (s.setSlot i c).Canonical := { h with slots := Tbl.wf_put _ _ h.slots }
theorem State.Canonical.setDpm {i c} : (s.setDpm i c).Canonical := { h with dpm := Tbl.wf_put _ _ h.dpm }
theorem State.Canonical.mapPh {f} : (s.mapPh f).Canonical := h.update
theorem State.Canonical.mapEvr {f} : (s.mapEvr f).Canonical := h.update
theorem State.Canonical.mapPow {f} : (s.mapPow f).Canonical := h.update
theorem State.Canonical.mapCus {f} : (s.mapCus f).Canonical := h.update
theorem State.Canonical.mapMult {f} : (s.mapMult f).Canonical := h.update
theorem State.Canonical.mapTam {f} (e : ∀ t, (f t).quiet = t.quiet := by exact fun _ => rfl) : (s.mapTam f).Canonical :=
  h.update (eq := e _)
theorem State.Canonical.mapHp {f} (ed : ∀ t, (f t).dpm = t.dpm := by exact fun _ => rfl)
    (ev : ∀ t, (f t).vectors = t.vectors := by exact fun _ => rfl) : (s.mapHp f).Canonical :=
  h.update (ed := ed _) (ev := ev _)
theorem State.Canonical.mapKs {f} (es : ∀ k, (f k).slots = k.slots := by exact fun _ => rfl)
    (er : ∀ k, (f k).regs = k.regs := by exact fun _ => rfl) (ec : ∀ k, (f k).curves = k.curves := by exact fun _ => rfl) :
    (s.mapKs f).Canonical := h.update (es := es _) (er := er _) (eu := ec _)
theorem State.Canonical.setTam {f} (e : (f s.tam).quiet.wf (none, 0) = true) : (s.mapTam f).Canonical := { h with quiet := e }
theorem State.Canonical.setHp {f} (ed : (f s.hp).dpm.wf .init = true) (ev : (f s.hp).vectors.wf (0, 0) = true) :
    (s.mapHp f).Canonical := { h with dpm := ed, vectors := ev }
theorem State.Canonical.setKs {f} (es : (f s.ks).slots.wf .init = true) (er : (f s.ks).regs.wf none = true)
    (ec : (f s.ks).curves.wf none = true) : (s.mapKs f).Canonical := { h with slots := es, regs := er, curves := ec }
theorem State.Canonical.setVp {p v} : (s.setVp p v).Canonical := by cases p <;> exact h.update
theorem State.Canonical.setSerial {q v} : (s.setSerial q v).Canonical := by cases q <;> exact h.update
end

section
variable {s : State} (h : s.Canonical)
include h

/-! ### Shared operations: events, epochs, host transfers, replies, working memory -/

theorem State.Canonical.emit {o} : (s.emit o).Canonical := h.update

theorem State.Canonical.msix {v} : (s.msix v).Canonical := .ite (.ite h h.update) h.emit

theorem State.Canonical.fire {i} : (s.fire i).Canonical := .ite h.update h.update.msix

theorem State.Canonical.write {code origin detail} : (s.write code origin detail).Canonical := .ite h.update.fire h.update

theorem State.Canonical.overflow {code} : (s.overflow code).Canonical := h.update

theorem State.Canonical.event {code origin detail} : (s.event code origin detail).Canonical :=
  .ite h (.ite h.update (.ite h.overflow (.ite h.overflow (.write (.ite h.update h)))))

theorem State.Canonical.dmaEvent {origin slice kind completion} : (s.dmaEvent origin slice kind completion).Canonical := h.event

theorem State.Canonical.evaluate {origin} : (s.evaluate origin).Canonical := .ite h h.update.event

theorem State.Canonical.unapproved {origin} : (s.unapproved origin).Canonical := h.update.evaluate

theorem State.Canonical.drewBytes {n} : (s.drewBytes n).Canonical := h.update

theorem State.Canonical.drewDelay : s.drewDelay.Canonical := h.drewBytes

theorem State.Canonical.writeCopy {c ticks} : (s.writeCopy c ticks).Canonical := h.update

theorem State.Canonical.persist : s.persist.Canonical := h.update.writeCopy

theorem State.Canonical.persistEpochs : s.persistEpochs.Canonical :=
  .ite h (by split; exacts [h, h.writeCopy])

theorem State.Canonical.advance {is} : (s.advance is).Canonical := .persistEpochs (h.foldl (fun _ _ ht => ht.setCtx))

theorem State.Canonical.dmaWrite {pasid addr bytes} : (s.dmaWrite pasid addr bytes).Canonical := h.update

theorem State.Canonical.dmaRead {pasid addr len} : (s.dmaRead pasid addr len).Canonical := h.update

theorem State.Canonical.hostWrite {owner idx pasid addr bytes} : (s.hostWrite owner idx pasid addr bytes).Canonical :=
  .dmaWrite (.ite h.setDpm h)

theorem State.Canonical.issue {owner fuel} : (s.issue owner fuel).Canonical := by
  induction fuel generalizing s with
  | zero => exact h
  | succ f ih =>
    unfold State.issue; dsimp only; split
    · exact h
    · exact .ite h (ih h.setCtx.hostWrite)

theorem State.Canonical.drain {owner} : (s.drain owner).Canonical := h.issue

theorem State.Canonical.output {owner d bytes} : (s.output owner d bytes).Canonical := h.setCtx.drain

theorem State.Canonical.didInput {rq d} : (s.didInput rq d).Canonical := .ite h.dmaRead h

theorem State.Canonical.deliver {rt reply irq credit} : (s.deliver rt reply irq credit).Canonical := by
  unfold State.deliver
  split
  · exact h.setCtx
  · exact h.setCtx
  · exact h.emit
  · exact h.setVp

theorem State.Canonical.answerAgain {ctx hdr digest reply credit} : (s.answerAgain ctx hdr digest reply credit).Canonical :=
  h.update.foldl (fun _ _ ht => ht.deliver)

theorem State.Canonical.complete {rq ev st detail payload} : (s.complete rq ev st detail payload).Canonical := by
  unfold State.complete
  split
  exacts [h.deliver, .answerAgain (.deliver (.ite h.setCtx h))]

theorem State.Canonical.closePart {rq st} : (s.closePart rq st).Canonical := .ite h.setCtx h

theorem Act.Canonical.refuse {st d} : (Act.refuse s st d).Canonical := h

theorem Act.Canonical.guard {cs k} (hk : k.Canonical) : (Act.guard s cs k).Canonical := by
  unfold Act.guard
  split
  exacts [.refuse h, hk]

theorem State.Canonical.hold {n rq j} : (s.hold n rq j).Canonical := h.update

omit h in
theorem Act.Canonical.settle {n rq} {a : Act} (ha : a.Canonical) : (a.settle n rq).Canonical := by
  cases a with
  | done st d p t => exact State.Canonical.complete (State.Canonical.closePart ha)
  | park j t => exact State.Canonical.hold ha

theorem State.Canonical.takeLive {p r} (e : s.takeLive p = some r) : r.2.Canonical := by
  unfold State.takeLive at e
  split at e
  · exact absurd e (by simp)
  · rw [← Option.some.inj e]; exact h.update

theorem State.Canonical.noteCause {p n} : (s.noteCause p n).Canonical := by
  unfold State.noteCause
  split
  exacts [h, .ite h h.update]

theorem State.Canonical.finish {p f} (hf : ∀ l s, s.Canonical → (f l s).Canonical) : (s.finish p f).Canonical := by
  unfold State.finish; split
  · exact h
  · next e => exact (hf _ _ (h.takeLive e)).settle

theorem State.Canonical.wmWrite {a w} : (s.wmWrite a w).Canonical := .ite h { h with cells := Tbl.wf_put _ _ h.cells }

theorem State.Canonical.wmWriteAll {a ws} : (s.wmWriteAll a ws).Canonical := by
  induction ws generalizing s a with
  | nil => exact h
  | cons w ws ih => exact ih h.wmWrite

theorem State.Canonical.wmZero {a n} : (s.wmZero a n).Canonical := by
  unfold State.wmZero
  exact { h with cells := Tbl.wf_filter _ h.cells }

theorem State.Canonical.wmAccess {origin a} : (s.wmAccess origin a).Canonical := h.event

theorem State.Canonical.wmEcc {origin m addr} : (s.wmEcc origin m addr).Canonical := h.event

theorem State.Canonical.meet {bad rs} : (s.meet bad rs).Canonical := h.update

theorem Act.Canonical.sound {rq k} (hk : k.Canonical) : (Act.sound s rq k).Canonical := by
  unfold Act.sound
  split
  exacts [.refuse h.meet.wmEcc, .ite (.refuse h) hk]

/-! ### Keys and the key cache -/

theorem State.Canonical.touchKey {k} : (s.touchKey k).Canonical := h.update

theorem State.Canonical.closeStreams {p} : (s.closeStreams p).Canonical := h.foldl (fun _ _ ht => .ite ht.setCtx ht)

theorem State.Canonical.endStreams {k} : (s.endStreams k).Canonical := h.foldl (fun _ _ ht => .ite ht.setCtx ht)

theorem State.Canonical.freeSlot {k origin} : (s.freeSlot k origin).Canonical :=
  .ite (.event (.ite h.update.endStreams.setSlot.setSlc h.update.endStreams.setSlot)) h.update.endStreams.setSlot

theorem State.Canonical.freeDevice {k origin} : (s.freeDevice k origin).Canonical := .ite h.mapKs.setSlot.event h.mapKs.setSlot

theorem State.Canonical.writeDevice {k} : (s.writeDevice k).Canonical := h.mapKs

theorem State.Canonical.dropRoot : s.dropRoot.Canonical := .ite h.mapKs.freeDevice h

/-! ### Leaves and dual signatures -/

theorem State.Canonical.dualSigned {ctx} : (s.dualSigned ctx).Canonical :=
  .update (.ite (.writeDevice (.ite h.drewBytes.drewBytes.setCtx h.drewBytes.drewBytes)) (.ite h.drewBytes.drewBytes.setCtx
    h.drewBytes.drewBytes))

theorem State.Canonical.noteLost {origin slot c} : (s.noteLost origin slot c).Canonical := .ite h.event h

/-! ### Zeroing, resets of parts, life cycle, tamper responses -/

theorem State.Canonical.copyWork {w} : (s.copyWork w).Canonical := h.foldl (fun _ _ ht => .ite ht.setLane ht)

theorem State.Canonical.startNext {i} : (s.startNext i).Canonical := by
  dsimp only [State.startNext]
  split
  exacts [h, .ite h.setLane.copyWork h]

theorem State.Canonical.startWork {i w} : (s.startWork i w).Canonical := h.setLane.startNext

theorem State.Canonical.clearLane {i p} : (s.clearLane i p).Canonical := h.setLane.startNext

theorem State.Canonical.dropWork {p} : (s.dropWork p).Canonical := h.foldl (fun _ _ ht => .ite ht.clearLane ht)

theorem State.Canonical.dropRecord {ch seq} : (s.dropRecord ch seq).Canonical := h.update.dropWork

theorem State.Canonical.windfall {r st d e} : (s.windfall r st d e).Canonical := by
  unfold State.windfall; dsimp only; split
  · exact .ite h.dropRecord.event h.dropRecord
  · next e => exact .complete (State.Canonical.takeLive (.ite h.dropRecord.event h.dropRecord) e)

theorem State.Canonical.windfallAll {p st detail} : (s.windfallAll p st detail).Canonical := h.foldl (fun _ _ ht => ht.windfall)

theorem State.Canonical.deactivate {card} : (s.deactivate card).Canonical := h.setSerial.emit

theorem State.Canonical.endExchange : s.endExchange.Canonical := by
  unfold State.endExchange
  split
  exacts [h, h.deactivate.mapCus]

theorem State.Canonical.endCeremony {outcome origin} : (s.endCeremony outcome origin).Canonical := by
  unfold State.endCeremony
  split
  exacts [h, .event (.ite h.endExchange.mapCus.update h.endExchange.mapCus)]

theorem State.Canonical.zeroEngines : s.zeroEngines.Canonical := h.closeStreams.dropWork.update

theorem State.Canonical.endUser {l} : (s.endUser l).Canonical := h.update.complete

theorem State.Canonical.alarmKey {k} : (s.alarmKey k).Canonical :=
  .foldl (.freeSlot (.windfallAll (h.foldl (fun _ _ ht => ht.endUser)))) (fun _ _ ht => ht.update.complete)

theorem State.Canonical.alarm : s.alarm.Canonical := h.foldl (fun _ _ ht => ht.alarmKey)

theorem State.Canonical.awaitRestart : s.awaitRestart.Canonical := h.update

/-- The tables of the host port emptied. -/
theorem State.Canonical.clearHp {hp} (ed : hp.dpm = []) (ev : hp.vectors = []) : ({ s with hp := hp } : State).Canonical :=
  { h with dpm := ed ▸ rfl, vectors := ev ▸ rfl }

theorem State.Canonical.clearPort : s.clearPort.Canonical := .clearHp (h.foldl fun _ _ ht => ht.setCtx) rfl rfl

theorem State.Canonical.clearHost : s.clearHost.Canonical := h.clearPort.mapEvr

theorem State.Canonical.zeroData : s.zeroData.Canonical :=
  h.wmZero.foldl fun t ⟨_, v⟩ ht => by
    dsimp only; split
    · exact ht
    · exact ht.wmZero

theorem State.Canonical.resetLane {i} : (s.resetLane i).Canonical := by
  unfold State.resetLane; dsimp only; split
  · exact h.setLane.event.fire
  all_goals exact h.setLane

theorem State.Canonical.resetLanes : s.resetLanes.Canonical := h.foldl (fun _ _ ht => ht.resetLane)

theorem State.Canonical.clearTable : s.clearTable.Canonical := h.update.foldl (fun _ ⟨_, _⟩ ht => ht.setSlc)

theorem State.Canonical.clearSerial : s.clearSerial.Canonical := h.update

theorem State.Canonical.clearLoops : s.clearLoops.Canonical := h.foldl (fun _ _ ht => ht.setLoop)

theorem State.Canonical.toLife {new cause origin} : (s.toLife new cause origin).Canonical := h.update.event.mapEvr.fire.evaluate

/-- The tables of the key store but its slots emptied. -/
theorem State.Canonical.clearKs {ks} (es : ks.slots = s.ks.slots) (er : ks.regs = []) (ec : ks.curves = []) :
    ({ s with ks := ks } : State).Canonical := { h with slots := es ▸ h.slots, regs := er ▸ rfl, curves := ec ▸ rfl }

theorem State.Canonical.eraseKeys : s.eraseKeys.Canonical :=
  .clearKs (.dropRoot (.foldl (h.foldl fun _ _ ht => ht.freeSlot) fun _ _ ht => ht.freeDevice)) rfl rfl rfl

theorem State.Canonical.restartWindows : s.restartWindows.Canonical := h.foldl (fun _ ⟨_, _⟩ ht => ht.setChan)

theorem State.Canonical.disablePorts : s.disablePorts.Canonical := h.update

theorem State.Canonical.eraseTenants : s.eraseTenants.Canonical := by
  unfold State.eraseTenants
  exact { h with slices := rfl, loops := rfl, cells := rfl }

theorem State.Canonical.dropVital : s.dropVital.Canonical := h.update

theorem State.Canonical.eraseReset : s.eraseReset.Canonical :=
  have hc := h.endCeremony.zeroEngines.resetLanes.clearPort.clearTable.clearSerial
  hc.eraseTenants.restartWindows.disablePorts.dropVital.advance

theorem State.Canonical.eraseAll : s.eraseAll.Canonical := h.eraseKeys.eraseReset

theorem State.Canonical.answerDestroys : s.answerDestroys.Canonical := h.foldl (fun _ _ ht => ht.update.complete)

theorem State.Canonical.issueTombstone {b c o} : (s.issueTombstone b c o).Canonical := by
  unfold State.issueTombstone; dsimp only; split
  · exact h.mapKs
  · cases o
    · exact h.dualSigned.mapKs
    · exact h.dualSigned.mapKs

theorem State.Canonical.entomb : s.entomb.Canonical := by
  unfold State.entomb
  exact .mapTam (.disablePorts (.eraseTenants (.mapPh (.setKs h.mapEvr rfl rfl rfl))))

theorem State.Canonical.decommission {origin ok} : (s.decommission origin ok).Canonical :=
  h.update.zeroEngines.toLife.issueTombstone.entomb

theorem State.Canonical.endDecom : s.endDecom.Canonical := by
  unfold State.endDecom
  split
  exacts [h, h.issueTombstone.entomb]

theorem State.Canonical.recordFiring {i resp supp} : (s.recordFiring i resp supp).Canonical :=
  .event (h.setTam (by dsimp only; exact Tbl.wf_put _ _ h.quiet))

theorem State.Canonical.tamperEvent {i resp} : (s.tamperEvent i resp).Canonical := by
  dsimp only [State.tamperEvent]
  split
  · exact h.recordFiring.fire
  · exact .ite (.fire (h.setTam (by dsimp only; exact Tbl.wf_put _ _ h.quiet))) h.recordFiring.fire

theorem State.Canonical.lockDown : s.lockDown.Canonical :=
  .awaitRestart (.ite h.endCeremony.update.zeroEngines.toLife h.endCeremony.update.zeroEngines)

theorem State.Canonical.erase {i} : (s.erase i).Canonical :=
  .ite h.dropRoot.eraseReset.toLife.answerDestroys.mapTam.awaitRestart (.ite h.eraseAll.toLife.answerDestroys.awaitRestart
    h.eraseReset.awaitRestart)

theorem State.Canonical.respond {i resp} : (s.respond i resp).Canonical :=
  .ite (.lockDown (.ite h.tamperEvent.alarm h.tamperEvent)) (.ite (.erase (.ite h.tamperEvent.alarm h.tamperEvent))
    (.ite h.tamperEvent.alarm h.tamperEvent))

theorem State.Canonical.fireSource {i} : (s.fireSource i).Canonical := .ite h h.update.respond

theorem State.Canonical.assertSource {i} : (s.assertSource i).Canonical := .ite h h.update.fireSource

theorem State.Canonical.splitDecision {kind subject origin} : (s.splitDecision kind subject origin).Canonical :=
  h.update.event.fireSource

theorem Act.Canonical.twice {rq kind subject k}
    (hk : ∀ (t : State), t.Canonical → (k t).Canonical) : (Act.twice s rq kind subject k).Canonical :=
  .ite (.park h.drewDelay.splitDecision) (hk _ h.drewDelay)

theorem State.Canonical.pkFault {rq kind kat} : (s.pkFault rq kind kat).Canonical := .ite h.event h.event.fireSource

theorem Act.Canonical.verified {rq k} (hk : k.Canonical) : (Act.verified s rq k).Canonical := by
  unfold Act.verified
  split
  exacts [hk, .refuse h.dualSigned.pkFault]

theorem Act.Canonical.onHash {rq k} (hk : ∀ (t : State), t.Canonical → (k t).Canonical) : (Act.onHash s rq k).Canonical :=
  .ite (hk _ h) (.refuse h.fireSource)

theorem State.statement_canonical {rq body} : (s.statement rq body).Canonical :=
  .guard h.noteLost (.onHash h (fun _ ht => .verified ht (.done ht.dualSigned)))

/-! ### How a request enters -/

theorem State.Canonical.answer {rt i p st detail credit} : (s.answer rt i p st detail credit).Canonical := h.deliver

theorem State.Canonical.execute {rt p digest arr x run} (hrun : ∀ a (t : State), t.Canonical → (run a t).Canonical) :
    (s.execute rt p digest arr x run).Canonical := by
  unfold State.execute
  split
  · exact .ite h.complete h.complete
  · split
    · exact h.complete
    · split
      exacts [Act.Canonical.settle (.sound h (hrun _ _ h)), .ite h.hold (Act.Canonical.settle (.sound h (hrun _ _ h)))]

theorem State.Canonical.accepted {i} : (s.accepted i).Canonical := h.setCtx

theorem State.Canonical.fromCache {rt i p arr x run} (hrun : ∀ a (t : State), t.Canonical → (run a t).Canonical) :
    (s.fromCache rt i p arr x run).Canonical := by
  dsimp only [State.fromCache]
  split
  · exact h.deliver
  · exact h.answer
  · exact h.update
  · exact h.accepted.execute (fun _ _ ht => hrun _ _ ht)

theorem State.Canonical.takeIn {rt p arr x run} (hrun : ∀ a (t : State), t.Canonical → (run a t).Canonical) :
    (s.takeIn rt p arr x run).Canonical := by
  dsimp only [State.takeIn]
  split
  · exact h.answer
  · exact h.answer
  · exact h.fromCache (fun _ _ ht => hrun _ _ ht)
  · exact .ite (.ite h.answer h.setCtx) (h.setCtx.fromCache (fun _ _ ht => hrun _ _ ht))
  · exact .ite h.answer (h.fromCache (fun _ _ ht => hrun _ _ ht))

theorem State.Canonical.rdyRises : s.rdyRises.Canonical := h.update

theorem State.Canonical.startFrame {p clkHigh} : (s.startFrame p clkHigh).Canonical := h.setVp.emit

theorem State.Canonical.unstarted {p} : (s.unstarted p).Canonical := .ite h h.setVp.emit

theorem State.Canonical.ignoreFrame {p} : (s.ignoreFrame p).Canonical := .ite h.setVp (.ite h.setVp h.setVp.event.fire)

theorem State.Canonical.answerFrame {p stored r} : (s.answerFrame p stored r).Canonical := h.setVp

theorem State.Canonical.refuseFrame {p op alive st detail} : (s.refuseFrame p op alive st detail).Canonical := h.answerFrame

theorem State.Canonical.turnAway {p op alive detail} : (s.turnAway p op alive detail).Canonical := h.refuseFrame

theorem State.Canonical.stepThree {p f k serve}
    (hserve : ∀ (t : State), t.Canonical → (serve t).Canonical) : (s.stepThree p f k serve).Canonical :=
  .ite (hserve _ h) (.ite (hserve _ h.setVp) (by
    split
    · exact .ite (hserve _ h) h.turnAway
    · exact .ite (hserve _ h) h.turnAway
    · exact .ite (hserve _ h.setVp) (.ite h.setVp (.ite (hserve _ h.setVp) h.ignoreFrame))))

theorem State.Canonical.frame {p f serve}
    (hserve : ∀ (t : State), t.Canonical → (serve t).Canonical) : (s.frame p f serve).Canonical :=
  .ite h.unstarted (by
    split
    exacts [h.startFrame.ignoreFrame, h.startFrame.setVp.stepThree (fun _ ht => hserve _ ht)])

omit h in
theorem State.Canonical.portReply {p rq n alive} {a : Act} (ha : a.Canonical) :
    (Machine.portReply p rq n alive a).Canonical := by
  cases a with
  | done st d b t =>
    have ht : t.Canonical := ha
    exact .ite (.answerFrame (.ite ht.hold.setVp ht.hold)) (.answerFrame (.ite ht.setVp ht))
  | park j t => exact State.Canonical.answerFrame (State.Canonical.hold ha)

theorem State.Canonical.serveRequest {p f x run answer} (hrun : ∀ a (t : State), t.Canonical → (run a t).Canonical)
    (hanswer : ∀ a b (act : Act), act.Canonical → (answer a b act).Canonical) :
    (s.serveRequest p f x run answer).Canonical :=
  .ite h.refuseFrame (by
    split
    · exact h.refuseFrame
    · split
      exacts [h.refuseFrame, hanswer _ _ _ (.sound h (hrun _ _ h))])

/-- Where a row finds its request, the state without that request is canonical. -/
def Found.Canonical : Found → Prop
  | .nothing => True
  | .discard s | .packet _ _ _ s => s.Canonical

theorem State.Canonical.find {v} : (s.find v).Canonical := by
  unfold State.find
  split
  · split
    · trivial
    · split
      · trivial
      · exact h.setCtx
  · split
    · trivial
    · split
      · exact h.setCtx
      · exact h
  · split
    · trivial
    · split
      · trivial
      · dsimp only; split
        · exact h.setSerial
        · split
          · exact h.setSerial.setSerial
          · exact h.setSerial
  · trivial

theorem State.Canonical.vitalRequest {p f x mine run} (hrun : ∀ rq s, s.Canonical → (run rq s).Canonical) :
    (s.vitalRequest p f x mine run).Canonical :=
  .ite (h.frame fun _ ht => ht.serveRequest hrun fun _ _ _ ha => .portReply ha) h

theorem State.Canonical.request {v x mine run} (hrun : ∀ rq s, s.Canonical → (run rq s).Canonical) :
    (s.request v x mine run).Canonical := by
  have taken : (match s.find v with
      | .nothing => s
      | .discard s' => s'
      | .packet rt p arr s' =>
        match Op.ofCode (hdrOpcode p) with
        | some o => if mine o (p.drop 16) then s'.takeIn rt p arr x run else s
        | none => s'.takeIn rt p arr x run).Canonical := by
    have hf := h.find (v := v)
    split
    · exact h
    · next e => rw [e] at hf; exact hf
    · next e =>
      rw [e] at hf
      have hs : ∀ {rt p arr}, (State.takeIn _ rt p arr x run).Canonical := State.Canonical.takeIn hf hrun
      split
      · exact .ite hs h
      · exact hs
  cases v with
  | vital p f => exact h.vitalRequest hrun
  | ring o => exact taken
  | push n w p => exact taken
  | console => exact taken

theorem State.Canonical.dropCache {k} : (s.dropCache k).Canonical := h.mapKs

theorem Act.Canonical.withKey {rq k f} (hf : ∀ a (t : State), t.Canonical → (f a t).Canonical) :
    (Act.withKey s rq k f).Canonical := by
  unfold Act.withKey
  split
  exacts [.ite (.park h.dropCache) (hf _ _ h.touchKey), .park h]

theorem Act.Canonical.withInput {rq i d f} (hf : ∀ a (t : State), t.Canonical → (f a t).Canonical) :
    (Act.withInput s rq i d f).Canonical := by
  unfold Act.withInput
  split
  exacts [hf _ _ h.didInput, .park h, .refuse h.dmaEvent]

theorem Act.Canonical.withInput? {rq i at' f}
    (hf : ∀ a (t : State), t.Canonical → (f a t).Canonical) : (Act.withInput? s rq i at' f).Canonical :=
  .ite (hf _ _ h) (.withInput h (fun _ _ ht => hf _ _ ht))

theorem Act.Canonical.withOutput {rq d bytes kind k} (hk : ∀ (t : State), t.Canonical → (k t).Canonical) :
    (Act.withOutput s rq d bytes kind k).Canonical := by
  unfold Act.withOutput
  split
  exacts [.refuse h.dmaEvent, hk _ h.output]

/-! ### Lanes and bulk work -/

theorem State.Canonical.fireLane : s.fireLane.Canonical := h.fire

theorem State.Canonical.wakeKept : s.wakeKept.Canonical := h.foldl (fun _ _ ht => .ite ht.setLane ht)

theorem State.Canonical.endWork {w} : (s.endWork w).Canonical := h.foldl (fun _ _ ht => .ite ht.setLane.startNext ht)

theorem State.Canonical.startBulk : s.startBulk.Canonical := by
  unfold State.startBulk
  split
  exacts [h.mapPow.startWork, h]

theorem State.Canonical.schedule : s.schedule.Canonical := h.times (fun _ ht => ht.startBulk)

theorem Bulk.finish_canonical {b : Bulk} {o} : (b.finish o s).Canonical := by
  unfold Bulk.finish; dsimp only; split
  · exact .done h.setCtx
  · split
    · exact .refuse h.setCtx.dmaEvent
    · exact .done (.setCtx (.ite h.output h.output.output))

theorem Bulk.fail_canonical {b : Bulk} {o} : (b.fail o s).Canonical := by
  refine .done (.setCtx ?_)
  split
  · exact h
  · split
    · exact h.dmaEvent
    · exact h.output

theorem State.Canonical.failAllBulk : s.failAllBulk.Canonical :=
  h.foldl (fun _ _ ht => by
    split
    exacts [Act.Canonical.settle (Bulk.fail_canonical ht.update), ht])

theorem State.Canonical.noteLane {i w} : (s.noteLane i w).Canonical := h.update

theorem State.Canonical.rehome {ws} : (s.rehome ws).Canonical :=
  h.foldl (fun _ _ ht => by split; exacts [ht, ht.startWork.noteLane])

theorem State.Canonical.noLaneLeft : s.noLaneLeft.Canonical := .ite h.schedule h.windfallAll.failAllBulk

theorem State.Canonical.answerRetire {i} : (s.answerRetire i).Canonical := h.finish (fun _ _ ht => .done ht)

theorem State.Canonical.retireNow {i cause} : (s.retireNow i cause).Canonical :=
  h.setLane.wakeKept.rehome.fireLane.noLaneLeft.answerRetire

theorem State.Canonical.laneFault {i cause} : (s.laneFault i cause).Canonical := h.setLane.event.retireNow

/-! ### Field channels -/

theorem State.Canonical.touchEntry {ch} : (s.touchEntry ch).Canonical := by
  unfold State.touchEntry
  split
  exacts [h, h.update]

theorem State.Canonical.cacheEntry {ch e} : (s.cacheEntry ch e).Canonical :=
  .setChan (.update (h.foldl (fun _ ⟨_, _⟩ ht => ht.setChan)))

theorem stageRecord_canonical {rq e n} : (stageRecord rq e n s).Canonical := by
  unfold stageRecord
  split
  exacts [.refuse h, .park h.update.startWork]

theorem fieldWithEntry_canonical {rq e n} : (fieldWithEntry rq e n s).Canonical :=
  .guard h (.ite (.park h) (.ite (.park h.dropCache) (.ite (.park h) (.guard h (stageRecord_canonical h.touchKey.touchEntry)))))

theorem doFieldCommand_canonical {rq} : (doFieldCommand rq s).Canonical :=
  .guard h (.ite (.park h) (.guard h (by split; exacts [.park h, .guard h (fieldWithEntry_canonical h)])))

theorem doFieldLoad_canonical {rq} : (doFieldLoad rq s).Canonical :=
  .guard h (.ite (.refuse h.wmAccess) (.ite (.refuse h) (.ite (.park h) (by
    split
    · exact .refuse h.meet.wmEcc
    · split
      exacts [.refuse h, .ite (.park h) (.guard h (.done h.wmWriteAll))]))))

theorem execFieldCommand_canonical {v x} : Outcome.Canonical (execFieldCommand v x s) :=
  .next (h.request (fun _ _ ht => doFieldCommand_canonical ht))

theorem execFieldCommandLoad_canonical {v x} : Outcome.Canonical (execFieldCommandLoad v x s) :=
  .next (h.request (fun _ _ ht => doFieldLoad_canonical ht))

theorem State.Canonical.setRecord {r} : (s.setRecord r).Canonical := h.update

theorem State.Canonical.tableStop {r bad x} (e : s.tableStop r bad = some x) : x.1.Canonical := by
  unfold State.tableStop at e
  split at e
  · rw [← Option.some.inj e]; exact h.wmAccess
  · dsimp only at e
    split at e
    · rw [← Option.some.inj e]; exact h.meet.wmEcc
    · exact absurd e (by simp)

omit h in
theorem State.Canonical.stopRecord {s t : State} {r st d} (ht : t.Canonical) : (s.stopRecord r t st d).Canonical :=
  ht.noteCause.windfall

theorem State.Canonical.decide1 {r bad} : (s.decide1 r bad).Canonical := by
  unfold State.decide1; dsimp only; split
  · exact h.endWork.windfall
  · split
    · next e => exact .stopRecord (h.endWork.tableStop e)
    · split
      · exact h.endWork.windfall
      · exact .ite h.endWork.windfall h.endWork.setRecord

theorem State.Canonical.firstDecision {ch seq mismatch bad} : (s.firstDecision ch seq mismatch bad).Canonical := by
  unfold State.firstDecision
  split
  exacts [h, .ite h (.ite h.windfall.laneFault h.decide1.schedule)]

theorem State.Canonical.ripen {r} : (s.ripen r).Canonical := by
  dsimp only [State.ripen]
  split
  exacts [h.windfall, h.setChan.setRecord.drewDelay.startWork]

theorem State.Canonical.commit {ch seq} : (s.commit ch seq).Canonical := by
  unfold State.commit
  split
  exacts [h, .ite h h.ripen]

theorem State.Canonical.confirm {r} : (s.confirm r).Canonical := .schedule (h.endWork.setRecord.finish (fun _ _ ht => .done ht))

theorem State.Canonical.splitRecord {r} : (s.splitRecord r).Canonical := h.dropRecord.update.splitDecision

theorem State.Canonical.secondDecision {ch seq e bad} : (s.secondDecision ch seq e bad).Canonical := by
  unfold State.secondDecision; split
  · exact h
  · refine .ite h ?_
    split
    · exact h.windfall.laneFault
    · next e => exact .schedule (.stopRecord (h.tableStop e))
    · exact h.confirm
    · exact h.splitRecord

theorem State.Canonical.roll {r} : (s.roll r).Canonical :=
  .ite h.windfall (.ite h.event.noteCause.windfall h.event.noteCause.setRecord)

theorem State.Canonical.openRecord {a r} : (State.openRecord a s r).Canonical :=
  .ite h.setRecord (.ite h.roll (.ite h.dropRecord h))

theorem State.Canonical.openSlot {a} : (s.openSlot a).Canonical := h.foldl (fun _ _ ht => ht.openRecord)

theorem State.Canonical.spoil {bad} : (s.spoil bad).Canonical := by
  unfold State.spoil
  split
  · exact h
  · exact by split; exacts [h, h.event.windfall]

theorem State.Canonical.findEcc {e} : (s.findEcc e).Canonical := by
  unfold State.findEcc
  split
  exacts [h, h.spoil, .ite h.meet.wmEcc h]

end

end Sys2Proof.Machine
end

section
/-! PROOFS. Canonical form: the commands of keys, multiplier, statements, loops, slices and peers keep it. -/

namespace Sys2Proof.Machine

-- Elaborated one after the other, so that many short lemmas need little memory.
set_option Elab.async false

section
variable {s : State} (h : s.Canonical)
include h

/-! ### KEY commands -/

theorem Act.Canonical.onLane {rq k} (hk : ∀ (t : State), t.Canonical → (k t).Canonical) : (Act.onLane s rq k).Canonical :=
  .ite (hk _ h) (.ite (.refuse h.laneFault) (.ite (hk _ h.laneFault) (.refuse h.laneFault.laneFault)))

theorem State.Canonical.loadCache {k} : ((s.loadCache k).getD s).Canonical := by
  unfold State.loadCache; split
  · exact h.touchKey
  · split
    · exact h
    · exact h.mapKs.touchKey

theorem State.Canonical.install {k key} : (s.install k key).Canonical := .loadCache h.setSlot

theorem Act.Canonical.needEntry {j k} (hk : ∀ (t : State), t.Canonical → (k t).Canonical) :
    (Act.needEntry s j k).Canonical :=
  .ite (hk _ h) (.park h)

theorem Act.Canonical.create {slot key} : (Act.create s slot key).Canonical := .done h.install

theorem State.generate_canonical {o p} : (s.generate o p).2.Canonical := by
  unfold State.generate; split
  · split
    · exact h
    · exact h.drewBytes
  · split
    · exact h.drewBytes
    · split <;> exact h.drewBytes

theorem doKeyGen_canonical {rq} : (doKeyGen rq s).Canonical :=
  .guard h (.twice h fun _ ht => .ite (.park ht.mapMult) (.needEntry ht fun _ hu =>
    .create (State.generate_canonical (o := rq.owner) (p := specAt rq.body) hu)))

theorem endKeyGen_canonical {rq slot} : (endKeyGen rq slot s).Canonical := by
  unfold endKeyGen
  refine .needEntry h fun t ht => ?_
  have hg := State.generate_canonical (o := rq.owner) (p := specAt rq.body) ht
  split
  next e =>
    rw [e] at hg
    exact .create (.ite (State.Canonical.unapproved hg) hg)

theorem State.importKey_canonical {rq secret pub} : (s.importKey rq secret pub).Canonical := .create (.ite h.unapproved h)

theorem importClear_canonical {rq data} : (importClear rq data s).Canonical := .guard h (State.importKey_canonical h)

theorem importWrapped_canonical {rq k data} : (importWrapped rq k data s).Canonical := by
  unfold importWrapped
  split
  exacts [.refuse h, .guard h (State.importKey_canonical h)]

theorem doKeyImport_canonical {rq} : (doKeyImport rq s).Canonical :=
  .guard h (.ite (.withInput h (fun _ _ ht => .twice ht (fun _ hu => importClear_canonical hu)))
    (.withKey h (fun _ _ ht => .withInput ht (fun _ _ hu => .onLane hu (fun _ hw => .twice hw
      (fun _ hx => importWrapped_canonical hx))))))

theorem Act.Canonical.derive {rq prf k}
    (hk : ∀ (t : State), t.Canonical → (k t).Canonical) : (Act.derive s rq prf k).Canonical :=
  .ite (.onLane h (fun _ ht => hk _ ht)) (.onHash h (fun _ ht => hk _ ht))

theorem doKeyDerive_canonical {rq} : (doKeyDerive rq s).Canonical :=
  .guard h (.withKey h (fun _ _ ht => .derive ht (fun _ hu => .twice hu (fun _ hw => .create hw))))

theorem doKeyWrap_canonical {rq} : (doKeyWrap rq s).Canonical :=
  .guard h (.ite (.done h) (.withKey h (fun _ _ ht => .withKey ht (fun _ _ hu => .onLane hu
    (fun _ hw => .twice hw (fun _ hx => .withOutput hx.drewDelay.drewBytes (fun _ hy => .done hy.setSlot)))))))

theorem State.Canonical.setCurve {id c} : (s.setCurve id c).Canonical :=
  h.setKs h.slots h.regs (by dsimp only; exact Tbl.wf_put _ _ h.curves)

theorem unwrapInto_canonical {rq a plain t} (ht : t.Canonical) : (unwrapInto rq a plain t s).Canonical :=
  .guard h (.create (.ite ht.unapproved ht))

theorem unwrapBlob_canonical {rq k blob} : (unwrapBlob rq k blob s).Canonical := by
  refine .guard h ?_
  split
  · exact .refuse h
  · refine .guard h (.ite ?_ (unwrapInto_canonical h h))
    dsimp only; split
    · exact .refuse h
    · exact unwrapInto_canonical h h
    · exact unwrapInto_canonical h h.setCurve

theorem doKeyUnwrap_canonical {rq} : (doKeyUnwrap rq s).Canonical :=
  .guard h (.withKey h (fun _ _ ht => .withInput ht (fun _ _ hu => .onLane hu (fun _ hw => .twice hw
    (fun _ hx => unwrapBlob_canonical hx)))))

theorem doKeyDestroy_canonical {rq} : (doKeyDestroy rq s).Canonical := .guard h (.park h)

theorem execKeyDestroyComplete_canonical {k} : Outcome.Canonical (execKeyDestroyComplete k s) :=
  .next (.ite h (h.finish (fun _ _ ht => .ite (.done ht) (.done ht.freeSlot))))

theorem doKeyAttr_canonical {rq} : (doKeyAttr rq s).Canonical :=
  .guard h (by split; exacts [.refuse h, .guard h (.done h.setSlot)])

theorem execKeyGen_canonical {v x} : Outcome.Canonical (execKeyGen v x s) :=
  .next (h.request (fun _ _ ht => doKeyGen_canonical ht))

theorem execKeyImport_canonical {v x} : Outcome.Canonical (execKeyImport v x s) :=
  .next (h.request (fun _ _ ht => doKeyImport_canonical ht))

theorem execKeyDerive_canonical {v x} : Outcome.Canonical (execKeyDerive v x s) :=
  .next (h.request (fun _ _ ht => doKeyDerive_canonical ht))

theorem execKeyWrap_canonical {v x} : Outcome.Canonical (execKeyWrap v x s) :=
  .next (h.request (fun _ _ ht => doKeyWrap_canonical ht))

theorem execKeyUnwrap_canonical {v x} : Outcome.Canonical (execKeyUnwrap v x s) :=
  .next (h.request (fun _ _ ht => doKeyUnwrap_canonical ht))

theorem execKeyDestroy_canonical {v x} : Outcome.Canonical (execKeyDestroy v x s) :=
  .next (h.request (fun _ _ ht => doKeyDestroy_canonical ht))

theorem execKeyAttr_canonical {v x} : Outcome.Canonical (execKeyAttr v x s) :=
  .next (h.request (fun _ _ ht => doKeyAttr_canonical ht))

theorem State.Canonical.loseKey {k} : (s.loseKey k).Canonical := by
  unfold State.loseKey
  split
  exacts [h, .ite h.freeSlot.event.setSlot h.freeSlot.event]

theorem State.Canonical.loseDevice {k} : (s.loseDevice k).Canonical :=
  .ite h.freeDevice.event.mapKs (.ite h.freeDevice.event.mapKs (.ite h.freeDevice.event.update
    (.ite h.freeDevice.event.update (.ite h.freeDevice.event.mapKs (.ite h.freeDevice.event.mapKs
      (.ite h.freeDevice.event.mapKs (h.freeDevice.event.setKs h.freeDevice.event.slots
        (by dsimp only; exact Tbl.wf_put _ _ h.freeDevice.event.regs) h.freeDevice.event.curves)))))))

theorem State.Canonical.visit {k l} : (s.visit k l).Canonical :=
  .ite (.ite h (.ite h.loseDevice h.mapKs)) (by split; exacts [h, .ite h.freeSlot.mapKs (.ite h.loseKey h.setSlot)])

theorem execKeySweeperVisit_canonical {okA okB corrected} : Outcome.Canonical (execKeySweeperVisit okA okB corrected s) :=
  .next (.ite h (.ite (.ite h.visit.mapKs.mapKs h.visit.mapKs.mapKs.event) h.visit.mapKs))

/-! ### The multiplier -/

theorem Act.Canonical.queue {rq left slot msg sig} : (Act.queue s rq left slot msg sig).Canonical := .park h.mapMult

theorem doBn_canonical {rq} : (doBn rq s).Canonical :=
  .guard h (by
    split
    exacts [.refuse h.wmAccess, .guard h (.ite (.park h) (.queue h))])

theorem endBn_canonical {rq} : (endBn rq s).Canonical := by
  dsimp only [endBn]
  split
  · exact .refuse h.wmZero.wmAccess
  · split
    exacts [.refuse h.meet.wmEcc, .done (.ite (.unapproved (.wmWriteAll (.ite h.mapMult h))) (.wmWriteAll (.ite h.mapMult h)))]

theorem Act.Canonical.withMessage {rq f}
    (hf : ∀ a (t : State), t.Canonical → (f a t).Canonical) : (Act.withMessage s rq f).Canonical :=
  .ite (hf _ _ h) (.withInput h (fun _ _ ht => hf _ _ ht))

theorem State.Canonical.spendLeaf {k key} : (s.spendLeaf k key).Canonical := h.drewBytes.setSlot

theorem Act.Canonical.withLeaf {rq k f}
    (hf : ∀ a (t : State), t.Canonical → (f a t).Canonical) : (Act.withLeaf s rq k f).Canonical :=
  .ite
    (by
      split
      exacts [.refuse h, .ite (.park h) (.guard h.noteLost (hf _ _ h.spendLeaf))]) (hf _ _ h)

theorem State.Canonical.noteRefusal {rq} : (s.noteRefusal rq).Canonical := .ite h.event h

theorem doPkSign_canonical {rq} : (doPkSign rq s).Canonical :=
  .guard h.noteRefusal (.withKey h (fun _ _ ht => .withMessage ht (fun _ _ hu => .withLeaf hu
    (fun _ _ hw => .twice hw (fun _ hx => .queue hx)))))

theorem doPkVerify_canonical {rq} : (doPkVerify rq s).Canonical :=
  .guard h (.withKey h (fun _ _ ht => .withMessage ht (fun _ _ hu => .ite (.twice hu (fun _ hw => .queue hw))
    (.withInput hu (fun _ _ hw => .twice hw (fun _ hx => .queue hx))))))

theorem doPkAgree_canonical {rq} : (doPkAgree rq s).Canonical :=
  .guard h (.withKey h (fun _ _ ht => .twice ht (fun _ hu => .queue hu)))

theorem doPkEncrypt_canonical {rq} : (doPkEncrypt rq s).Canonical :=
  .guard h (.withKey h (fun _ _ ht => .twice ht (fun _ hu => .queue hu)))

theorem doPkDecrypt_canonical {rq} : (doPkDecrypt rq s).Canonical :=
  .guard h (.withKey h (fun _ _ ht => .twice ht (fun _ hu => .queue hu)))

theorem doPkLoadCurve_canonical {rq} : (doPkLoadCurve rq s).Canonical := .guard h (.queue h)

theorem State.ecdsaDraw_canonical {c d digest fuel} : (State.ecdsaDraw c d digest fuel s).2.Canonical := by
  induction fuel generalizing s with
  | zero => exact h.drewBytes
  | succ f ih =>
    unfold State.ecdsaDraw; dsimp only; split
    · exact ih h.drewBytes
    · exact h.drewBytes

theorem endPkSign_canonical {rq key msg leaf} : (endPkSign rq key msg leaf s).Canonical := by
  unfold endPkSign
  dsimp only
  split
  · exact .withOutput h fun _ ht => .done ht
  · split
    · split
      · exact .refuse h
      · next c _ =>
        have hd := State.ecdsaDraw_canonical (c := c) (d := fromBe key.secret) (digest := pkDigest rq.body msg) (fuel := 8) h
        exact .done (.ite hd.unapproved hd)
    · split
      · exact .done h
      · exact .done h.drewBytes

theorem endPkVerify_canonical {rq key msg sig} : (endPkVerify rq key msg sig s).Canonical := by
  unfold endPkVerify
  split
  exacts [.refuse h, .done (.ite h.unapproved h)]

theorem endPkAgree_canonical {rq key slot} : (endPkAgree rq key slot s).Canonical := by
  unfold endPkAgree
  split
  · exact .refuse h
  · exact .guard h (by split; exacts [.refuse h, .create (.ite h.unapproved h)])

theorem endPkEncrypt_canonical {rq key} : (endPkEncrypt rq key s).Canonical := .done h.drewBytes

theorem endPkDecrypt_canonical {rq key} : (endPkDecrypt rq key s).Canonical :=
  .ite (.refuse h) (by split; exacts [.refuse h, .done h])

theorem endPkLoadCurve_canonical {rq} : (endPkLoadCurve rq s).Canonical := by
  unfold endPkLoadCurve
  split
  exacts [.refuse h, .done h.unapproved, .done h.setCurve.unapproved]

theorem endMult_canonical {rq slot msg sig} : (endMult rq slot msg sig s).Canonical := by
  unfold endMult; dsimp only; split
  · exact endBn_canonical h
  · exact endBn_canonical h
  · exact endBn_canonical h
  · exact endBn_canonical h
  · exact endBn_canonical h
  · exact endKeyGen_canonical h
  · exact endPkLoadCurve_canonical h
  · split
    · exact .refuse h
    · have run : ∀ f : State → Act, (∀ t, t.Canonical → (f t).Canonical) →
          ((if pkHashes rq then Act.onHash s rq else fun k => k s) f).Canonical := fun f hf => by
        split
        · exact .onHash h hf
        · exact hf s h
      exact run _ fun _ ht => .ite (endPkSign_canonical ht) (.ite (endPkVerify_canonical ht)
        (.ite (endPkAgree_canonical ht) (.ite (endPkEncrypt_canonical ht) (endPkDecrypt_canonical ht))))

theorem execBnMac_canonical {v x} : Outcome.Canonical (execBnMac v x s) := .next (h.request (fun _ _ ht => doBn_canonical ht))

theorem execBnMul_canonical {v x} : Outcome.Canonical (execBnMul v x s) := .next (h.request (fun _ _ ht => doBn_canonical ht))

theorem execBnModmul_canonical {v x} : Outcome.Canonical (execBnModmul v x s) :=
  .next (h.request (fun _ _ ht => doBn_canonical ht))

theorem execBnModinv_canonical {v x} : Outcome.Canonical (execBnModinv v x s) :=
  .next (h.request (fun _ _ ht => doBn_canonical ht))

theorem execBnModexp_canonical {v x} : Outcome.Canonical (execBnModexp v x s) :=
  .next (h.request (fun _ _ ht => doBn_canonical ht))

theorem execPkSign_canonical {v x} : Outcome.Canonical (execPkSign v x s) :=
  .next (h.request (fun _ _ ht => doPkSign_canonical ht))

theorem execPkVerify_canonical {v x} : Outcome.Canonical (execPkVerify v x s) :=
  .next (h.request (fun _ _ ht => doPkVerify_canonical ht))

theorem execPkAgree_canonical {v x} : Outcome.Canonical (execPkAgree v x s) :=
  .next (h.request (fun _ _ ht => doPkAgree_canonical ht))

theorem execPkEncrypt_canonical {v x} : Outcome.Canonical (execPkEncrypt v x s) :=
  .next (h.request (fun _ _ ht => doPkEncrypt_canonical ht))

theorem execPkDecrypt_canonical {v x} : Outcome.Canonical (execPkDecrypt v x s) :=
  .next (h.request (fun _ _ ht => doPkDecrypt_canonical ht))

theorem execPkLoadCurve_canonical {v x} : Outcome.Canonical (execPkLoadCurve v x s) :=
  .next (h.request (fun _ _ ht => doPkLoadCurve_canonical ht))

theorem State.Canonical.spoilt {rq} : (s.spoilt rq).Canonical := .ite h.drewBytes h

theorem faultMult_canonical {f rq} : (faultMult f rq s).Canonical := by
  unfold faultMult
  split
  exacts [.refuse h.spoilt.pkFault, .refuse h.spoilt.pkFault, .refuse h.spoilt]

theorem State.Canonical.cleanMult : s.cleanMult.Canonical := h.mapMult

theorem State.Canonical.boundary {last fault} : (s.boundary last fault).Canonical := by
  unfold State.boundary
  split
  · exact h
  · split
    · exact h
    · split
      · exact h.mapMult.cleanMult.finish (fun _ _ ht => faultMult_canonical ht)
      · exact .ite h.mapMult.update (.ite (h.mapMult.cleanMult.finish (fun _ _ ht => endMult_canonical ht)) h.mapMult)
      · exact h.mapMult

theorem execBottomTreeBuilt_canonical {k} : Outcome.Canonical (execBottomTreeBuilt k s) :=
  .next (.ite (.ite h.mapKs h) (by split; exacts [h, .ite h.setSlot h]))

theorem doRngDraw_canonical {rq} : (doRngDraw rq s).Canonical := .guard h (.done h.drewBytes)

theorem execRngDraw_canonical {v x} : Outcome.Canonical (execRngDraw v x s) :=
  .next (h.request (fun _ _ ht => doRngDraw_canonical ht))

theorem execDrbgReseed_canonical : Outcome.Canonical (execDrbgReseed s) := .next (.ite h.mapPow h)

theorem State.Canonical.stopDrbg {test} : (s.stopDrbg test).Canonical := h.mapPow.event.evaluate

theorem execEntropyTestFailure_canonical {test repeatPasses} : Outcome.Canonical (execEntropyTestFailure test repeatPasses s) :=
  .next (.ite h (.ite h.stopDrbg.mapPow.evaluate h.stopDrbg.mapPow.evaluate))

/-! ### Statements -/

theorem signBody_canonical {rq key body} : (signBody rq key body s).Canonical := by
  have run : ∀ f : State → Act, (∀ t, t.Canonical → (f t).Canonical) →
      ((if key.attr.type = 0x01 then Act.onLane s rq else Act.onHash s rq) f).Canonical := fun f hf => by
    split
    · exact .onLane h hf
    · exact .onHash h hf
  unfold signBody
  dsimp only
  refine run _ fun t ht => ?_
  split
  · split
    · exact .refuse ht
    · next c _ =>
      have hd := State.ecdsaDraw_canonical (c := c) (d := fromBe key.secret) (digest := (reportHash c).digest body)
        (fuel := 8) ht
      exact .done (.ite hd.unapproved hd)
  · split
    · exact .done ht.drewBytes
    · split <;> exact .done ht

theorem signReport_canonical {rq sel k body} : (signReport rq sel k body s).Canonical :=
  .ite (State.statement_canonical h) (.guard h (.withKey h (fun _ _ ht => .twice ht (fun _ hu => signBody_canonical hu))))

theorem doStampRead_canonical {rq} : (doStampRead rq s).Canonical := .guard h (.done h)

theorem doStampReport_canonical {rq} : (doStampReport rq s).Canonical := .guard h (signReport_canonical h)

theorem tombstoneReply_canonical : (tombstoneReply s).Canonical := by
  unfold tombstoneReply
  split
  exacts [.done h, .refuse h]

theorem doAttestDevice_canonical {rq} : (doAttestDevice rq s).Canonical :=
  .ite (.guard h (tombstoneReply_canonical h)) (.guard h (.ite (State.statement_canonical h)
    (.guard h (.ite (.done h) (.guard h.noteLost (.onHash h (fun _ ht => .verified ht (.withOutput ht
      (fun _ hu => .done hu.dualSigned)))))))))

theorem doAttestKey_canonical {rq} : (doAttestKey rq s).Canonical :=
  .guard h (by split; exacts [.refuse h, State.statement_canonical h])

theorem execStampRead_canonical {v x} : Outcome.Canonical (execStampRead v x s) :=
  .next (h.request (fun _ _ ht => doStampRead_canonical ht))

theorem execStampReport_canonical {v x} : Outcome.Canonical (execStampReport v x s) :=
  .next (h.request (fun _ _ ht => doStampReport_canonical ht))

theorem execAttestDevice_canonical {v x} : Outcome.Canonical (execAttestDevice v x s) :=
  .next (h.request (fun _ _ ht => doAttestDevice_canonical ht))

theorem execAttestKey_canonical {v x} : Outcome.Canonical (execAttestKey v x s) :=
  .next (h.request (fun _ _ ht => doAttestKey_canonical ht))

/-! ### Loops -/

theorem Act.Canonical.withResult {l f} (hf : ∀ a, (f a).Canonical) : (Act.withResult s l f).Canonical := by
  unfold Act.withResult
  split
  exacts [.refuse h, .refuse h, hf _]

theorem doLoopRead_canonical {rq} : (doLoopRead rq s).Canonical := .guard h (.withResult h (fun _ => .done h))

theorem doLoopReport_canonical {rq} : (doLoopReport rq s).Canonical :=
  .guard h (.withResult h (fun _ => signReport_canonical h))

theorem State.Canonical.sendHart {i t data} : (s.sendHart i t data).Canonical := h.setLoop.emit

theorem doLoopHart_canonical {rq} : (doLoopHart rq s).Canonical := .guard h (.park (.ite h h.sendHart))

theorem State.Canonical.nextHart {i} : (s.nextHart i).Canonical :=
  .ite h (by
    split
    · exact h.sendHart
    · exact by split; exacts [h, h.setLoop.sendHart])

theorem State.Canonical.scanLoops : s.scanLoops.Canonical := h.foldl (fun _ _ ht => ht.nextHart)

theorem doLoopAssign_canonical {rq} : (doLoopAssign rq s).Canonical := .guard h (.done h.setLoop.nextHart)

theorem State.Canonical.dropHart : s.dropHart.Canonical :=
  h.foldl (fun _ _ ht => .ite ht (ht.finish (fun _ _ hu => .refuse hu)))

theorem switchLoops_canonical {rq on} : (switchLoops rq on s).Canonical := .ite (.done h) (.ite (.park h) (.park h.dropHart))

theorem doLoopPower_canonical {rq} : (doLoopPower rq s).Canonical := .guard h (switchLoops_canonical h)

theorem execLoopRead_canonical {v x} : Outcome.Canonical (execLoopRead v x s) :=
  .next (h.request (fun _ _ ht => doLoopRead_canonical ht))

theorem execLoopReport_canonical {v x} : Outcome.Canonical (execLoopReport v x s) :=
  .next (h.request (fun _ _ ht => doLoopReport_canonical ht))

theorem execLoopHart_canonical {v x} : Outcome.Canonical (execLoopHart v x s) :=
  .next (h.request (fun _ _ ht => doLoopHart_canonical ht))

theorem execLoopAssign_canonical {v x} : Outcome.Canonical (execLoopAssign v x s) :=
  .next (h.request (fun _ _ ht => doLoopAssign_canonical ht))

theorem execLoopPower_canonical {v x} : Outcome.Canonical (execLoopPower v x s) :=
  .next (h.request (fun _ _ ht => doLoopPower_canonical ht))

theorem State.Canonical.mapLoops {f} : (s.mapLoops f).Canonical := h.foldl (fun _ _ ht => ht.setLoop)

theorem State.Canonical.abandonWindows : s.abandonWindows.Canonical := h.mapLoops

theorem State.Canonical.startWindows : s.startWindows.Canonical := h.mapLoops

theorem State.Canonical.markMains : s.markMains.Canonical := .ite h h.mapLoops

theorem State.Canonical.loopEvent {i bitNo code detail} : (s.loopEvent i bitNo code detail).Canonical := h.setLoop.event.fire

theorem State.Canonical.closeWindow {i st mean saturated} : (s.closeWindow i st mean saturated).Canonical := h.setLoop

theorem State.Canonical.windowEvents {i l m mean} : (s.windowEvents i l m mean).Canonical :=
  .ite
    (.loopEvent (.ite
      (.loopEvent (.ite
        (.loopEvent (.ite
          (.loopEvent (.ite (.loopEvent (.ite (.loopEvent (.ite h.loopEvent h)) (.ite h.loopEvent h)))
            (.ite (.loopEvent (.ite h.loopEvent h)) (.ite h.loopEvent h))))
          (.ite (.loopEvent (.ite (.loopEvent (.ite h.loopEvent h)) (.ite h.loopEvent h))) (.ite
            (.loopEvent (.ite h.loopEvent h)) (.ite h.loopEvent h)))))
        (.ite
          (.loopEvent (.ite (.loopEvent (.ite (.loopEvent (.ite h.loopEvent h)) (.ite h.loopEvent h)))
            (.ite (.loopEvent (.ite h.loopEvent h)) (.ite h.loopEvent h))))
          (.ite (.loopEvent (.ite (.loopEvent (.ite h.loopEvent h)) (.ite h.loopEvent h))) (.ite
            (.loopEvent (.ite h.loopEvent h)) (.ite h.loopEvent h))))))
      (.ite
        (.loopEvent (.ite
          (.loopEvent (.ite (.loopEvent (.ite (.loopEvent (.ite h.loopEvent h)) (.ite h.loopEvent h)))
            (.ite (.loopEvent (.ite h.loopEvent h)) (.ite h.loopEvent h))))
          (.ite (.loopEvent (.ite (.loopEvent (.ite h.loopEvent h)) (.ite h.loopEvent h))) (.ite
            (.loopEvent (.ite h.loopEvent h)) (.ite h.loopEvent h)))))
        (.ite
          (.loopEvent (.ite (.loopEvent (.ite (.loopEvent (.ite h.loopEvent h)) (.ite h.loopEvent h)))
            (.ite (.loopEvent (.ite h.loopEvent h)) (.ite h.loopEvent h))))
          (.ite (.loopEvent (.ite (.loopEvent (.ite h.loopEvent h)) (.ite h.loopEvent h))) (.ite
            (.loopEvent (.ite h.loopEvent h)) (.ite h.loopEvent h)))))))
    (.ite
      (.loopEvent (.ite
        (.loopEvent (.ite
          (.loopEvent (.ite (.loopEvent (.ite (.loopEvent (.ite h.loopEvent h)) (.ite h.loopEvent h)))
            (.ite (.loopEvent (.ite h.loopEvent h)) (.ite h.loopEvent h))))
          (.ite (.loopEvent (.ite (.loopEvent (.ite h.loopEvent h)) (.ite h.loopEvent h))) (.ite
            (.loopEvent (.ite h.loopEvent h)) (.ite h.loopEvent h)))))
        (.ite
          (.loopEvent (.ite (.loopEvent (.ite (.loopEvent (.ite h.loopEvent h)) (.ite h.loopEvent h)))
            (.ite (.loopEvent (.ite h.loopEvent h)) (.ite h.loopEvent h))))
          (.ite (.loopEvent (.ite (.loopEvent (.ite h.loopEvent h)) (.ite h.loopEvent h))) (.ite
            (.loopEvent (.ite h.loopEvent h)) (.ite h.loopEvent h))))))
      (.ite
        (.loopEvent (.ite
          (.loopEvent (.ite (.loopEvent (.ite (.loopEvent (.ite h.loopEvent h)) (.ite h.loopEvent h)))
            (.ite (.loopEvent (.ite h.loopEvent h)) (.ite h.loopEvent h))))
          (.ite (.loopEvent (.ite (.loopEvent (.ite h.loopEvent h)) (.ite h.loopEvent h))) (.ite
            (.loopEvent (.ite h.loopEvent h)) (.ite h.loopEvent h)))))
        (.ite
          (.loopEvent (.ite (.loopEvent (.ite (.loopEvent (.ite h.loopEvent h)) (.ite h.loopEvent h)))
            (.ite (.loopEvent (.ite h.loopEvent h)) (.ite h.loopEvent h))))
          (.ite (.loopEvent (.ite (.loopEvent (.ite h.loopEvent h)) (.ite h.loopEvent h))) (.ite
            (.loopEvent (.ite h.loopEvent h)) (.ite h.loopEvent h))))))

theorem execLoopWindowEnd_canonical {i first rest} : Outcome.Canonical (execLoopWindowEnd i first rest s) :=
  .next (by split; exacts [h, .ite h h.closeWindow.windowEvents])

theorem State.Canonical.heard {i addr command status data} : (s.heard i addr command status data).Canonical := h.setLoop

theorem State.Canonical.scan {i addr command e} : (s.scan i addr command e).Canonical := by
  unfold State.scan
  split
  exacts [h.heard, .ite (.ite h.setLoop.event h.setLoop) h, .ite (.ite h.setLoop.event h.setLoop) h]

theorem State.Canonical.endHart {i t e} : (s.endHart i t e).Canonical :=
  .ite (.ite h.scan h) (.finish (by split; exacts [.ite h.heard h, h, h]) (fun _ _ ht => .done ht))

theorem execHartTransaction_canonical {i addr command e} : Outcome.Canonical (execHartTransaction i addr command e s) :=
  .next (by split; exacts [h, .ite h h.setLoop.endHart.nextHart])

theorem execHartBurstFrame_canonical {i addr} : Outcome.Canonical (execHartBurstFrame i addr s) := .next (.ite h.event h)

theorem execLoopSupplyLimit_canonical {i} : Outcome.Canonical (execLoopSupplyLimit i s) := .next (.ite h.setLoop.loopEvent h)

theorem State.Canonical.failHart : s.failHart.Canonical := h.mapLoops.foldl (fun _ _ ht => ht.update.complete)

theorem State.Canonical.frontEndFault : s.frontEndFault.Canonical := h.mapPow.abandonWindows.failHart.mapLoops.event.fire

theorem execLoopFrontEndFault_canonical : Outcome.Canonical (execLoopFrontEndFault s) := .next (.ite h.frontEndFault h)

theorem State.Canonical.unassign {n} : (s.unassign n).Canonical := h.mapLoops

/-! ### Slices and channels -/

theorem State.Canonical.zeroGiven {old new} : (s.zeroGiven old new).Canonical := by
  unfold State.zeroGiven
  split
  exacts [h, .ite h.wmZero h]

theorem State.Canonical.setRun {n old new} : (s.setRun n old new).Canonical := h.zeroGiven.zeroGiven.zeroGiven.setSlc

theorem State.Canonical.sliceEvent {n action origin} : (s.sliceEvent n action origin).Canonical := h.event

theorem State.Canonical.makeRoot {slot owner} : (s.makeRoot slot owner).Canonical := h.drewBytes.install

theorem doSliceCreate_canonical {rq} : (doSliceCreate rq s).Canonical :=
  .guard h (by
    split
    exacts [.refuse h, .done h.setSlc.makeRoot.advance.sliceEvent])

theorem doSliceQuota_canonical {rq} : (doSliceQuota rq s).Canonical :=
  .guard h (by
    split
    · exact .guard h (.refuse h)
    · exact .guard h (.ite (.done h.setSlc) (.ite (.park h) (by split; exacts [.refuse h, .done h.setRun.setSlc]))))

theorem doSliceBind_canonical {rq} : (doSliceBind rq s).Canonical := .guard h (.done h.setSlc)

theorem doSliceQuiesce_canonical {rq} : (doSliceQuiesce rq s).Canonical :=
  .guard h (by split; exacts [.done h, .park h.setSlc])

theorem doSliceResume_canonical {rq} : (doSliceResume rq s).Canonical := .guard h (.done h.setSlc)

theorem State.Canonical.endQuiesce {n} : (s.endQuiesce n).Canonical := h.foldl (fun _ _ ht => ht.update.complete)

theorem execQuiesceComplete_canonical {n} : Outcome.Canonical (execQuiesceComplete n s) := .next (.ite h.setSlc.endQuiesce h)

theorem doSliceReset_canonical {rq} : (doSliceReset rq s).Canonical := .guard h (.park h)

theorem State.Canonical.resetSlice {n origin} : (s.resetSlice n origin).Canonical :=
  .sliceEvent (.advance (by split; exacts [h.setCtx.setDpm, h.setCtx.setDpm.wmZero]))

theorem execSliceResetComplete_canonical {n} : Outcome.Canonical (execSliceResetComplete n s) :=
  .next (.ite h (h.finish (fun _ _ ht => .done ht.resetSlice)))

theorem State.Canonical.dropKeys {owner origin} : (s.dropKeys owner origin).Canonical := h.foldl (fun _ _ ht => ht.freeSlot)

theorem State.Canonical.removeSlice {n origin} : (s.removeSlice n origin).Canonical := by
  have hk : ((s.dropKeys n origin).mapKs (fun k => k.dropCurves n)).Canonical :=
    h.dropKeys.setKs h.dropKeys.slots h.dropKeys.regs (Tbl.wf_filter _ h.dropKeys.curves)
  refine .sliceEvent (.unassign (.setSlc (.setCtx ?_)))
  split
  · exact hk
  · exact hk.wmZero

theorem doSliceRemove_canonical {rq} : (doSliceRemove rq s).Canonical := .guard h (.done h.removeSlice)

theorem doSliceStatus_canonical {rq} : (doSliceStatus rq s).Canonical := .guard h (.done h)

theorem execSliceCreate_canonical {v x} : Outcome.Canonical (execSliceCreate v x s) :=
  .next (h.request (fun _ _ ht => doSliceCreate_canonical ht))

theorem execSliceBind_canonical {v x} : Outcome.Canonical (execSliceBind v x s) :=
  .next (h.request (fun _ _ ht => doSliceBind_canonical ht))

theorem execSliceQuota_canonical {v x} : Outcome.Canonical (execSliceQuota v x s) :=
  .next (h.request (fun _ _ ht => doSliceQuota_canonical ht))

theorem execSliceQuiesce_canonical {v x} : Outcome.Canonical (execSliceQuiesce v x s) :=
  .next (h.request (fun _ _ ht => doSliceQuiesce_canonical ht))

theorem execSliceResume_canonical {v x} : Outcome.Canonical (execSliceResume v x s) :=
  .next (h.request (fun _ _ ht => doSliceResume_canonical ht))

theorem execSliceReset_canonical {v x} : Outcome.Canonical (execSliceReset v x s) :=
  .next (h.request (fun _ _ ht => doSliceReset_canonical ht))

theorem execSliceRemove_canonical {v x} : Outcome.Canonical (execSliceRemove v x s) :=
  .next (h.request (fun _ _ ht => doSliceRemove_canonical ht))

theorem execSliceStatus_canonical {v x} : Outcome.Canonical (execSliceStatus v x s) :=
  .next (h.request (fun _ _ ht => doSliceStatus_canonical ht))

theorem State.Canonical.invalidate {addr first count} : (s.invalidate addr first count).Canonical :=
  h.update.foldl (fun _ ⟨_, _⟩ ht => .ite ht.setChan ht)

theorem doChannelInvalidate_canonical {rq} : (doChannelInvalidate rq s).Canonical :=
  .guard h (.ite (.park h) (.done h.invalidate))

theorem State.Canonical.endInvalidate : s.endInvalidate.Canonical := h.finish (fun _ _ ht => .done ht.invalidate)

theorem doChannelStatus_canonical {rq} : (doChannelStatus rq s).Canonical := .guard h (.done h)

theorem execChannelInvalidate_canonical {v x} : Outcome.Canonical (execChannelInvalidate v x s) :=
  .next (h.request (fun _ _ ht => doChannelInvalidate_canonical ht))

theorem execChannelStatus_canonical {v x} : Outcome.Canonical (execChannelStatus v x s) :=
  .next (h.request (fun _ _ ht => doChannelStatus_canonical ht))

/-! ### Peers -/

theorem State.Canonical.ceremonyDone {origin} : (s.ceremonyDone origin).Canonical := by
  unfold State.ceremonyDone
  split
  exacts [h, h.mapCus.event]

theorem State.Canonical.dropPair {origin} : (s.dropPair origin).Canonical := .ite h h.freeDevice.mapKs

theorem State.Canonical.paired {key k origin} : (s.paired key k origin).Canonical :=
  h.dropPair.mapKs.writeDevice.event.ceremonyDone

theorem Act.Canonical.withBundle {rq k}
    (hk : ∀ (t : State), t.Canonical → (k t).Canonical) : (Act.withBundle s rq k).Canonical :=
  .ite (.done h) (.guard h.noteLost (.verified h (hk _ h)))

theorem pairOffer_canonical {rq} : (pairOffer rq s).Canonical :=
  .withBundle h (fun _ ht => .withOutput ht (fun _ hu => .done hu.drewBytes.drewBytes.dualSigned.mapKs))

theorem pairAccept_canonical {rq k offer} : (pairAccept rq k offer s).Canonical :=
  .withOutput h (fun _ ht => .done ht.drewBytes.dualSigned.paired)

theorem pairConfirm_canonical {rq bundle acc} : (pairConfirm rq bundle acc s).Canonical := by
  unfold pairConfirm
  split
  exacts [.guard h.mapKs (.done h.paired), .refuse h.mapKs]

theorem doPeerPair_canonical {rq} : (doPeerPair rq s).Canonical :=
  .guard h (.ite (pairOffer_canonical h) (.ite
    (.withBundle h (fun _ ht => .withInput ht (fun _ _ hu => by
      split
      exacts [.refuse hu, .guard hu (pairAccept_canonical hu)])))
    (.withInput h (fun _ _ ht => pairConfirm_canonical ht))))

theorem doPeerUnpair_canonical {rq} : (doPeerUnpair rq s).Canonical := .guard h (.ite (.done h.dropPair.event) (.done h))

theorem doPeerStatus_canonical {rq} : (doPeerStatus rq s).Canonical := .guard h (.ite (.done h) (.done h))

theorem State.records_canonical {xfer ks} : (s.records xfer ks).2.Canonical := by
  unfold State.records
  suffices ∀ (ks : List (Nat × Key)) (r : List Byte × State), r.2.Canonical → (ks.foldl (fun (acc, s) (i, k) =>
      (acc ++ wrapBlob 0x0902 xfer k.attr (s.provenance i k (zeros 16)) (s.drawBytes 16) (s.material k), s.drewBytes 16))
      r).2.Canonical from this ks ([], s) h
  intro ks
  induction ks with
  | nil => exact fun _ hr => hr
  | cons k ks ih => exact fun _ hr => ih _ hr.drewBytes

theorem State.package_canonical {n number ctx} : (s.package n number ctx).2.Canonical :=
  State.Canonical.dualSigned (State.records_canonical h)

theorem State.Canonical.mapKeys {n f} : (s.mapKeys n f).Canonical := h.foldl (fun _ ⟨_, _⟩ ht => ht.setSlot)

theorem State.Canonical.outputs {o ds bs} : (s.outputs o ds bs).Canonical := by
  induction ds generalizing s bs with
  | nil => exact h
  | cons d ds ih => exact ih h.output

theorem State.Canonical.freeze {n number pkg keys} : (s.freeze n number pkg keys).Canonical := by
  unfold State.freeze
  exact .mapKs (.setCtx (.unassign (.setSlc h.mapKeys)))

theorem emigrate_canonical {fails rq} : (emigrate fails rq s).Canonical := by
  have hp : ∀ {n number}, (((s.package n number rq.ctx).2).mapKs (fun v => { v with counter := number })).Canonical :=
    (State.package_canonical h).mapKs
  unfold emigrate; dsimp only; split
  · exact .refuse hp.dmaEvent
  · exact .refuse hp.dmaEvent
  · exact .done hp.freeze.outputs

theorem doSliceEmigrate_canonical {fails rq} : (doSliceEmigrate fails rq s).Canonical :=
  .guard h (.ite (.done h) (.guard h.noteLost (.twice h (fun _ ht => .onLane ht (fun _ hu => .verified hu
    (emigrate_canonical hu))))))

theorem State.Canonical.undoTransfer {reason origin} : (s.undoTransfer reason origin).Canonical := by
  unfold State.undoTransfer
  split
  exacts [h, h.mapKeys.setSlc.mapKs.event]

theorem State.Canonical.settle {origin} : (s.settle origin).Canonical := by
  unfold State.settle
  split
  exacts [h, h.removeSlice.mapKs.event]

theorem doSliceReceipt_canonical {rq} : (doSliceReceipt rq s).Canonical := .guard h (.twice h (fun _ ht => .done ht.settle))

theorem State.Canonical.installRecord {n xfer m r x} (e : s.installRecord n xfer m r = .ok x) : x.1.Canonical := by
  unfold State.installRecord at e
  extract_lets a root at e
  split at e
  · extract_lets loaded fit at e
    have hfit : ∀ y, fit = .ok y → y.2.Canonical := fun y hy => by
      rcases ite_eq_iff.mp hy with ⟨-, hy⟩ | ⟨-, hy⟩
      · split at hy
        · cases hy
        · cases hy; exact h
        · cases hy; exact h.setCurve
      · cases hy; exact h
    rcases hy : fit with _ | ⟨size, t⟩ <;> rw [hy] at e
    · cases e
    · rcases ite_eq_iff.mp e with ⟨-, e⟩ | ⟨-, e⟩
      · cases e
      · split at e
        · cases e
        · cases e; exact (hfit _ hy).setSlot
  · cases e

theorem State.Canonical.installRecords {n xfer m rs t} (e : s.installRecords n xfer m rs = .ok t) : t.Canonical := by
  induction rs generalizing s m with
  | nil => cases e; exact h
  | cons r rs ih =>
    unfold State.installRecords at e
    split at e
    · cases e
    · next hr => exact ih (h.installRecord hr) e

theorem State.Canonical.raiseChannels {cs} : (s.raiseChannels cs).Canonical := h.foldl (fun _ _ ht => .ite ht.setChan ht)

theorem State.Canonical.installPackage {n p o t} (e : s.installPackage n p o = .ok t) : t.Canonical := by
  unfold State.installPackage at e
  dsimp only at e
  split at e
  · cases e
  · split at e
    · cases e
    · split at e
      · cases e
      · split at e
        · cases e
        · split at e
          · cases e
          · split at e
            · cases e
            · next hr => cases e; exact .raiseChannels (h.freeSlot.installRecords hr)

theorem refusePackage_canonical {rq d p} : (refusePackage rq d p s).Canonical :=
  .verified h (.done (.dualSigned (.event (.ite h.mapKs h))))

theorem immigrate_canonical {rq p} : (immigrate rq p s).Canonical := by
  refine .ite (refusePackage_canonical h) (.onLane h fun t ht => ?_)
  split
  · exact refusePackage_canonical ht
  · next e => exact .verified ht (.done (.event (.mapKs (.dualSigned (ht.installPackage e)))))

theorem Act.Canonical.withInputs {rq kind f ds acc} (hf : ∀ bs s, s.Canonical → (f bs s).Canonical) :
    (Act.withInputs s rq kind f ds acc).Canonical := by
  induction ds generalizing s acc with
  | nil => exact hf acc s h
  | cons d ds ih =>
    unfold Act.withInputs; split
    · exact ih h.didInput
    · exact .park h
    · exact .refuse h.dmaEvent

theorem State.Canonical.setSlcSt {n st} : (s.setSlcSt n st).Canonical := h.setSlc

theorem runImmigrate_canonical {rq} : (runImmigrate rq s).Canonical :=
  .guard h (.guard h.noteLost (.withInputs h (fun _ _ ht => immigrate_canonical ht)))

theorem doSliceImmigrate_canonical {fault rq} : (doSliceImmigrate fault rq s).Canonical := by
  unfold doSliceImmigrate; dsimp only; split
  · have hr := runImmigrate_canonical (rq := rq) (h.setSlcSt (n := at8 rq.body 0) (st := .created))
    split
    · next e => rw [e] at hr; exact hr
    · next e => rw [e] at hr; exact .park (State.Canonical.setSlcSt hr)
  · exact .guard h (.ite (.refuse h) (.park h.setSlcSt))

theorem refuseHere_canonical {rq b} : (refuseHere rq b s).Canonical := .guard h (.done h.mapKs.event)

theorem doSliceRefuse_canonical {rq} : (doSliceRefuse rq s).Canonical :=
  .ite (.guard h (.withInputs h (fun _ _ ht => refuseHere_canonical ht))) (.guard h (.ite (.guard h (.done h.undoTransfer))
    (refuseHere_canonical h)))

theorem execPeerPairOffer_canonical {v x} : Outcome.Canonical (execPeerPairOffer v x s) :=
  .next (h.request (fun _ _ ht => doPeerPair_canonical ht))

theorem execPeerPairAcceptance_canonical {v x} : Outcome.Canonical (execPeerPairAcceptance v x s) :=
  .next (h.request (fun _ _ ht => doPeerPair_canonical ht))

theorem execPeerPairStep3_canonical {v x} : Outcome.Canonical (execPeerPairStep3 v x s) :=
  .next (h.request (fun _ _ ht => doPeerPair_canonical ht))

theorem execPeerUnpair_canonical {v x} : Outcome.Canonical (execPeerUnpair v x s) :=
  .next (h.request (fun _ _ ht => doPeerUnpair_canonical ht))

theorem execPeerStatus_canonical {v x} : Outcome.Canonical (execPeerStatus v x s) :=
  .next (h.request (fun _ _ ht => doPeerStatus_canonical ht))

theorem execSliceEmigrate_canonical {v x fails} : Outcome.Canonical (execSliceEmigrate v x fails s) :=
  .next (h.request (fun _ _ ht => doSliceEmigrate_canonical ht))

theorem execSliceImmigrate_canonical {v x fault} : Outcome.Canonical (execSliceImmigrate v x fault s) :=
  .next (h.request (fun _ _ ht => doSliceImmigrate_canonical ht))

theorem execSliceReceipt_canonical {v x} : Outcome.Canonical (execSliceReceipt v x s) :=
  .next (h.request (fun _ _ ht => doSliceReceipt_canonical ht))

theorem execSliceRefuse_canonical {v x} : Outcome.Canonical (execSliceRefuse v x s) :=
  .next (h.request (fun _ _ ht => doSliceRefuse_canonical ht))

end

end Sys2Proof.Machine
end

section
/-! PROOFS. Canonical form: the remaining commands and events keep it, and so does every step. -/

namespace Sys2Proof.Machine

-- Elaborated one after the other, so that many short lemmas need little memory.
set_option Elab.async false

section
variable {s : State} (h : s.Canonical)
include h

/-! ### Tamper sources -/

theorem doTamperStatus_canonical {rq} : (doTamperStatus rq s).Canonical := .guard h (.done h)

theorem doTamperConfig_canonical {rq} : (doTamperConfig rq s).Canonical := .guard h (.done h.mapTam.event.evaluate)

theorem execTamperStatus_canonical {v x} : Outcome.Canonical (execTamperStatus v x s) :=
  .next (h.request (fun _ _ ht => doTamperStatus_canonical ht))

theorem execTamperConfig_canonical {v x} : Outcome.Canonical (execTamperConfig v x s) :=
  .next (h.request (fun _ _ ht => doTamperConfig_canonical ht))

omit h in
theorem Tamper.enqueue_quiet (q : Queued) (t : Tamper) : (t.enqueue q).quiet = t.quiet := by
  unfold Tamper.enqueue; split <;> rfl

theorem State.Canonical.fireUnpowered {i} : (s.fireUnpowered i).Canonical := by
  unfold State.fireUnpowered; dsimp only
  have ht : ∀ {t : State} {q}, t.Canonical → (t.mapTam (fun t => t.enqueue q)).Canonical := fun ht =>
    ht.mapTam (Tamper.enqueue_quiet _)
  split
  · exact .dropRoot (ht h.mapTam)
  · exact ht h.mapTam

theorem State.Canonical.tick {n} : (s.tick n).Canonical := h.mapPh

theorem execSourceFires_canonical {i f} : Outcome.Canonical (execSourceFires i f s) :=
  .next (.ite h.tick (.ite (.ite h.tick.assertSource h.tick.assertSource.endDecom) (.ite h.tick h.tick.fireUnpowered)))

theorem execSourceClears_canonical {i} : Outcome.Canonical (execSourceClears i s) := .next (.ite h.mapTam h)

theorem State.Canonical.answerLocked {l} : (s.answerLocked l).Canonical := h.update.complete

theorem execCommandProcessorRestart_canonical : Outcome.Canonical (execCommandProcessorRestart s) :=
  .next (.ite (h.mapTam.foldl (fun _ _ ht => ht.answerLocked)) h)

/-! ### Mains time -/

theorem State.Canonical.enterPh {st} : (s.enterPh st).Canonical := .ite h.mapPh.markMains h.mapPh.markMains.fire

theorem State.Canonical.enterLock {err} : (s.enterLock err).Canonical := h.mapPh.enterPh.mapPh.event

theorem State.Canonical.enterCoast : s.enterCoast.Canonical := h.mapPh.enterPh.event

theorem State.Canonical.enterSlew {err} : (s.enterSlew err).Canonical := h.mapPh.enterPh.mapPh.event

theorem State.Canonical.newCycle : s.newCycle.Canonical :=
  .openSlot (.startWindows (.ite (h.mapEvr.mapKs.foldl (fun _ ⟨_, _⟩ ht => .ite ht ht.setCtx))
    (.event (.mapEvr (h.mapEvr.mapKs.foldl (fun _ ⟨_, _⟩ ht => .ite ht ht.setCtx))))))

theorem State.Canonical.setStamp {c} : (s.setStamp c).Canonical := .ite h.enterPh h.mapPh.newCycle

theorem State.Canonical.beginStamp {enter}
    (henter : ∀ (t : State), t.Canonical → (enter t).Canonical) : (s.beginStamp enter).Canonical :=
  .ite (.persist (.newCycle (henter _ h.mapPh))) (by
    split
    exacts [h, .ite h.mapPh.enterPh (.newCycle (.event (henter _ h.mapPh.mapPh)))])

theorem State.Canonical.measure {m g} : (s.measure m g).Canonical := .ite h.mapPh.event h.mapPh

theorem State.Canonical.onCrossing : s.onCrossing.Canonical := by
  unfold State.onCrossing
  split
  · exact .ite h.enterSlew h.mapPh
  · exact .ite h.enterSlew h.enterLock
  · exact .ite h.enterLock h.mapPh
  · exact h
  · exact h
  · exact h
  · exact h
  · exact h

theorem execMainsCycleEnd_canonical {m} : Outcome.Canonical (execMainsCycleEnd m s) :=
  .next (.ite h (by
    dsimp only
    split
    · exact .ite (.beginStamp (.ite h.measure.mapPh h.measure) (fun _ ht => ht.enterLock)) (.ite h.measure.mapPh h.measure)
    · exact .ite (.ite h.measure.mapPh h.measure) (.ite (.enterLock (.ite h.measure.mapPh h.measure))
        (.enterSlew (.ite h.measure.mapPh h.measure)))
    · exact .ite (.onCrossing (.ite h.measure.mapPh h.measure)) (.ite h.measure.mapPh h.measure)
    · exact .ite (.onCrossing (.ite h.measure.mapPh h.measure)) (.ite h.measure.mapPh h.measure)
    · exact .ite (.onCrossing (.ite h.measure.mapPh h.measure)) (.ite h.measure.mapPh h.measure)
    · exact .ite h.measure.mapPh h.measure
    · exact .ite h.measure.mapPh h.measure
    · exact .ite h.measure.mapPh h.measure))

theorem execCrossingMissing_canonical : Outcome.Canonical (execCrossingMissing s) :=
  .next (.ite h (by
    split
    · exact h.mapPh.enterPh
    · exact h.mapPh.enterPh
    · exact .ite h.mapPh.enterCoast h.mapPh
    · exact .ite h h.mapPh
    · exact .ite h h.mapPh
    · exact h
    · exact h
    · exact h))

theorem execAcquireTimeout_canonical : Outcome.Canonical (execAcquireTimeout s) :=
  .next (.ite (h.beginStamp (fun _ ht => ht.enterCoast)) h)

theorem State.Canonical.openRest : s.openRest.Canonical := h.foldl (fun _ _ ht => ht.openSlot)

theorem execStampIncrement_canonical : Outcome.Canonical (execStampIncrement s) := .next (.ite h.openRest.setStamp h)

theorem execSlotOpen_canonical {ecc} : Outcome.Canonical (execSlotOpen ecc s) := .next (.ite h h.findEcc.mapPh.openSlot.findEcc)

theorem execPeriodicPersistence_canonical {n} : Outcome.Canonical (execPeriodicPersistence n s) :=
  .next (.ite h.tick.persist h.tick)

theorem State.Canonical.nextPhi : s.nextPhi.Canonical := .ite h.mapPh h

theorem State.Canonical.takeBand {band} : (s.takeBand band).Canonical :=
  .ite h (.ite h.mapPh.enterCoast (.ite h.mapPh.enterPh h.mapPh))

/-! ### Ceremonies -/

theorem doCeremonyStart_canonical {rq} : (doCeremonyStart rq s).Canonical :=
  .guard h (.done (.ite h.drewBytes.drewBytes.mapCus.event.takeBand h.drewBytes.drewBytes.mapCus.event))

theorem State.Canonical.apdu {card stage bytes} : (s.apdu card stage bytes).Canonical := h.mapCus.emit

theorem State.Canonical.endStep {f} (hf : ∀ a (t : State), t.Canonical → (f a t).Canonical) : (s.endStep f).Canonical := by
  unfold State.endStep
  split
  exacts [h, h.endExchange.finish (fun _ _ ht => hf _ _ ht)]

theorem State.Canonical.failStep {st detail} : (s.failStep st detail).Canonical := h.endStep (fun _ _ ht => .refuse ht)

theorem State.Canonical.takeAtr {e b} : (s.takeAtr e b).Canonical := by
  unfold State.takeAtr
  split
  · exact .ite h.mapCus h.failStep
  · exact by split; exacts [h.failStep, h.setSerial.apdu]

theorem doCeremonyStep_canonical {present atr rq} : (doCeremonyStep present atr rq s).Canonical :=
  .guard h (.ite (.park h) (.ite (.refuse h) (by
    split
    · exact .park h.setSerial.emit.mapCus
    · split
      · exact .ite (.refuse h.setSerial.emit.mapCus.deactivate.mapCus) (.park h.setSerial.emit.mapCus.takeAtr)
      · exact .park h.setSerial.emit.mapCus.takeAtr)))

theorem State.Canonical.setReg {i r origin} : (s.setReg i r origin).Canonical :=
  .ite
    (.writeDevice (.setKs (.ite h.freeDevice h) ((State.Canonical.slots (.ite h.freeDevice h)))
      (by dsimp only; exact Tbl.wf_put _ _ ((State.Canonical.regs (.ite h.freeDevice h))))
      ((State.Canonical.curves (.ite h.freeDevice h)))))
    (.setKs (.ite h.freeDevice h) ((State.Canonical.slots (.ite h.freeDevice h)))
      (by dsimp only; exact Tbl.wf_put _ _ ((State.Canonical.regs (.ite h.freeDevice h))))
      ((State.Canonical.curves (.ite h.freeDevice h))))

theorem State.Canonical.commission {c x} (e : s.commission c = some x) : x.1.Canonical := by
  unfold State.commission at e
  split at e
  · cases e
  · cases e
    exact .toLife (.mapCus (.foldl h.drewDelay.drewBytes.mapKs.makeRoot fun _ _ ht => ht.setReg))

theorem State.Canonical.register {c x} (e : s.register c = some x) : x.1.Canonical := by
  have hr : ∀ {i r o y}, some (s.setReg i r o, ([] : List Byte)) = some y → y.1.Canonical := fun e => by
    cases e; exact h.setReg
  unfold State.register at e
  rcases ite_eq_iff.mp e with ⟨-, e⟩ | ⟨-, e⟩
  · cases e
  · rcases ite_eq_iff.mp e with ⟨-, e⟩ | ⟨-, e⟩ <;> exact hr e

theorem State.Canonical.dropPortKey {p origin} : (s.dropPortKey p origin).Canonical := .ite h.freeDevice h

theorem State.Canonical.vpKeys {c x} (e : s.vpKeys c = some x) : x.1.Canonical := by
  unfold State.vpKeys at e
  rcases ite_eq_iff.mp e with ⟨-, e⟩ | ⟨-, e⟩
  · cases e; exact h.dropPortKey.setVp.evaluate
  · rcases ite_eq_iff.mp e with ⟨-, e⟩ | ⟨-, e⟩
    · cases e
    · rcases ite_eq_iff.mp e with ⟨-, e⟩ | ⟨-, e⟩
      · cases e
      · cases e; exact h.dropPortKey.setVp.writeDevice.evaluate

theorem State.Canonical.unlock {c x} (e : s.unlock c = some x) : x.1.Canonical := by
  unfold State.unlock at e
  split at e
  · cases e
  · cases e; exact h.drewDelay.mapTam.toLife

theorem State.Canonical.blow {origin i} : (s.blow origin i).Canonical := h.mapTam.event

theorem State.fuse_canonical {c fails} : (s.fuse c fails).1.Canonical :=
  .evaluate (h.foldl fun _ _ ht => ht.blow)

/-- What a ceremony's effect leaves is canonical. -/
def Effect.Canonical : Effect → Prop
  | .done s _ | .failed s | .refused s _ _ => s.Canonical

/-- The effect of an approval that may fail, from what it answers. -/
theorem Effect.Canonical.ofOption {r : Option (State × List Byte)} (hr : ∀ x, r = some x → x.1.Canonical) :
    (match r with
      | none => Effect.failed s
      | some x => .done x.1 x.2).Canonical := by
  cases r with
  | none => exact h
  | some x => exact hr x rfl

theorem State.abort_canonical {c rq} : (s.abort c rq).Canonical := by
  unfold State.abort; split
  · exact h
  · split
    · exact h
    · have ha : (Act.guard (s.noteLost c.origin 2 s.ks.hss) (s.dualChecks rq.ctx)
          (.verified s rq (.park .card s))).Canonical := .guard h.noteLost (.verified h (.park h))
      split
      · next e => rw [e] at ha; exact ha
      · exact h.dualSigned.undoTransfer

theorem State.effect_canonical {c fails rq} : (s.effect c fails rq).Canonical := by
  unfold State.effect; dsimp only; split
  · exact .ofOption h fun _ e => h.commission e
  · split
    · exact .ofOption h fun _ e => h.register e
    · split
      · exact .ofOption h fun _ e => h.vpKeys e
      · split
        · exact State.abort_canonical h
        · split
          · exact .ofOption h fun _ e => h.unlock e
          · split
            · split
              · exact State.fuse_canonical h
              · exact State.fuse_canonical h
            · split
              · exact h.drewDelay.decommission.awaitRestart
              · exact h.mapCus

theorem acceptStep_canonical {split fails old c index pub l} :
    (acceptStep split fails old c index pub l s).Canonical := by
  refine .ite (.done h.event.mapCus) (.twice h.event.mapCus fun t ht => .ite (.done ht.mapCus) ?_)
  split
  · next e => exact .refuse (State.Canonical.endCeremony (e ▸ State.effect_canonical ht :))
  · next e => exact .refuse (State.Canonical.mapCus (e ▸ State.effect_canonical ht :))
  · next e => exact .done (State.Canonical.ceremonyDone (e ▸ State.effect_canonical ht :))

theorem cardDone_canonical {split fails c e comp l} : (cardDone split fails c e comp l s).Canonical :=
  .ite (acceptStep_canonical h) (by split; exacts [.refuse h, acceptStep_canonical h])

theorem State.Canonical.expireStep : s.expireStep.Canonical := h.failStep.endCeremony

theorem State.Canonical.emptyQueue {card} : (s.emptyQueue card).Canonical := h.setSerial

theorem State.Canonical.badBlock {card} : (s.badBlock card).Canonical := by
  dsimp only [State.badBlock]
  split
  exacts [h.setSerial, .ite h.setSerial (.ite h.setSerial.mapCus.emit h.setSerial.failStep)]

theorem State.Canonical.goodBlock : s.goodBlock.Canonical := h.mapCus

theorem State.Canonical.cardResponse {card data sw split fails} : (s.cardResponse card data sw split fails).Canonical := by
  unfold State.cardResponse
  split
  · exact .ite h (.ite h.failStep (by
      split
      · exact h
      · exact h.apdu
      · exact h.mapCus.apdu
      · split
        exacts [h.failStep, .ite h.drewBytes.mapCus.apdu (.ite h.expireStep (h.endStep (fun _ _ ht => cardDone_canonical ht)))]
      · split
        exacts [h.failStep, .ite h.expireStep (h.endStep (fun _ _ ht => cardDone_canonical ht))]))
  · exact h

theorem State.Canonical.atrLate {card atr} : (s.atrLate card atr).Canonical := by
  unfold State.atrLate
  split
  · exact h
  · exact .ite h (by split; exacts [h.takeAtr, .ite h.mapCus h.failStep])

theorem State.Canonical.cardGone {card} : (s.cardGone card).Canonical := by
  unfold State.cardGone
  split
  exacts [h, .ite h.failStep h]

theorem State.Canonical.cardTrip {card} : (s.cardTrip card).Canonical := by
  unfold State.cardTrip
  split
  exacts [h, .ite h.event.failStep h]

theorem doCeremonyCancel_canonical {rq} : (doCeremonyCancel rq s).Canonical :=
  .guard h (by
    split
    exacts [.done h, .ite (.done h.failStep.endCeremony) (.done h)])

theorem doCeremonyStatus_canonical {rq} : (doCeremonyStatus rq s).Canonical := .guard h (.done h)

theorem execCeremonyStart_canonical {v x} : Outcome.Canonical (execCeremonyStart v x s) :=
  .next (h.request (fun _ _ ht => doCeremonyStart_canonical ht))

theorem execCeremonyStep_canonical {v x present atr} : Outcome.Canonical (execCeremonyStep v x present atr s) :=
  .next (h.request (fun _ _ ht => doCeremonyStep_canonical ht))

theorem execCeremonyStatus_canonical {v x} : Outcome.Canonical (execCeremonyStatus v x s) :=
  .next (h.request (fun _ _ ht => doCeremonyStatus_canonical ht))

/-! ### The host port -/

theorem State.Canonical.hostCtx {o f} : (s.hostCtx o f).Canonical := .ite h.setCtx h

theorem execSqTail_canonical {o v} : Outcome.Canonical (execSqTail o v s) := .next h.hostCtx

theorem execCqHead_canonical {o v} : Outcome.Canonical (execCqHead o v s) := .next h.hostCtx

theorem State.Canonical.ringCfg {o reply v} : (s.ringCfg o reply v).Canonical := by
  unfold State.ringCfg
  exact h.hostCtx

theorem execSqCfg_canonical {o reply v} : Outcome.Canonical (execSqCfg o reply v s) := .next h.ringCfg

theorem State.Canonical.haltRing {o completion} : (s.haltRing o completion).Canonical := h.setCtx.dmaEvent

theorem State.Canonical.unreadable {o index ev st detail} : (s.unreadable o index ev st detail).Canonical := h.setCtx

theorem State.Canonical.takePacket {o index e packet} : (s.takePacket o index e packet).Canonical := by
  unfold State.takePacket
  split
  exacts [h.dmaRead.dmaEvent.unreadable, h.dmaRead.setCtx]

theorem State.Canonical.takeEntry {o e packet} : (s.takeEntry o e packet).Canonical := by
  dsimp only [State.takeEntry]
  split
  exacts [h.setCtx.unreadable, h.setCtx.takePacket]

theorem State.Canonical.ringFetch {o entry packet} : (s.ringFetch o entry packet).Canonical :=
  .ite h (by split; exacts [h.haltRing, h.dmaRead.takeEntry])

theorem execRingEntryFetch_canonical {o entry packet} : Outcome.Canonical (execRingEntryFetch o entry packet s) :=
  .next h.ringFetch

theorem State.Canonical.mapFails {n completion} : (s.mapFails n completion).Canonical := h.setDpm.setCtx.dmaEvent

theorem State.Canonical.flushWord {n w got} : (s.flushWord n w got).Canonical := by
  unfold State.flushWord
  split
  exacts [h.setDpm.mapFails, h.setDpm.dmaRead.mapFails, h.setDpm.dmaRead.dmaWrite]

theorem State.Canonical.flushMarks {n reads} : (s.flushMarks n reads).Canonical := h.foldl (fun _ ⟨_, _⟩ ht => ht.flushWord)

theorem State.writeReply_canonical {i d e} : (s.writeReply i d e).1.Canonical := by
  unfold State.writeReply; split
  · split
    · exact h.dmaEvent
    · exact h.hostWrite
  · exact h

theorem State.Canonical.writeEntry {i d full} : (s.writeEntry i d full).Canonical :=
  .ite h.dmaWrite.setCtx.msix h.dmaWrite.setCtx

theorem execReplyEntryWrite_canonical {o e} : Outcome.Canonical (execReplyEntryWrite o e s) :=
  .next (by
    dsimp only
    split
    · exact h
    · split
      · exact .dmaEvent (.setCtx (.ite (.flushMarks (.setDpm (State.writeReply_canonical h))) (State.writeReply_canonical h)))
      · exact .writeEntry (.ite (.flushMarks (.setDpm (State.writeReply_canonical h))) (State.writeReply_canonical h)))

theorem State.Canonical.clearCause {i} : (s.clearCause i).Canonical := .ite h.update.update.fire h.update

theorem State.Canonical.writeEvent {v} : (s.writeEvent v).Canonical := h.foldl (fun _ _ ht => .ite ht.clearCause ht)

theorem execMgrEvent_canonical {v} : Outcome.Canonical (execMgrEvent v s) := .next (.ite h.writeEvent h)

theorem State.Canonical.unmask {v} : (s.unmask v).Canonical := .ite h.mapHp.mapHp.emit h.mapHp

theorem execMsixUnmask_canonical {v} : Outcome.Canonical (execMsixUnmask v s) := .next (.ite h.unmask h)

theorem State.Canonical.requestSwap {n} : (s.requestSwap n).Canonical := .ite h.setCtx h.setDpm

theorem State.Canonical.writeDpmCtrl {n v} : (s.writeDpmCtrl n v).Canonical := .ite h.setDpm.requestSwap h.setDpm

theorem execDpmEnable_canonical {n v} : Outcome.Canonical (execDpmEnable n v s) := .next (.ite h.writeDpmCtrl h)

theorem execDpmSwap_canonical {n} : Outcome.Canonical (execDpmSwap n s) := .next (.ite h.requestSwap h)

theorem execDpmSwapDone_canonical {m} : Outcome.Canonical (execDpmSwapDone m s) := .next (.ite h.flushMarks.setDpm.fire h)

theorem State.Canonical.sendPending : s.sendPending.Canonical := .ite h (h.mapHp.foldl (fun _ _ ht => ht.emit))

theorem State.Canonical.drainAll : s.drainAll.Canonical := h.foldl (fun _ _ ht => ht.drain)

theorem execHostLinkUp_canonical {rate width} : Outcome.Canonical (execHostLinkUp rate width s) :=
  .next (.ite h.mapHp.event.sendPending h)

/-! ### LANE commands -/

theorem doLaneStatus_canonical {rq} : (doLaneStatus rq s).Canonical := .guard h (.done h)

theorem State.Canonical.laneRetired {i origin} : (s.laneRetired i origin).Canonical := h.setLane.event.fireLane

theorem State.Canonical.beginRetire {i origin} : (s.beginRetire i origin).Canonical := by
  dsimp only [State.beginRetire]
  split
  · exact h.setLane.wakeKept.rehome
  · exact h.laneRetired
  · exact h.laneRetired
  · exact h
  · exact h

theorem doLaneRetire_canonical {rq} : (doLaneRetire rq s).Canonical :=
  .guard h (by
    split
    · exact .park h.beginRetire
    · exact .done h.beginRetire
    · exact .done h.beginRetire
    · exact .done h
    · exact .done h)

theorem doLaneRestore_canonical {rq} : (doLaneRestore rq s).Canonical := .guard h (.done h.setLane)

theorem execLaneStatus_canonical {v x} : Outcome.Canonical (execLaneStatus v x s) :=
  .next (h.request (fun _ _ ht => doLaneStatus_canonical ht))

theorem execLaneRetire_canonical {v x} : Outcome.Canonical (execLaneRetire v x s) :=
  .next (h.request (fun _ _ ht => doLaneRetire_canonical ht))

theorem execLaneRestore_canonical {v x} : Outcome.Canonical (execLaneRestore v x s) :=
  .next (h.request (fun _ _ ht => doLaneRestore_canonical ht))

theorem execLaneDrained_canonical {i} : Outcome.Canonical (execLaneDrained i s) :=
  .next (.ite h.laneRetired.noteCause.schedule.answerRetire h)

theorem execLaneTestComplete_canonical {i pass} : Outcome.Canonical (execLaneTestComplete i pass s) :=
  .next (.ite h (.ite h.setLane h.laneFault))

theorem execProbationComparison_canonical {i clean} : Outcome.Canonical (execProbationComparison i clean s) :=
  .next (.ite h (.ite (.ite h.setLane.event.fireLane.schedule h.setLane) h.setLane.event.retireNow))

theorem execProbationIdleFeed_canonical {i} : Outcome.Canonical (execProbationIdleFeed i s) := .next (.ite h.setLane h)

theorem execDomainIdleGate_canonical {d} : Outcome.Canonical (execDomainIdleGate d s) :=
  .next (.ite (.ite h.setLane h) (.ite h.update h))

/-! ### The event record -/

theorem doLogRead_canonical {rq} : (doLogRead rq s).Canonical := .guard h (.done h)

theorem doLogHead_canonical {rq} : (doLogHead rq s).Canonical := .guard h (State.statement_canonical h)

theorem doLogClear_canonical {rq} : (doLogClear rq s).Canonical := .guard h (.ite (.done h) (.done h.mapEvr.event))

theorem execLogRead_canonical {v x} : Outcome.Canonical (execLogRead v x s) :=
  .next (h.request (fun _ _ ht => doLogRead_canonical ht))

theorem execLogHead_canonical {v x} : Outcome.Canonical (execLogHead v x s) :=
  .next (h.request (fun _ _ ht => doLogHead_canonical ht))

theorem execLogClear_canonical {v x} : Outcome.Canonical (execLogClear v x s) :=
  .next (h.request (fun _ _ ht => doLogClear_canonical ht))

theorem State.Canonical.flushOne {written} : (s.flushOne written).Canonical := by
  unfold State.flushOne
  split
  exacts [h, .ite h.mapEvr h]

theorem State.Canonical.breakEntry {seq b} : (s.breakEntry seq b).Canonical := .ite h.mapEvr.mapEvr.event h.mapEvr

theorem execStagingFlush_canonical {written lost} : Outcome.Canonical (execStagingFlush written lost s) :=
  .next (by split; exacts [h.flushOne, h.flushOne.breakEntry])

/-! ### Power, self-tests, firmware -/

theorem State.Canonical.haltModule : s.haltModule.Canonical := h.mapPow

theorem State.Canonical.failPort {p} : (s.failPort p).Canonical := h.setVp.event.evaluate

theorem State.Canonical.testConsequence {f} : (s.testConsequence f).Canonical :=
  .ite (.ite h.mapPow h.mapPow.haltModule) (.ite h.haltModule.fireSource (.ite h.haltModule
    (.ite h.assertSource (.ite (.ite h.laneFault h) (.ite h.fireSource (.ite h.failPort (.ite h.frontEndFault
      (.ite h.setSerial.mapCus h))))))))

theorem State.Canonical.testFails {origin f} : (State.testFails origin s f).Canonical := h.event.testConsequence

theorem State.Canonical.runTests {origin fails} : (s.runTests origin fails).Canonical :=
  .evaluate (.mapPow (h.foldl (fun _ _ ht => ht.testFails)))

theorem doSysSelftest_canonical {fails rq} : (doSysSelftest fails rq s).Canonical := .guard h (.done h.runTests)

theorem doSysInfo_canonical {rq} : (doSysInfo rq s).Canonical := .guard h (.done h)

theorem doSysReset_canonical {rq} : (doSysReset rq s).Canonical := .guard h (.done h.mapPow)

theorem State.Canonical.loadEvent {origin b detail} : (s.loadEvent origin b detail).Canonical := h.event

theorem State.Canonical.dropOther : s.dropOther.Canonical := h.mapPow

theorem State.Canonical.takeImage {b} : (s.takeImage b).Canonical := h.mapPow

theorem loadImage_canonical {rq b} : (loadImage rq b s).Canonical := by
  dsimp only [loadImage]
  split
  exacts [.refuse h.dropOther.loadEvent, .twice h.dropOther (fun _ ht => .done ht.takeImage.loadEvent)]

theorem doFwLoad_canonical {rq} : (doFwLoad rq s).Canonical := by
  unfold doFwLoad
  split
  · exact .refuse h.dropOther
  · split
    exacts [loadImage_canonical h.didInput, .park h, .refuse h.dropOther.dmaEvent]

theorem doFwActivate_canonical {rq} : (doFwActivate rq s).Canonical := .guard h (.done h.mapPow)

theorem doFwStatus_canonical {rq} : (doFwStatus rq s).Canonical := .guard h (.done h)

theorem switchLane_canonical {rq d on} : (switchLane rq d on s).Canonical :=
  .ite (.done h) (.ite (.park h) (.ite (.refuse h) (.park h.beginRetire)))

theorem doPowerDomain_canonical {rq} : (doPowerDomain rq s).Canonical :=
  .guard h (.ite (switchLoops_canonical h) (switchLane_canonical h))

theorem execSysInfo_canonical {v x} : Outcome.Canonical (execSysInfo v x s) :=
  .next (h.request (fun _ _ ht => doSysInfo_canonical ht))

theorem execSysSelftest_canonical {v x fails} : Outcome.Canonical (execSysSelftest v x fails s) :=
  .next (h.request (fun _ _ ht => doSysSelftest_canonical ht))

theorem execSysReset_canonical {v x} : Outcome.Canonical (execSysReset v x s) :=
  .next (h.request (fun _ _ ht => doSysReset_canonical ht))

theorem execFwLoad_canonical {v x} : Outcome.Canonical (execFwLoad v x s) :=
  .next (h.request (fun _ _ ht => doFwLoad_canonical ht))

theorem execFwActivate_canonical {v x} : Outcome.Canonical (execFwActivate v x s) :=
  .next (h.request (fun _ _ ht => doFwActivate_canonical ht))

theorem execFwStatus_canonical {v x} : Outcome.Canonical (execFwStatus v x s) :=
  .next (h.request (fun _ _ ht => doFwStatus_canonical ht))

theorem execPowerDomain_canonical {v x} : Outcome.Canonical (execPowerDomain v x s) :=
  .next (h.request (fun _ _ ht => doPowerDomain_canonical ht))

theorem State.Canonical.domainEvent {origin d on} : (s.domainEvent origin d on).Canonical := h.event.fire.noteCause

theorem State.Canonical.endSwitch {d on} : (s.endSwitch d on).Canonical := h.finish (fun _ _ ht => .done ht)

theorem State.Canonical.offLane {d origin} : (s.offLane d origin).Canonical :=
  .ite h.endSwitch (by
    split
    · exact h.setLane.domainEvent.endSwitch
    · exact h.laneRetired.setLane.domainEvent.endSwitch
    · exact h.laneRetired.setLane.domainEvent.endSwitch
    · exact .ite (h.finish (fun _ _ ht => .refuse ht)) h.beginRetire
    · exact h)

theorem State.Canonical.offLoops {origin} : (s.offLoops origin).Canonical :=
  .ite h.endSwitch (.ite h h.mapPow.abandonWindows.mapLoops.domainEvent.endSwitch)

theorem execDomainSwitchOffComplete_canonical {d} : Outcome.Canonical (execDomainSwitchOffComplete d s) :=
  .next (by split; exacts [h, .ite h (.ite h.offLoops h.offLane)])

theorem State.Canonical.powerLane {d origin powered} : (s.powerLane d origin powered).Canonical :=
  .ite h.endSwitch (.ite h.setLane.domainEvent.endSwitch (h.event.noteCause.finish (fun _ _ ht => .refuse ht)))

theorem State.Canonical.powerLoops {origin powered} : (s.powerLoops origin powered).Canonical :=
  .ite h.endSwitch (.scanLoops (.endSwitch (.ite h.mapPow.domainEvent h.mapPow.domainEvent.frontEndFault)))

theorem execDomainSwitchOnComplete_canonical {d powered} : Outcome.Canonical (execDomainSwitchOnComplete d powered s) :=
  .next (by split; exacts [h, .ite h (.ite h.powerLoops h.powerLane)])

/-! ### Registers -/

theorem State.Canonical.writeRing {o off v} : (s.writeRing o off v).Canonical :=
  .ite h.hostCtx (.ite h.ringCfg (.ite h.hostCtx (.ite h.hostCtx (.ite h.ringCfg (.ite h.hostCtx h)))))

theorem State.Canonical.writeDpm {n off v} : (s.writeDpm n off v).Canonical :=
  .ite h.writeDpmCtrl (.ite h (.ite h.setDpm (.ite h.setDpm (.ite h.setDpm h))))

theorem State.Canonical.writeMsix {off v} : (s.writeMsix off v).Canonical :=
  .ite (h.setHp h.dpm (by dsimp only; exact Tbl.wf_put _ _ h.vectors)) (.ite
    (.ite (h.setHp h.dpm (by dsimp only; exact Tbl.wf_put _ _ h.vectors)) (.mapHp (h.setHp h.dpm
      (by dsimp only; exact Tbl.wf_put _ _ h.vectors))))
    (.unmask (h.setHp h.dpm (by dsimp only; exact Tbl.wf_put _ _ h.vectors))))

theorem State.Canonical.write0 {off v} : (s.write0 off v).Canonical :=
  .ite h.setCtx (.ite h.setCtx (.ite h.mapHp (.ite h.writeEvent (.ite h.writeRing (.ite h.writeDpm
    (.ite h.setLoop (.ite h.mapTam (.ite h.mapEvr (.ite h.mapEvr (.ite h.writeMsix h))))))))))

theorem State.Canonical.writePage {n off v} : (s.writePage n off v).Canonical :=
  .ite h.writeRing (.ite h.setCtx (.ite h.setCtx h))

theorem State.Canonical.misaccess {i} : (s.misaccess i).Canonical := h.setCtx

theorem State.Canonical.write2 {off size v} : (s.write2 off size v).Canonical :=
  .ite h.setCtx (.ite h.writePage (.ite h.misaccess h))

theorem execRegisterWrite_canonical {bar off size v} : Outcome.Canonical (execRegisterWrite bar off size v s) :=
  .next (.ite h (.ite (.ite h.write0 (.ite h.misaccess h)) (.ite h.write2 h)))

/-! ### Resets and power -/

theorem State.Canonical.activateEvent {old new} : (s.activateEvent old new).Canonical := h.event

theorem State.Canonical.dropPending : s.dropPending.Canonical := h.mapPow.activateEvent

theorem State.Canonical.boot {bad} : (s.boot bad).Canonical :=
  .ite (.mapPow (.ite (.mapPow (.ite h.mapPow h)) (.ite h.mapPow h))) (.ite
    (.mapPow (.ite (.dropPending (.ite (.mapPow (.ite h.mapPow h)) (.ite h.mapPow h))) (.ite (.mapPow (.ite h.mapPow h))
      (.ite h.mapPow h))))
    (.haltModule (.ite (.dropPending (.ite (.mapPow (.ite h.mapPow h)) (.ite h.mapPow h))) (.ite (.mapPow (.ite h.mapPow h))
      (.ite h.mapPow h)))))

theorem State.Canonical.start {fails} : (s.start fails).Canonical :=
  .runTests (.mapPow (.ite (.boot (h.foldl (fun _ _ ht => ht.event))) (.event (.boot (h.foldl (fun _ _ ht => ht.event))))))

theorem State.started_canonical : Outcome.Canonical s.started := .ite .fault (.next h)

theorem State.Canonical.clearDevice : s.clearDevice.Canonical :=
  h.update.endCeremony.zeroEngines.resetLanes.clearHost.clearTable.zeroData.clearSerial.clearLoops.advance.update

theorem execDeviceReset_canonical {cause fails} : Outcome.Canonical (execDeviceReset cause fails s) :=
  .ite (.next h) (State.started_canonical h.clearDevice.mapHp.mapPow.start)

theorem State.Canonical.endResets : s.endResets.Canonical :=
  h.foldl (fun _ _ ht => by split; exacts [ht.resetSlice, ht])

theorem State.Canonical.dropHost : s.dropHost.Canonical := .ite h.update.endExchange h.update

theorem State.Canonical.flrLane {i} : (s.flrLane i).Canonical := by
  dsimp only [State.flrLane]
  split
  · exact h.laneRetired.rehome
  · exact h.setLane
  · exact h.clearLane
  · exact h.clearLane
  · exact h.clearLane

theorem State.Canonical.clearFunction : s.clearFunction.Canonical :=
  .advance (.zeroData (.clearTable (.clearHost (.mapKs (.mapMult (h.endResets.dropHost.foldl (fun _ _ ht => ht.flrLane)))))))

theorem execFunctionLevelReset_canonical {cause} : Outcome.Canonical (execFunctionLevelReset cause s) :=
  .next (.ite h.clearFunction.mapHp.event h)

theorem State.Canonical.copyWindows : s.copyWindows.Canonical :=
  h.foldl (fun _ ⟨_, _⟩ ht => by split; exacts [ht, ht.setChan])

theorem State.Canonical.overflowNow : s.overflowNow.Canonical := .ite h h.mapEvr.event

theorem execShutdownWarning_canonical {n} : Outcome.Canonical (execShutdownWarning n s) :=
  .next (.ite h (.event (.overflowNow (.copyWindows
    (.ite h.tick.mapPow.persist (.ite h.tick.mapPow h.tick.mapPow.persistEpochs))))))

theorem State.Canonical.tearRecord {k copyB} : (s.tearRecord k copyB).Canonical :=
  .ite h.mapKs (by split; exacts [h, h.setSlot])

/-- Working memory emptied. -/
theorem State.Canonical.clearWm {a b bad} : ({ s with vpA := a, vpB := b, wm := ⟨[], bad⟩ } : State).Canonical :=
  { h with cells := rfl }

theorem execMainPowerLost_canonical : Outcome.Canonical (execMainPowerLost s) := by
  refine .next (.ite h (.mapPow (.mapKs (.mapHp (.mapPh (.clearWm (.mapCus ?_)))))))
  exact .clearLoops (.clearTable (.clearHost (.zeroEngines h.update)))

theorem State.Canonical.startPhase {lost} : (s.startPhase lost).Canonical := .ite h.mapPh.event h.mapPh

theorem State.Canonical.startEpochs : s.startEpochs.Canonical := by
  unfold State.startEpochs
  split
  exacts [.advance (h.foldl (fun _ _ ht => ht.setCtx)), .persistEpochs (h.foldl (fun _ _ ht => ht.setCtx.drewBytes))]

theorem State.Canonical.loseSeq {i} : (s.loseSeq i).Canonical := h.setChan

theorem State.Canonical.loseBackup : s.loseBackup.Canonical :=
  .ite (.toLife (.eraseAll (.event (.mapEvr (h.mapPh.mapTam.foldl (fun _ _ ht => ht.loseSeq))))))
    (.dropRoot (.event (.mapEvr (h.mapPh.mapTam.foldl (fun _ _ ht => ht.loseSeq)))))

theorem State.Canonical.flushAll : s.flushAll.Canonical := h.mapEvr

theorem State.Canonical.startKeys : s.startKeys.Canonical := by
  unfold State.startKeys
  exact .mapKs (h.foldl (fun _ ⟨_, _⟩ ht => ht.setSlot))

theorem State.Canonical.startLanes : s.startLanes.Canonical := .update (h.foldl (fun _ _ ht => ht.setLane))

theorem State.Canonical.resample {sources} : (s.resample sources).Canonical := by
  unfold State.resample
  exact h.mapTam

theorem State.Canonical.applyDecom : s.applyDecom.Canonical := .ite h.mapKs.entomb h

theorem execMainPowerUp_canonical {p} : Outcome.Canonical (execMainPowerUp p s) :=
  .ite (.next h) (State.started_canonical (.start (.mapCus (.update (.resample (.restartWindows
    (.startLanes (.startKeys (.startEpochs (.startPhase (.applyDecom (.mapEvr (.flushAll (.ite
      (.foldl (h.tick.mapPow.mapPh.foldl (fun _ ⟨_, _⟩ ht => ht.tearRecord)) (fun _ _ ht => ht.loseSeq))
      (.loseBackup (h.tick.mapPow.mapPh.foldl (fun _ ⟨_, _⟩ ht => ht.tearRecord)))))))))))))))))

theorem State.Canonical.recordQueued {q} : (s.recordQueued q).Canonical := h.event

theorem State.Canonical.applyLatches : s.applyLatches.Canonical := by
  unfold State.applyLatches
  exact .mapTam (.ite (.erase (.ite h.mapTam.alarm h.mapTam)) (.ite (.lockDown (.ite h.mapTam.alarm h.mapTam))
    (.ite h.mapTam.alarm h.mapTam)))

theorem State.Canonical.fireDue : s.fireDue.Canonical := .mapTam (.endDecom (h.mapTam.foldl (fun _ _ ht => ht.fireSource)))

theorem State.Canonical.recordHeld : s.recordHeld.Canonical := h.mapEvr.foldl (fun _ _ ht => ht.event)

theorem State.Canonical.readyUp : s.readyUp.Canonical :=
  .event (.fireDue (.recordHeld (.applyLatches (.endCeremony (h.foldl (fun _ _ ht => ht.recordQueued))))))

theorem State.Canonical.activateFw : s.activateFw.Canonical := by
  unfold State.activateFw
  split
  exacts [h, .ite h.dropPending.mapPow h.mapPow.activateEvent]

theorem execModuleReady_canonical : Outcome.Canonical (execModuleReady s) :=
  .next (by
    split
    exacts [h, .ite h (.scanLoops (.evaluate (.mapPow (.activateFw (.ite h.mapPow.readyUp h.mapPow.event)))))])

/-! ### SEAL and HASH commands -/

theorem State.Canonical.counted {k key alg op} : (s.counted k key alg op).Canonical := .ite h.setSlot h

theorem State.sealIv_canonical {b} : (s.sealIv b).2.Canonical := by
  unfold State.sealIv; dsimp only; split
  · exact h.drewBytes
  · exact h

theorem Act.Canonical.bulk {b} : (Act.bulk s b).Canonical := .park h

theorem doSealOnce_canonical {rq} : (doSealOnce rq s).Canonical :=
  .guard h (.withKey h (fun _ _ ht => .withInput? ht (fun _ _ hu => .withInput? hu (fun _ _ hw => .twice hw
    (fun _ hx => .ite (.refuse (State.sealIv_canonical hx)) (.bulk (.counted (State.sealIv_canonical hx))))))))

theorem doSealInit_canonical {rq} : (doSealInit rq s).Canonical :=
  .guard h (.withKey h (fun _ _ ht => .withInput? ht (fun _ _ hu => .twice hu (fun _ hw => .bulk
    (.setCtx (.counted (State.sealIv_canonical hw)))))))

theorem sealPart_canonical {rq last size k}
    (hk : ∀ a b c (t : State), t.Canonical → (k a b c t).Canonical) : (sealPart rq last size s k).Canonical :=
  .guard h (.ite (.park h) (.guard h (by
    split
    · exact .refuse h
    · exact .guard h (.withKey h (fun _ _ ht => .withInput? ht (fun _ _ hu => .twice hu (fun _ hw => hk _ _ _ _ hw)))))))

theorem doSealUpdate_canonical {rq} : (doSealUpdate rq s).Canonical := sealPart_canonical h (fun _ _ _ _ ht => .bulk ht)

theorem doSealFinal_canonical {rq} : (doSealFinal rq s).Canonical := sealPart_canonical h (fun _ _ _ _ ht => .bulk ht)

theorem doSealAbort_canonical {rq} : (doSealAbort rq s).Canonical := .guard h (.ite (.park h) (.done h.setCtx))

theorem execSealInit_canonical {v x} : Outcome.Canonical (execSealInit v x s) :=
  .next (.schedule (h.request (fun _ _ ht => doSealInit_canonical ht)))

theorem execSealOnce_canonical {v x} : Outcome.Canonical (execSealOnce v x s) :=
  .next (.schedule (h.request (fun _ _ ht => doSealOnce_canonical ht)))

theorem execSealUpdate_canonical {v x} : Outcome.Canonical (execSealUpdate v x s) :=
  .next (.schedule (h.request (fun _ _ ht => doSealUpdate_canonical ht)))

theorem execSealFinal_canonical {v x} : Outcome.Canonical (execSealFinal v x s) :=
  .next (.schedule (h.request (fun _ _ ht => doSealFinal_canonical ht)))

theorem execSealAbort_canonical {v x} : Outcome.Canonical (execSealAbort v x s) :=
  .next (h.request (fun _ _ ht => doSealAbort_canonical ht))

theorem digestAct_canonical {b mismatch value} : (digestAct b mismatch value s).Canonical :=
  .ite (.done h.fireSource) (.ite (.ite (.done h) (.refuse h)) (.done h))

theorem doHashDigest_canonical {mismatch rq} : (doHashDigest mismatch rq s).Canonical :=
  .guard h (.ite (.withInput? h (fun _ _ ht => digestAct_canonical ht)) (.withKey h (fun _ _ ht => .withInput? ht
    (fun _ _ hu => .twice hu (fun _ hw => digestAct_canonical hw)))))

theorem execHashDigest_canonical {v x mismatch} : Outcome.Canonical (execHashDigest v x mismatch s) :=
  .next (h.request (fun _ _ ht => doHashDigest_canonical ht))

theorem State.Canonical.setJob {l j} : (s.setJob l j).Canonical := h.update

theorem State.Canonical.segment {lane mismatch} : (s.segment lane mismatch).Canonical := by
  dsimp only [State.segment]
  split
  · exact h
  · split
    · exact h.endWork
    · split
      · exact .ite
          (.ite
            (.schedule (h.setJob.laneFault.finish (fun _ _ ht => by split; exacts [Bulk.fail_canonical ht, .refuse ht])))
            h.setJob.laneFault)
          (.ite
            (.schedule (h.endWork.finish (fun _ _ ht => by split; exacts [Bulk.finish_canonical ht, .refuse ht])))
            h.endWork.setJob.schedule)
      · exact h

/-! ### Vital ports -/

theorem State.Canonical.closeSession {p} : (s.closeSession p).Canonical := h.update.setVp

theorem doVpOpen_canonical {rq} : (doVpOpen rq s).Canonical :=
  .guard h (.done h.closeSession.drewBytes.drewBytes.setVp.event.fire)

theorem doVpResync_canonical {rq} : (doVpResync rq s).Canonical := .guard h (.done h.setVp.event.fire)

theorem execVpOpen_canonical {v x} : Outcome.Canonical (execVpOpen v x s) :=
  .next (h.request (fun _ _ ht => doVpOpen_canonical ht))

theorem execVpResync_canonical {v x} : Outcome.Canonical (execVpResync v x s) :=
  .next (h.request (fun _ _ ht => doVpResync_canonical ht))

theorem State.Canonical.poll {p slot index alive} : (s.poll p slot index alive).Canonical :=
  .ite h.setVp.setVp h.setVp.answerFrame

theorem doVpPoll_canonical {rq} : (doVpPoll rq s).Canonical := .guard h (.done h)

omit h in
theorem State.Canonical.answerPoll {p bad rq alive} {a : Act} (ha : a.Canonical) :
    (Machine.answerPoll p bad rq alive a).Canonical := by
  unfold Machine.answerPoll; split
  · exact .poll (State.Canonical.spoil ha)
  · exact State.Canonical.refuseFrame ha
  · exact ha

theorem execVpPoll_canonical {v x} : Outcome.Canonical (execVpPoll v x s) := by
  refine .next ?_
  cases v with
  | vital p f =>
    exact .ite (h.frame fun _ ht => ht.serveRequest (fun _ _ hu => doVpPoll_canonical hu) fun _ _ _ ha => .answerPoll ha) h
  | ring o => exact h.request fun _ _ ht => doVpPoll_canonical ht
  | push n w p => exact h.request fun _ _ ht => doVpPoll_canonical ht
  | console => exact h.request fun _ _ ht => doVpPoll_canonical ht

theorem execHeldPollResponse_canonical {c} : Outcome.Canonical (execHeldPollResponse c s) :=
  .next (by split; exacts [h, .ite h h.spoil.setVp.answerFrame])

theorem State.Canonical.serveIdle {p f} : (s.serveIdle p f).Canonical := by
  dsimp only [State.serveIdle]
  split
  · exact h.refuseFrame
  · split
    exacts [h.setVp.answerFrame, h.answerFrame]

theorem execIdleFrame_canonical {p f} : Outcome.Canonical (execIdleFrame p f s) :=
  .next (.ite (h.frame (fun _ ht => ht.serveIdle)) h)

theorem State.Canonical.serveFetch {p f} : (s.serveFetch p f).Canonical :=
  .ite h.refuseFrame (by
    split
    · exact h.refuseFrame
    · split
      · exact h.refuseFrame
      · split
        exacts [h.refuseFrame, .ite h.refuseFrame h.answerFrame])

theorem execFetch_canonical {p f} : Outcome.Canonical (execFetch p f s) := .next (.ite (h.frame (fun _ ht => ht.serveFetch)) h)

theorem lateReply_canonical {l} : (lateReply l s).Canonical := by
  unfold lateReply
  split
  exacts [.ite (.done h) (.done h), .park h]

theorem execPendingReplyReady_canonical {p} : Outcome.Canonical (execPendingReplyReady p s) :=
  .next (h.finish (fun _ _ ht => lateReply_canonical ht))

theorem execVpFrameUnstarted_canonical {p} : Outcome.Canonical (execVpFrameUnstarted p s) := .next (.ite h h.unstarted)

theorem execSelNLowTimeout_canonical {f} : Outcome.Canonical (execSelNLowTimeout f s) :=
  .next (.ite h.startFrame.ignoreFrame h.unstarted)

theorem execVioLow_canonical {p} : Outcome.Canonical (execVioLow p s) := .next h.setVp

theorem execVioRestored_canonical {p} : Outcome.Canonical (execVioRestored p s) := .next h.setVp

/-! ### Requests that waited, completions -/

theorem handle_canonical {rq} : (handle rq s).Canonical := by
  unfold handle
  split
  · exact doSysInfo_canonical h
  · exact doSysSelftest_canonical h
  · exact doSysReset_canonical h
  · exact doStampRead_canonical h
  · exact doStampReport_canonical h
  · exact doSliceCreate_canonical h
  · exact doSliceBind_canonical h
  · exact doSliceQuota_canonical h
  · exact doSliceQuiesce_canonical h
  · exact doSliceResume_canonical h
  · exact doSliceReset_canonical h
  · exact doSliceRemove_canonical h
  · exact doSliceStatus_canonical h
  · exact doSliceEmigrate_canonical h
  · exact doSliceImmigrate_canonical h
  · exact doSliceReceipt_canonical h
  · exact doSliceRefuse_canonical h
  · exact doChannelInvalidate_canonical h
  · exact doChannelStatus_canonical h
  · exact .ite (doFieldLoad_canonical h) (doFieldCommand_canonical h)
  · exact doKeyGen_canonical h
  · exact doKeyImport_canonical h
  · exact doKeyWrap_canonical h
  · exact doKeyUnwrap_canonical h
  · exact doKeyDerive_canonical h
  · exact doKeyDestroy_canonical h
  · exact doKeyAttr_canonical h
  · exact doSealOnce_canonical h
  · exact doSealInit_canonical h
  · exact doSealUpdate_canonical h
  · exact doSealFinal_canonical h
  · exact doSealAbort_canonical h
  · exact doHashDigest_canonical h
  · exact doBn_canonical h
  · exact doBn_canonical h
  · exact doBn_canonical h
  · exact doBn_canonical h
  · exact doBn_canonical h
  · exact doPkSign_canonical h
  · exact doPkVerify_canonical h
  · exact doPkAgree_canonical h
  · exact doPkEncrypt_canonical h
  · exact doPkDecrypt_canonical h
  · exact doPkLoadCurve_canonical h
  · exact doRngDraw_canonical h
  · exact doLaneRetire_canonical h
  · exact doLaneRestore_canonical h
  · exact doLaneStatus_canonical h
  · exact doLoopRead_canonical h
  · exact doLoopReport_canonical h
  · exact doLoopHart_canonical h
  · exact doLoopAssign_canonical h
  · exact doLoopPower_canonical h
  · exact doLogRead_canonical h
  · exact doLogHead_canonical h
  · exact doLogClear_canonical h
  · exact doAttestDevice_canonical h
  · exact doAttestKey_canonical h
  · exact doCeremonyStart_canonical h
  · exact doCeremonyStep_canonical h
  · exact doCeremonyCancel_canonical h
  · exact doCeremonyStatus_canonical h
  · exact doPeerPair_canonical h
  · exact doPeerUnpair_canonical h
  · exact doPeerStatus_canonical h
  · exact doFwLoad_canonical h
  · exact doFwActivate_canonical h
  · exact doFwStatus_canonical h
  · exact doTamperStatus_canonical h
  · exact doTamperConfig_canonical h
  · exact doPowerDomain_canonical h
  · exact doVpOpen_canonical h
  · exact doVpPoll_canonical h
  · exact doVpResync_canonical h

theorem State.Canonical.putBack {at' l} : (s.putBack at' l).Canonical := h.update

theorem State.Canonical.retry {l} : (s.retry l).Canonical := by
  unfold State.retry; split
  · refine .ite h ?_
    have ha := handle_canonical (rq := l.rq) (s := { s with live := s.live.erase l }) h.update
    split
    · next e => rw [e] at ha; exact .complete (State.Canonical.closePart ha)
    · next e => rw [e] at ha; exact State.Canonical.putBack ha
  · exact h

theorem State.Canonical.pump : s.pump.Canonical := .schedule (h.foldl (fun _ _ ht => ht.retry))

theorem State.Canonical.idle : s.idle.Canonical := h.pump.nextPhi.rdyRises

theorem State.Canonical.endAll {p st detail} : (s.endAll p st detail).Canonical :=
  h.foldl (fun _ _ ht => ht.update.closePart.complete)

theorem State.Canonical.suspend {ch origin cached fetched} : (s.suspend ch origin cached fetched).Canonical :=
  h.update.setChan.event.windfallAll

theorem State.Canonical.entryFails {ch origin completion} : (s.entryFails ch origin completion).Canonical :=
  h.dmaEvent.noteCause.endAll

theorem State.Canonical.entryComes {ch origin e} : (s.entryComes ch origin e).Canonical :=
  .ite h.endAll (.ite h.suspend.noteCause h.cacheEntry)

theorem State.Canonical.readEntry {ch} : (s.readEntry ch).Canonical := h.dmaRead

theorem State.Canonical.entryFetch {ch got} : (s.entryFetch ch got).Canonical := by
  unfold State.entryFetch
  split
  · exact h
  · exact .ite h (by
      split
      exacts [h.entryFails.pump, h.readEntry.entryFails.pump, h.readEntry.entryComes.pump])

theorem execBindingEntryFetch_canonical {ch bytes} : Outcome.Canonical (execBindingEntryFetch ch bytes s) := .next h.entryFetch

theorem State.Canonical.audit {ch e d} : (s.audit ch e d).Canonical := by
  unfold State.audit
  split
  exacts [h.dmaEvent.suspend, h.readEntry.dmaEvent.suspend, .ite h.readEntry h.readEntry.suspend]

theorem execAuditSweep_canonical {reads} : Outcome.Canonical (execAuditSweep reads s) :=
  .next (.ite h (.pump (h.mapPh.foldl (fun _ ⟨_, _⟩ ht => ht.audit))))

theorem execChannelInvalidateComplete_canonical : Outcome.Canonical (execChannelInvalidateComplete s) :=
  .next h.endInvalidate.pump

theorem execFirstDecision_canonical {ch seq e} : Outcome.Canonical (execFirstDecision ch seq e s) := .next h.firstDecision.pump

theorem execInSequenceCommit_canonical {ch seq} : Outcome.Canonical (execInSequenceCommit ch seq s) := .next h.commit.pump

theorem execSecondDecision_canonical {ch seq e} : Outcome.Canonical (execSecondDecision ch seq e s) :=
  .next h.secondDecision.pump

theorem State.Canonical.keyComes {k} : (s.keyComes k).Canonical := .pump h.loadCache

theorem execKeyCacheLoad_canonical {k okA okB} : Outcome.Canonical (execKeyCacheLoad k okA okB s) :=
  .next (.ite h (by
    split
    exacts [h.pump, .ite h.keyComes (.ite h.loseKey.pump h.loseKey.endAll.pump)]))

theorem execSegmentComplete_canonical {lane mismatch} : Outcome.Canonical (execSegmentComplete lane mismatch s) :=
  .next h.segment.pump

theorem execModularMultiplicationBoundary_canonical {last fault} :
    Outcome.Canonical (execModularMultiplicationBoundary last fault s) :=
  .next h.boundary.pump

theorem execCardApduResponse_canonical {card data sw split fuseFails} :
    Outcome.Canonical (execCardApduResponse card data sw split fuseFails s) :=
  .next (.ite h.badBlock.pump (.ite h.emptyQueue.cardGone.pump h.emptyQueue.goodBlock.cardResponse.pump))

theorem execAtrTimeout_canonical {card atr} : Outcome.Canonical (execAtrTimeout card atr s) := .next h.atrLate.pump

theorem execCardRemoved_canonical {card} : Outcome.Canonical (execCardRemoved card s) := .next h.cardGone.pump

theorem execCardOvercurrent_canonical {card} : Outcome.Canonical (execCardOvercurrent card s) := .next h.cardTrip.pump

theorem execCeremonyCancel_canonical {v x} : Outcome.Canonical (execCeremonyCancel v x s) :=
  .next (.pump (h.request (fun _ _ ht => doCeremonyCancel_canonical ht)))

theorem execCeremonyWindowExpiry_canonical : Outcome.Canonical (execCeremonyWindowExpiry s) :=
  .next (.ite h.failStep.endCeremony.pump h)

theorem execCeremonyOpenTimeout_canonical : Outcome.Canonical (execCeremonyOpenTimeout s) :=
  .next (.ite h.failStep.endCeremony.pump h)

theorem execReceivedCharacter_canonical {q start rest} : Outcome.Canonical (execReceivedCharacter q start rest s) :=
  .next (.ite h (.ite h.setSerial.emit h.setSerial))

theorem State.Canonical.endWrite {n completion} : (s.endWrite n completion).Canonical := by
  dsimp only [State.endWrite]
  split
  · exact h
  · exact .drain (by split; exacts [h.setCtx, h.setCtx.dmaEvent])

theorem execPendingWriteComplete_canonical {n e} : Outcome.Canonical (execPendingWriteComplete n e s) :=
  .next (.ite h.endWrite.pump h)

theorem State.Canonical.failWritesOf {i} : (s.failWritesOf i).Canonical := h.setCtx.times (fun _ ht => ht.dmaEvent)

theorem State.Canonical.failWrites : s.failWrites.Canonical := h.foldl (fun _ _ ht => ht.failWritesOf)

theorem State.Canonical.failEntries : s.failEntries.Canonical :=
  h.foldl (fun _ _ ht => by split; exacts [ht, ht.entryFails])

theorem execLinkLoss_canonical : Outcome.Canonical (execLinkLoss s) := .next (.ite h.mapHp.event.failWrites.failEntries.pump h)

theorem execPowerStateChange_canonical {d3hot} : Outcome.Canonical (execPowerStateChange d3hot s) :=
  .next (.ite (.ite h.mapHp h.mapHp.drainAll.sendPending.pump) h)

theorem execDmaReadFailure_canonical {k e} : Outcome.Canonical (execDmaReadFailure k e s) :=
  .next (by
    split
    · exact .ite h.haltRing h
    · exact h.ringFetch
    · exact h.request (fun _ _ ht => handle_canonical ht)
    · exact h.entryFetch
    · exact .ite (by split; exacts [h, h.flushWord]) h)

/-! ### Every command -/

theorem exec_canonical {i} : Outcome.Canonical (exec i s) := by
  unfold exec
  split
  · exact execSysInfo_canonical h
  · exact execSysSelftest_canonical h
  · exact execSysReset_canonical h
  · exact execStampRead_canonical h
  · exact execStampReport_canonical h
  · exact execSliceCreate_canonical h
  · exact execSliceBind_canonical h
  · exact execSliceQuota_canonical h
  · exact execSliceQuiesce_canonical h
  · exact execQuiesceComplete_canonical h
  · exact execSliceResume_canonical h
  · exact execSliceReset_canonical h
  · exact execSliceResetComplete_canonical h
  · exact execSliceRemove_canonical h
  · exact execSliceStatus_canonical h
  · exact execSliceEmigrate_canonical h
  · exact execSliceImmigrate_canonical h
  · exact execSliceReceipt_canonical h
  · exact execSliceRefuse_canonical h
  · exact execChannelInvalidate_canonical h
  · exact execChannelInvalidateComplete_canonical h
  · exact execChannelStatus_canonical h
  · exact execFieldCommand_canonical h
  · exact execFieldCommandLoad_canonical h
  · exact execBindingEntryFetch_canonical h
  · exact execFirstDecision_canonical h
  · exact execInSequenceCommit_canonical h
  · exact execSecondDecision_canonical h
  · exact execKeyGen_canonical h
  · exact execKeyImport_canonical h
  · exact execKeyWrap_canonical h
  · exact execKeyUnwrap_canonical h
  · exact execKeyDerive_canonical h
  · exact execKeyDestroy_canonical h
  · exact execKeyDestroyComplete_canonical h
  · exact execKeyAttr_canonical h
  · exact execKeyCacheLoad_canonical h
  · exact execSealOnce_canonical h
  · exact execSealInit_canonical h
  · exact execSealUpdate_canonical h
  · exact execSealFinal_canonical h
  · exact execSealAbort_canonical h
  · exact execHashDigest_canonical h
  · exact execSegmentComplete_canonical h
  · exact execBnMac_canonical h
  · exact execBnMul_canonical h
  · exact execBnModmul_canonical h
  · exact execBnModinv_canonical h
  · exact execBnModexp_canonical h
  · exact execPkSign_canonical h
  · exact execPkVerify_canonical h
  · exact execPkAgree_canonical h
  · exact execPkEncrypt_canonical h
  · exact execPkDecrypt_canonical h
  · exact execPkLoadCurve_canonical h
  · exact execBottomTreeBuilt_canonical h
  · exact execRngDraw_canonical h
  · exact execDrbgReseed_canonical h
  · exact execEntropyTestFailure_canonical h
  · exact execLaneRetire_canonical h
  · exact execLaneDrained_canonical h
  · exact execLaneRestore_canonical h
  · exact execLaneTestComplete_canonical h
  · exact execProbationComparison_canonical h
  · exact execProbationIdleFeed_canonical h
  · exact execLaneStatus_canonical h
  · exact execDomainIdleGate_canonical h
  · exact execLoopRead_canonical h
  · exact execLoopReport_canonical h
  · exact execLoopHart_canonical h
  · exact execLoopAssign_canonical h
  · exact execLoopPower_canonical h
  · exact execLoopWindowEnd_canonical h
  · exact execHartTransaction_canonical h
  · exact execHartBurstFrame_canonical h
  · exact execLoopSupplyLimit_canonical h
  · exact execLoopFrontEndFault_canonical h
  · exact execLogRead_canonical h
  · exact execLogHead_canonical h
  · exact execLogClear_canonical h
  · exact execStagingFlush_canonical h
  · exact execAttestDevice_canonical h
  · exact execAttestKey_canonical h
  · exact execCeremonyStart_canonical h
  · exact execCeremonyStep_canonical h
  · exact execCardApduResponse_canonical h
  · exact execAtrTimeout_canonical h
  · exact execCardRemoved_canonical h
  · exact execCardOvercurrent_canonical h
  · exact execCeremonyCancel_canonical h
  · exact execCeremonyStatus_canonical h
  · exact execCeremonyWindowExpiry_canonical h
  · exact execCeremonyOpenTimeout_canonical h
  · exact execPeerPairOffer_canonical h
  · exact execPeerPairAcceptance_canonical h
  · exact execPeerPairStep3_canonical h
  · exact execPeerUnpair_canonical h
  · exact execPeerStatus_canonical h
  · exact execFwLoad_canonical h
  · exact execFwActivate_canonical h
  · exact execFwStatus_canonical h
  · exact execTamperStatus_canonical h
  · exact execTamperConfig_canonical h
  · exact execSourceFires_canonical h
  · exact execCommandProcessorRestart_canonical h
  · exact execPowerDomain_canonical h
  · exact execDomainSwitchOffComplete_canonical h
  · exact execDomainSwitchOnComplete_canonical h
  · exact execVpOpen_canonical h
  · exact execVpPoll_canonical h
  · exact execHeldPollResponse_canonical h
  · exact execVpResync_canonical h
  · exact execIdleFrame_canonical h
  · exact execFetch_canonical h
  · exact execPendingReplyReady_canonical h
  · exact execVpFrameUnstarted_canonical h
  · exact execVioLow_canonical h
  · exact execMainsCycleEnd_canonical h
  · exact execCrossingMissing_canonical h
  · exact execAcquireTimeout_canonical h
  · exact execStampIncrement_canonical h
  · exact execPeriodicPersistence_canonical h
  · exact execSlotOpen_canonical h
  · exact execAuditSweep_canonical h
  · exact execKeySweeperVisit_canonical h
  · exact execSqTail_canonical h
  · exact execRingEntryFetch_canonical h
  · exact execCqHead_canonical h
  · exact execReplyEntryWrite_canonical h
  · exact execSqCfg_canonical h
  · exact execMgrEvent_canonical h
  · exact execDpmEnable_canonical h
  · exact execDpmSwap_canonical h
  · exact execDpmSwapDone_canonical h
  · exact execMsixUnmask_canonical h
  · exact execRegisterWrite_canonical h
  · exact execPowerStateChange_canonical h
  · exact execDmaReadFailure_canonical h
  · exact execPendingWriteComplete_canonical h
  · exact execLinkLoss_canonical h
  · exact execHostLinkUp_canonical h
  · exact execFunctionLevelReset_canonical h
  · exact execDeviceReset_canonical h
  · exact execMainPowerUp_canonical h
  · exact execModuleReady_canonical h
  · exact execShutdownWarning_canonical h
  · exact execMainPowerLost_canonical h
  · exact execSourceClears_canonical h
  · exact execVioRestored_canonical h
  · exact execSelNLowTimeout_canonical h
  · exact execModularMultiplicationBoundary_canonical h
  · exact execReceivedCharacter_canonical h

/-! ### One step -/

theorem step_canonical : Outcome.Canonical (step s) := by
  unfold step
  split
  exacts [.next h.idle, exec_canonical h.update]

end

/-- Settles O4: a step of a state in canonical form answers a state in canonical form, by one lemma for each operation of the
model. -/
theorem everyStepKeepsTheTablesCanonical : Obligations.EveryStepKeepsTheTablesCanonical := by
  intro s t h e
  have hs := step_canonical h
  rwa [e] at hs

/-- Settles O3: the tables of the reset state are closed terms. -/
theorem resetIsCanonical : Obligations.ResetIsCanonical := by
  constructor <;> decide

/-- Settles O1: by the two branches of step. -/
theorem stepRunsTheFrontCommand : Obligations.StepRunsTheFrontCommand := by
  refine ⟨fun c r s => rfl, fun s h => ?_⟩
  simp [step, h]

end Sys2Proof.Machine
end

section
/-! PROOFS. The steps of the multiplier read as numbers, column by column. -/

namespace Sys2Proof.Machine

set_option Elab.async false

/-- Columns weighted by their places from `k` on give the number they hold, `k` places up. -/
theorem accNum_weighted (c : List (BitVec 96)) (k : Nat) :
    ((c.zipIdx k).map (fun e => e.1.toNat * 2 ^ (40 * e.2))).sum = 2 ^ (40 * k) * accNum c := by
  induction c generalizing k with
  | nil => rfl
  | cons w c ih => rw [List.zipIdx_cons, List.map_cons, List.sum_cons, ih, accNum_cons]; ring

theorem numOf_weighted (b : List Word) (k : Nat) :
    ((b.zipIdx k).map (fun e => e.1.toNat * 2 ^ (40 * e.2))).sum = 2 ^ (40 * k) * numOf b := by
  induction b generalizing k with
  | nil => rfl
  | cons w b ih => rw [List.zipIdx_cons, List.map_cons, List.sum_cons, ih, numOf_cons]; ring

theorem mac_column (c : BitVec 96) (a w : Word) (h : c.toNat + a.toNat * w.toNat < 2 ^ 96) :
    (c + a.setWidth 96 * w.setWidth 96).toNat = c.toNat + a.toNat * w.toNat := by
  have ha : a.toNat % 2 ^ 96 = a.toNat := Nat.mod_eq_of_lt (by omega)
  have hw : w.toNat % 2 ^ 96 = w.toNat := Nat.mod_eq_of_lt (by omega)
  rw [BitVec.toNat_add, BitVec.toNat_mul, BitVec.toNat_setWidth, BitVec.toNat_setWidth, ha, hw]
  omega

/-- MAC over the columns from place `k` on: those that still have a word of `b` take its product. -/
theorem mac_from (a : Word) (b : List Word) (acc : List (BitVec 96)) (k : Nat)
    (h : ∀ j, k + j < b.length → (acc.getD j 0).toNat + a.toNat * (b.getD (k + j) 0).toNat < 2 ^ 96) :
    accNum ((acc.zipIdx k).map
      (fun (c, j) => if j < b.length then c + a.setWidth 96 * (b.getD j 0#40).setWidth 96 else c))
      = accNum acc + a.toNat * numOf ((b.drop k).take acc.length) := by
  induction acc generalizing k with
  | nil => simp
  | cons c acc ih =>
    have htail : ∀ j, k + 1 + j < b.length → (acc.getD j 0).toNat + a.toNat * (b.getD (k + 1 + j) 0).toNat < 2 ^ 96 :=
      fun j hj => by
        have := h (j + 1) (by omega)
        rwa [List.getD_cons_succ, show k + (j + 1) = k + 1 + j by omega] at this
    simp only [List.zipIdx_cons, List.map_cons, accNum_cons, ih (k + 1) htail, List.length_cons]
    by_cases hk : k < b.length
    · have hs : b.drop k = b.getD k 0#40 :: b.drop (k + 1) := by
        rw [List.drop_eq_getElem_cons hk, List.getD_eq_getElem?_getD, List.getElem?_eq_getElem hk]; rfl
      rw [if_pos hk, mac_column c a (b.getD k 0#40) (h 0 hk), hs, List.take_succ_cons, numOf_cons]; ring
    · rw [if_neg hk, List.drop_eq_nil_of_le (by omega), List.drop_eq_nil_of_le (by omega)]; simp

/-- The columns after SHIFT: the carry of the lowest goes into the next, and a clear column comes in on top. -/
theorem Mult.shift_acc {m : Mult} {c0 c1 : BitVec 96} {r : List (BitVec 96)} (hm : m.acc = c0 :: c1 :: r)
    (hr : r.length = 14) : m.shift.2.acc = (c1 + c0 >>> (40 : Nat)) :: (r ++ [0#96]) := by
  have hg : (List.range 14).map (fun j => m.acc.getD (j + 2) 0#96) = r := by
    refine List.ext_getElem (by simp [hr]) fun i h1 h2 => ?_
    simp [hm, h2]
  show (m.acc.getD 1 0#96 + m.acc.getD 0 0#96 >>> (40 : Nat)) ::
    ((List.range 14).map (fun j => m.acc.getD (j + 2) 0#96) ++ [0#96]) = _
  rw [hg, hm]; rfl

/-- SHIFT takes the low word out of the value, as long as the second column takes the carry. -/
theorem Mult.shift_number {m : Mult} (hl : m.acc.length = 16)
    (h : (m.acc.getD 1 0).toNat + (m.acc.getD 0 0).toNat / 2 ^ 40 < 2 ^ 96) :
    accNum m.acc = 2 ^ 40 * accNum m.shift.2.acc + m.shift.1.toNat ∧ m.shift.2.acc.length = 16 := by
  obtain ⟨c0, c1, r, hm⟩ : ∃ c0 c1 r, m.acc = c0 :: c1 :: r := by
    match hq : m.acc, hl with
    | c0 :: c1 :: r, _ => exact ⟨c0, c1, r, rfl⟩
  have hr : r.length = 14 := by rw [hm] at hl; simpa using hl
  have hcarry : c1.toNat + c0.toNat / 2 ^ 40 < 2 ^ 96 := by rw [hm] at h; exact h
  have e : (c1 + c0 >>> (40 : Nat)).toNat = c1.toNat + c0.toNat / 2 ^ 40 := by
    rw [BitVec.toNat_add, BitVec.toNat_ushiftRight, Nat.shiftRight_eq_div_pow, Nat.mod_eq_of_lt hcarry]
  have ho : m.shift.1.toNat = c0.toNat % 2 ^ 40 := by simp [Mult.shift, hm]
  rw [Mult.shift_acc hm hr, ho, hm, accNum_cons, accNum_cons, accNum_cons, accNum_append_zero, e]
  refine ⟨?_, by simp [hr]⟩
  have := Nat.div_add_mod c0.toNat (2 ^ 40)
  omega

/-- Settles O36: the weighted sum of the statement is the number of `accNum`, and MAC and SHIFT act on its columns. -/
theorem accumulatorStepsComputeWithNumbers : Obligations.AccumulatorStepsComputeWithNumbers := by
  unfold Obligations.AccumulatorStepsComputeWithNumbers
  intro m a b
  simp only [accNum_weighted, numOf_weighted, Nat.mul_zero, Nat.pow_zero, Nat.one_mul]
  intro hl
  refine ⟨fun hb h => ⟨?_, by simp [Mult.mac, hl]⟩, Mult.shift_number hl⟩
  have := mac_from a b m.acc 0 (fun j hj => by rw [Nat.zero_add] at hj ⊢; exact h j hj)
  rwa [List.drop_zero, hl, List.take_of_length_le hb] at this

end Sys2Proof.Machine
end

section
/-! PROOFS. The commands of the multiplier at entry (R430, R433, R436, R437): what each reads before it is queued. -/

namespace Sys2Proof.Machine

set_option Elab.async false

/-! ### What a queued command has read -/

/-- The state after a request has read the message of FORM 0x01. -/
def State.readMessage (s : State) (rq : Rq) : State :=
  if pkForm rq.body = 0 then s else s.didInput rq (descAt rq.body 72)

/-- The message of a request: none under FORM 0x00, else what its descriptor gives. -/
def MessageIs (s : State) (rq : Rq) (msg : List Byte) : Prop :=
  (pkForm rq.body = 0 ∧ msg = []) ∨ (pkForm rq.body = 1 ∧ s.input rq 0 (descAt rq.body 72) = .data msg)

theorem withMessage_is {s : State} {rq : Rq} {msg : List Byte} (h : MessageIs s rq msg) (f : List Byte → State → Act) :
    Act.withMessage s rq f = f msg (s.readMessage rq) := by
  rcases h with ⟨hform, rfl⟩ | ⟨hform, hin⟩
  · rw [Act.withMessage, State.readMessage, if_pos hform, if_pos hform]
  · have hne : pkForm rq.body ≠ 0 := by omega
    rw [Act.withMessage, State.readMessage, if_neg hne, if_neg hne, withInput_data hin]

/-- Reading a message leaves keys and the requests in flight alone. -/
@[simp] theorem State.readMessage_same (s : State) (rq : Rq) :
    (s.readMessage rq).ks = s.ks ∧ (s.readMessage rq).live = s.live := by
  unfold State.readMessage; split <;> simp

/-- A command whose checks agree leaves its delay drawn and the multiplier awake. -/
theorem twice_queues {s : State} {rq : Rq} (h : rq.x.split = false) (slot : Nat) (msg sig : List Byte) :
    Act.twice s rq 4 0 (fun s => .queue s rq 0 slot msg sig) = .park (.mult rq.owner 0 slot msg sig)
      { s.drewDelay with mult := { s.mult with gated := false } } := twice_agrees h

/-- The leaf of an HSS key goes along with its signature. -/
theorem withLeaf_takes {s : State} {rq : Rq} {k : Nat} {key : Key} {f : List Byte → State → Act}
    (hscheme : pkScheme rq.body = 4) (hkey : (s.slot k).key = some key) (hturn : s.signsBefore rq = false)
    (hleaf : firstFail key.hss.checks = none) :
    Act.withLeaf s rq k f = f (be 5 key.hss.leaf ++ s.drawBytes 32) (s.spendLeaf k key) := by
  unfold Act.withLeaf
  simp only [hscheme, hkey, hturn, guard_none hleaf, if_true, Bool.false_eq_true, if_false]

/-! ### The commands -/

section
variable {t : State} {rq : Rq} {key : Key} {msg : List Byte}

/-- The key that a command of the multiplier names is in the cache without error, and its checks agree. -/
structure KeyReady (t : State) (rq : Rq) (key : Key) : Prop where
  cached : t.cachedKey rq.owner (fld rq.body 0 2) = some key
  entry  : fld rq.body 0 2 ∉ rq.x.keyErrs
  agrees : rq.x.split = false

theorem KeyReady.slot (h : KeyReady t rq key) :
    (((t.touchKey (fld rq.body 0 2)).readMessage rq).slot (fld rq.body 0 2)).key = some key := by
  have hslots : ((t.touchKey (fld rq.body 0 2)).readMessage rq).ks.slots = t.ks.slots := by simp [State.touchKey]
  rw [State.slot_of_slots hslots]
  exact State.slot_of_keyFor (State.keyFor_of_cachedKey h.cached)

theorem doPkSign_queues (h : KeyReady t rq key) (hchecks : firstFail (t.signChecks rq) = none)
    (hmsg : MessageIs (t.touchKey (fld rq.body 0 2)) rq msg) (hscheme : pkScheme rq.body ≠ 4) :
    doPkSign rq t = .park (.mult rq.owner 0 0 msg [])
      { ((t.touchKey (fld rq.body 0 2)).readMessage rq).drewDelay with
        mult := { ((t.touchKey (fld rq.body 0 2)).readMessage rq).mult with gated := false } } := by
  rw [doPkSign, guard_none hchecks, withKey_cached h.cached h.entry, withMessage_is hmsg, Act.withLeaf, if_neg hscheme,
    twice_queues h.agrees]

theorem doPkSign_takesLeaf (h : KeyReady t rq key) (hchecks : firstFail (t.signChecks rq) = none)
    (hmsg : MessageIs (t.touchKey (fld rq.body 0 2)) rq msg) (hscheme : pkScheme rq.body = 4)
    (hleaf : firstFail key.hss.checks = none) (hturn : t.signsBefore rq = false) :
    doPkSign rq t = .park
      (.mult rq.owner 0 0 msg
        (be 5 key.hss.leaf ++ ((t.touchKey (fld rq.body 0 2)).readMessage rq).drawBytes 32))
      { (((t.touchKey (fld rq.body 0 2)).readMessage rq).spendLeaf (fld rq.body 0 2) key).drewDelay with
        mult := { (((t.touchKey (fld rq.body 0 2)).readMessage rq).spendLeaf (fld rq.body 0 2) key).mult with
          gated := false } } := by
  have hturn' : ((t.touchKey (fld rq.body 0 2)).readMessage rq).signsBefore rq = false := by
    rw [← hturn, State.signsBefore, State.signsBefore]; simp
  rw [doPkSign, guard_none hchecks, withKey_cached h.cached h.entry, withMessage_is hmsg,
    withLeaf_takes hscheme h.slot hturn' hleaf, twice_queues h.agrees]

/-- A check on the key that a request names speaks of the key in the cache. -/
theorem KeyReady.onKey (h : KeyReady t rq key) (bad : Key → Bool) (st : Status) (d : Nat) :
    firstFail (t.onKey rq.owner (fld rq.body 0 2) bad st d) = none ↔ bad key = false := by
  simp [State.onKey, State.keyFor_of_cachedKey h.cached]

theorem doPkVerify_inline (h : KeyReady t rq key) (hlen : rq.body.length = 104 + fld rq.body 6 2)
    (habsent : descAbsent rq.body 88 = true) (hchecks : firstFail (t.pkChecks rq true) = none)
    (hsig : fld rq.body 6 2 = t.sigLen key) (hmsg : MessageIs (t.touchKey (fld rq.body 0 2)) rq msg) :
    doPkVerify rq t = .park (.mult rq.owner 0 0 msg (rq.body.drop 104))
      { ((t.touchKey (fld rq.body 0 2)).readMessage rq).drewDelay with
        mult := { ((t.touchKey (fld rq.body 0 2)).readMessage rq).mult with gated := false } } := by
  unfold doPkVerify
  dsimp only
  rw [guard_none ?checks, withKey_cached h.cached h.entry, withMessage_is hmsg, if_pos habsent, twice_queues h.agrees]
  case checks => simp [hlen, habsent, hchecks, h.onKey, hsig]

theorem doPkVerify_descriptor (h : KeyReady t rq key) (hlen : rq.body.length = 104) (habsent : descAbsent rq.body 88 = false)
    (hdesc : (descAt rq.body 88).len = fld rq.body 6 2) (hchecks : firstFail (t.pkChecks rq true) = none)
    (hsig : fld rq.body 6 2 = t.sigLen key) (hmsg : MessageIs (t.touchKey (fld rq.body 0 2)) rq msg) {sig : List Byte}
    (hin : ((t.touchKey (fld rq.body 0 2)).readMessage rq).input rq 1 (descAt rq.body 88) = .data sig) :
    doPkVerify rq t = .park (.mult rq.owner 0 0 msg sig)
      { (((t.touchKey (fld rq.body 0 2)).readMessage rq).didInput rq (descAt rq.body 88)).drewDelay with
        mult := { (((t.touchKey (fld rq.body 0 2)).readMessage rq).didInput rq (descAt rq.body 88)).mult with
          gated := false } } := by
  unfold doPkVerify
  dsimp only
  rw [guard_none ?checks, withKey_cached h.cached h.entry, withMessage_is hmsg, if_neg (by simp [habsent]),
    withInput_data hin, twice_queues h.agrees]
  case checks => simp [hlen, habsent, hchecks, h.onKey, hsig, hdesc]

theorem doPkAgree_queues (h : KeyReady t rq key) (hmin : 8 ≤ rq.body.length) (hi : t.ph.issuing = true)
    (hd : t.pow.drbgStop = false) (hkey : firstFail (t.keyChecks rq (fld rq.body 0 2) (fun k => k.may uAgree)) = none)
    (hlen : rq.body.length = 8 + t.publicLen rq.owner key.attr.type key.attr.size) (huse : fld rq.body 6 2 ≠ 0)
    (hbits : ∀ i, i < 16 → bit (fld rq.body 6 2) i = true → i = uDerive ∨ i = uMac)
    (hparent : firstFail (t.parentChecks rq (fld rq.body 2 2)) = none) (htarget : fld rq.body 4 2 ≠ 0)
    (hslot : firstFail (t.targetChecks rq.owner (fld rq.body 4 2)) = none) :
    doPkAgree rq t = .park (.mult rq.owner 0 (fld rq.body 4 2) [] [])
      { (t.touchKey (fld rq.body 0 2)).drewDelay with
        mult := { (t.touchKey (fld rq.body 0 2)).mult with gated := false } } := by
  have hall : (List.range 16).all (fun i => !bit (fld rq.body 6 2) i || i == uDerive || i == uMac) = true := by
    rw [List.all_eq_true]
    intro i hmem
    cases hbit : bit (fld rq.body 6 2) i with
    | false => rfl
    | true => simpa using hbits i (List.mem_range.mp hmem) hbit
  have hlong : (rq.body.length - 8 != t.publicLen rq.owner key.attr.type key.attr.size) = false := by simp [hlen]
  unfold doPkAgree
  dsimp only
  rw [guard_none ?checks, withKey_cached h.cached h.entry, twice_queues h.agrees]
  case checks =>
    simp only [firstFail_append_none, firstFail_cons_none, firstFail_nil, needStamp_issuing hi, State.needRandom, hd, hkey,
      hall, h.onKey, hlong, hparent, hslot]
    simp [hmin, huse, htarget]

theorem doPkEncrypt_queues (h : KeyReady t rq key) (hchecks : firstFail (t.oaepChecks rq uEncrypt 0x21) = none)
    (hfits : fld rq.body 4 2 ≤ key.attr.size / 8 - 2 * (oaepHash rq.body).len - 2) :
    doPkEncrypt rq t = .park (.mult rq.owner 0 0 [] [])
      { (t.touchKey (fld rq.body 0 2)).drewDelay with
        mult := { (t.touchKey (fld rq.body 0 2)).mult with gated := false } } := by
  unfold doPkEncrypt
  dsimp only
  rw [guard_none ?checks, withKey_cached h.cached h.entry, twice_queues h.agrees]
  case checks => rw [firstFail_append_none, h.onKey]; exact ⟨hchecks, decide_eq_false (Nat.not_lt.mpr hfits)⟩

theorem doPkDecrypt_queues (h : KeyReady t rq key) (hchecks : firstFail (t.oaepChecks rq uDecrypt 0x20) = none)
    (hfits : fld rq.body 4 2 = key.attr.size / 8) :
    doPkDecrypt rq t = .park (.mult rq.owner 0 0 [] [])
      { (t.touchKey (fld rq.body 0 2)).drewDelay with
        mult := { (t.touchKey (fld rq.body 0 2)).mult with gated := false } } := by
  unfold doPkDecrypt
  dsimp only
  rw [guard_none ?checks, withKey_cached h.cached h.entry, twice_queues h.agrees]
  case checks => rw [firstFail_append_none, h.onKey]; exact ⟨hchecks, by simp [hfits]⟩

theorem doPkLoadCurve_queues (hmin : 20 ≤ at8 rq.body 0) (hmax : at8 rq.body 0 ≤ 80)
    (hlen : rq.body.length = 4 + 6 * at8 rq.body 0) (hzero : zeroAt rq.body 2 2 = true) :
    doPkLoadCurve rq t = .park (.mult rq.owner 0 0 [] []) { t with mult := { t.mult with gated := false } } := by
  unfold doPkLoadCurve
  dsimp only
  rw [guard_none ?checks]
  · rfl
  case checks => simp [needZero, hzero, hlen]; omega

theorem doRngDraw_draws (hlen : rq.body.length = 2) (hmin : 1 ≤ fld rq.body 0 2) (hmax : fld rq.body 0 2 ≤ 1024)
    (hd : t.pow.drbgStop = false) :
    doRngDraw rq t = .done .ok 0 (t.drawBytes (fld rq.body 0 2)) (t.drewBytes (fld rq.body 0 2)) := by
  unfold doRngDraw
  dsimp only
  rw [guard_none ?checks]
  case checks => simp [needLength, State.needRandom, hlen, hd]; omega

end

/-- Settles O38: each command by its own lemma above. -/
theorem pkCommandsAreQueued : Obligations.PkCommandsAreQueued := by
  refine ⟨?keyed, ?plain⟩
  case keyed =>
    intro s t v x rt arr p key b rq k a read woken hcached hentry hsplit
    have ready : ∀ o, KeyReady t (rq o) key := fun o => ⟨hcached, hentry, hsplit⟩
    refine ⟨?sign, ?inline, ?descriptor, ?agree, ?encrypt, ?decrypt⟩
    case sign =>
      intro msg h hchecks hmsg
      exact ⟨fun hscheme => staysInFlight rfl h rfl (doPkSign_queues (ready .pkSign) hchecks hmsg hscheme),
        fun hscheme hleaf hturn =>
          staysInFlight rfl h rfl (doPkSign_takesLeaf (ready .pkSign) hchecks hmsg hscheme hleaf hturn)⟩
    case inline =>
      intro msg h hlen habsent hchecks hsig hmsg
      exact staysInFlight rfl h rfl (doPkVerify_inline (ready .pkVerify) hlen habsent hchecks hsig hmsg)
    case descriptor =>
      intro msg sig h hlen habsent hdesc hchecks hsig hmsg hin
      exact staysInFlight rfl h rfl (doPkVerify_descriptor (ready .pkVerify) hlen habsent hdesc hchecks hsig hmsg hin)
    case agree =>
      intro h hmin hi hd hkey hlen huse hbits hparent htarget hslot
      exact staysInFlight rfl h rfl
        (doPkAgree_queues (ready .pkAgree) hmin hi hd hkey hlen huse hbits hparent htarget hslot)
    case encrypt =>
      intro h hchecks hfits
      exact staysInFlight rfl h rfl (doPkEncrypt_queues (ready .pkEncrypt) hchecks hfits)
    case decrypt =>
      intro h hchecks hfits
      exact staysInFlight rfl h rfl (doPkDecrypt_queues (ready .pkDecrypt) hchecks hfits)
  case plain =>
    intro s t v x rt arr p b
    refine ⟨fun h hmin hmax hlen hzero => staysInFlight rfl h rfl (doPkLoadCurve_queues hmin hmax hlen hzero),
      fun h hlen hmin hmax hd => ⟨t.drawBytes (fld b 0 2), t.drewBytes (fld b 0 2), ?_, rfl, ?_⟩⟩
    · simp [State.drawBytes]
    · exact completes rfl h rfl (doRngDraw_draws (by simp [hlen]) hmin hmax hd)

end Sys2Proof.Machine
end

section
/-! PROOFS. The boundaries of the multiplier (R423, R424, R443, R446): the last ends a command, an earlier one counts down, a
faulty one leaves no result. -/

namespace Sys2Proof.Machine

set_option Elab.async false

/-- Equal states look again at the requests that wait. -/
theorem outcome_pump {s t : State} (h : s = t) : (Host.Outcome.next s.pump : Host.Outcome State Fault Refusal) = .next t.pump :=
  congrArg _ (congrArg _ h)

section
variable {s : State} {i own left slot : Nat} {msg sig : List Byte} {l : Live}

/-- A boundary ends its command by its last multiplication, or by its own flag when the count is open. -/
theorem State.boundary_ends {last : Bool} (hc : s.multCtx = some i) (hf : s.live.find? (Live.onMult i) = some l)
    (hj : l.job = .mult own left slot msg sig) (hend : left = 1 ∨ (left = 0 ∧ last = true)) :
    s.boundary last none = (endMult l.rq slot msg sig (s.turned i l)).settle s.evr.next l.rq := by
  have htake := State.takeLive_same (s := (s.mapMult (fun m => { m with turn := (i + 1) % 65 })).cleanMult)
    (List.mem_of_find?_eq_some hf)
  have hmore : ¬ 1 < left := by omega
  have hlast : (decide (left = 1) || last) = true := by rcases hend with h | ⟨-, h⟩ <;> simp [h]
  simp only [State.boundary, hc, hf, hj, hmore, if_false, hlast, if_true, State.finish, htake]
  rfl

theorem State.boundary_counts {last : Bool} (hc : s.multCtx = some i) (hf : s.live.find? (Live.onMult i) = some l)
    (hj : l.job = .mult own left slot msg sig) (hmore : 1 < left) :
    s.boundary last none = { s with
      mult := { s.mult with turn := (i + 1) % 65 },
      live := s.live.map (fun m => if m = l then { m with job := .mult own (left - 1) slot msg sig } else m) } := by
  simp only [State.boundary, hc, hf, hj, hmore, if_true]
  rfl

theorem State.boundary_faults {last : Bool} {f : PkFault} (hc : s.multCtx = some i)
    (hf : s.live.find? (Live.onMult i) = some l) (hj : l.job = .mult own left slot msg sig) :
    s.boundary last (some f) = (faultMult f l.rq (s.turned i l)).settle s.evr.next l.rq := by
  have htake := State.takeLive_same (s := (s.mapMult (fun m => { m with turn := (i + 1) % 65 })).cleanMult)
    (List.mem_of_find?_eq_some hf)
  simp only [State.boundary, hc, hf, hj, State.finish, htake]
  rfl

end

/-- However a fault shows, its command is refused with ST_FAULT, DETAIL 0x00C6. -/
theorem faultMult_refuses (f : PkFault) (rq : Rq) (s : State) : ∃ u : State, faultMult f rq s = .refuse u .fault 0x00C6 := by
  cases f with
  | mode kat => exact ⟨_, rfl⟩
  | residue kat => exact ⟨_, rfl⟩
  | scratch => exact ⟨_, rfl⟩

/-! ### The ends of commands -/

section
variable {rq : Rq} {s : State} {key : Key} {slot : Nat} {msg sig : List Byte}

theorem endMult_pkSign_hss (hop : rq.op = .pkSign) (hkey : (s.slot (fld rq.body 0 2)).key = some key)
    (hscheme : pkScheme rq.body = 4) (hmiss : rq.x.misses = 0) (hdma : s.dmaStop rq.owner = none) :
    let signed := hssSign (key.secret.take 32) (slice key.secret 32 16) (fld sig 0 5) (sig.drop 5) msg
    endMult rq slot msg sig s =
      .done .ok 0 (be 2 signed.length ++ zeros 2) (s.output rq.owner (descAt rq.body 88) signed) := by
  simp [endMult, hop, hkey, pkHashes, hscheme, Act.onHash, hmiss, endPkSign, Act.withOutput, hdma]

theorem endMult_pkVerify_hss (hop : rq.op = .pkVerify) (hkey : (s.slot (fld rq.body 0 2)).key = some key)
    (hscheme : pkScheme rq.body = 4) (hmiss : rq.x.misses = 0) :
    endMult rq slot msg sig s = .done .ok 0 ([if hssVerify key.pub msg sig then 1#8 else 2#8] ++ zeros 3)
      (if key.unapproved then s.unapproved rq.route.origin else s) := by
  simp [endMult, hop, hkey, pkHashes, hscheme, Act.onHash, hmiss, endPkVerify, State.verdict]

/-- The key that PK.AGREE makes of the shared x coordinate. -/
def State.agreedKey (s : State) (rq : Rq) (slot : Nat) (c : Curve) (x : Nat) : Key :=
  s.makeKey rq.owner slot (fld rq.body 2 2) ⟨2, 8 * c.len, fld rq.body 6 2, 0, 1, 0⟩ 2 (be c.len x) [] 0

theorem endMult_pkAgree {c : Curve} {q : Nat × Nat} (hop : rq.op = .pkAgree)
    (hkey : (s.slot (fld rq.body 0 2)).key = some key) (hcurve : s.curve rq.owner key.attr.size = some c)
    (hpoint : firstFail (c.pointChecks (rq.body.drop 8)) = none)
    (hq : c.mul (c.h * fromBe key.secret) (c.decode (rq.body.drop 8)) = some q) :
    endMult rq slot msg sig s = .create (if key.unapproved then s.unapproved rq.route.origin else s) slot
      (s.agreedKey rq slot c q.1) := by
  simp [endMult, hop, hkey, pkHashes, endPkAgree, hcurve, guard_none hpoint, hq, State.agreedKey]

theorem endMult_pkLoadCurve {c : Curve} {j : Nat} (hop : rq.op = .pkLoadCurve)
    (hnew : s.tryCurve rq.owner rq.body = .new j c) :
    endMult rq slot msg sig s = .done .ok 0 (be 2 j) ((s.setCurve j c).unapproved rq.route.origin) := by
  simp [endMult, hop, endPkLoadCurve, hnew]

end

/-- A curve that is loaded takes its place among the curves and no other. -/
theorem State.setCurve_get (s : State) (j : Nat) (c : Curve) (i : Nat) :
    (s.setCurve j c).ks.curves.get none i = if i = j then some c else s.ks.curves.get none i :=
  Tbl.get_put none s.ks.curves j i (some c)

/-- Settles O39: the boundaries of `State.boundary`, and the ends that `endMult` gives. -/
theorem multiplierCommandsEnd : Obligations.MultiplierCommandsEnd := by
  refine ⟨?boundary, ?ends, ?fault⟩
  case boundary =>
    intro s i own left slot msg sig l last hc hf hj m w
    refine ⟨fun hend => outcome_pump (State.boundary_ends hc hf hj hend), fun hmore => ?_⟩
    refine ⟨_, outcome_pump (State.boundary_counts hc hf hj hmore), rfl, rfl, rfl, rfl, ?_⟩
    exact ⟨_, List.mem_map.mpr ⟨l, List.mem_of_find?_eq_some hf, if_pos rfl⟩, rfl, rfl⟩
  case ends =>
    intro rq c msg sig slot s k
    refine ⟨fun key hkey => ⟨fun hop hscheme hmiss hdma => endMult_pkSign_hss hop hkey hscheme hmiss hdma,
      fun hop hscheme hmiss => ⟨_, endMult_pkVerify_hss hop hkey hscheme hmiss, ?_⟩,
      fun hop hcurve hpoint q hq => ⟨_, _, endMult_pkAgree hop hkey hcurve hpoint hq, State.install_key .., rfl, rfl⟩⟩,
      fun hop j hnew => ⟨_, endMult_pkLoadCurve hop hnew, ?_⟩⟩
    · split <;> simp
    · have hks : ((s.setCurve j c).unapproved rq.route.origin).ks = (s.setCurve j c).ks := by simp
      rw [hks]
      exact ⟨by rw [State.setCurve_get, if_pos rfl], fun i hi => by rw [State.setCurve_get, if_neg hi]⟩
  case fault =>
    intro s i own left slot msg sig l last f hc hf hj
    obtain ⟨u, hu⟩ := faultMult_refuses f l.rq (s.turned i l)
    refine ⟨u.closePart l.rq .fault, outcome_pump ?_⟩
    rw [State.boundary_faults hc hf hj, hu, settle_of_refuse]
    simp

end Sys2Proof.Machine
end

section
/-! PROOFS. Characters of the serial ports (R456, R467-R471): the receive queue and its overrun policies. -/

namespace Sys2Proof.Machine

set_option Elab.async false

/-! ### The receive queue -/

theorem sat_sixteen (n : Nat) : sat 16 n = min n 65535 := rfl

/-- The port once a noisy character has been counted. -/
def SerialPort.heard (p : SerialPort) (e : BitVec 16) : SerialPort :=
  if e.getLsbD 9 then { p with noise := sat 16 (p.noise + 1) } else p

@[simp] theorem SerialPort.heard_same (p : SerialPort) (e : BitVec 16) :
    (p.heard e).queue = p.queue ∧ (p.heard e).overruns = p.overruns := by
  unfold SerialPort.heard; split <;> exact ⟨rfl, rfl⟩

/-- While there is room a character joins the queue. -/
theorem SerialPort.receive_room {p : SerialPort} {size : Nat} (h : p.queue.length < size) (overwrite : Bool) (e : BitVec 16) :
    p.receive size overwrite e = { p.heard e with queue := p.queue ++ [e] } := by
  obtain ⟨hqueue, -⟩ := p.heard_same e
  have h' : (p.heard e).queue.length < size := by rwa [hqueue]
  rw [← hqueue]
  exact if_pos h'

/-- The entry that a full queue keeps last: the new one under OVERWRITE_LAST, its own under KEEP_OLD. -/
def SerialPort.kept (p : SerialPort) (size : Nat) (overwrite : Bool) (e : BitVec 16) : BitVec 16 :=
  if overwrite then e else p.queue.getD (size - 1) 0

theorem SerialPort.kept_old {p : SerialPort} {size : Nat} (h : size - 1 < p.queue.length) (e : BitVec 16) :
    p.queue[size - 1]? = some (p.kept size false e) := by
  simp [SerialPort.kept, h]

/-- A full queue keeps its length and counts the overrun. -/
theorem SerialPort.receive_full {p : SerialPort} {size : Nat} (h : p.queue.length = size) (overwrite : Bool) (e : BitVec 16) :
    p.receive size overwrite e = { p.heard e with
      queue := p.queue.take (size - 1) ++ [overrunEntry (p.kept size overwrite e)], overruns := sat 16 (p.overruns + 1) } := by
  obtain ⟨hqueue, hover⟩ := p.heard_same e
  have h' : ¬ (p.heard e).queue.length < size := by rw [hqueue, h]; exact Nat.lt_irrefl _
  rw [SerialPort.kept, ← hqueue, ← hover]
  exact if_neg h'

theorem queueSize_pos (q : Serial) : 0 < queueSize q := by cases q <;> decide

/-! ### RECEIVED_CHARACTER -/

/-- The port with the repetitions of a character over. -/
def SerialPort.caughtUp (p : SerialPort) : SerialPort := { p with reps := 0 }

section
variable {s : State} {q : Serial} {start : Samples} {rest : List Samples}

theorem exec_receivedCharacter_glitch (hlevel : levelOf (start :: rest) 0 = true) :
    exec (.receivedCharacter q start rest) s = .next s := by
  show execReceivedCharacter q start rest s = _
  simp [execReceivedCharacter, hlevel]

variable (hmain : s.pow.main = true)
  (hpower : q = .console ∨ (s.serial q).powered = true)
include hmain hpower

theorem exec_receivedCharacter_hears : (!s.pow.main || (q != .console && !(s.serial q).powered)) = false := by
  rcases hpower with h | h <;> simp [hmain, h]

theorem exec_receivedCharacter_repeats (hlevel : levelOf (start :: rest) 0 = false) (hq : q ≠ .console)
    (hrep : (s.serial q).repeats (queueEntry q (s.serial q).inverse (start :: rest)) = true) :
    exec (.receivedCharacter q start rest) s =
      .next ((s.setSerial q { s.serial q with reps := (s.serial q).reps + 1 }).emit (.cardError q)) := by
  have hears := exec_receivedCharacter_hears hmain hpower
  show execReceivedCharacter q start rest s = _
  simp only [execReceivedCharacter, hears, hlevel, hrep, Bool.or_false, Bool.false_eq_true, if_false, Bool.and_true, bne_iff_ne,
    ne_eq, hq, not_false_eq_true, if_true]

theorem exec_receivedCharacter_queues (hlevel : levelOf (start :: rest) 0 = false)
    (hrep : q = .console ∨ (s.serial q).repeats (queueEntry q (s.serial q).inverse (start :: rest)) = false) :
    exec (.receivedCharacter q start rest) s =
      .next (s.setSerial q ((s.serial q).caughtUp.receive (queueSize q) (bit s.cus.policy (policyBit q))
        (queueEntry q (s.serial q).inverse (start :: rest)))) := by
  have hears := exec_receivedCharacter_hears hmain hpower
  have hkept : (q != .console && (s.serial q).repeats (queueEntry q (s.serial q).inverse (start :: rest))) = false := by
    rcases hrep with h | h <;> simp [h]
  show execReceivedCharacter q start rest s = _
  simp only [execReceivedCharacter, hears, hlevel, hkept, Bool.or_false, Bool.false_eq_true, if_false]
  rfl

end

/-- Settles O51: `exec_receivedCharacter_queues` with `SerialPort.receive_room` and `SerialPort.receive_full`. -/
theorem receivedCharactersAreQueued : Obligations.ReceivedCharactersAreQueued := by
  refine ⟨?_, by decide, by decide, by decide⟩
  intro s q start rest hmain hpower bits e
  refine ⟨exec_receivedCharacter_glitch, fun hlevel hq hrep =>
    exec_receivedCharacter_repeats hmain hpower hlevel hq hrep, fun hlevel hrep => ?_⟩
  have hexec := exec_receivedCharacter_queues hmain hpower hlevel hrep
  refine ⟨fun hroom => ?room, fun hfull => ?full⟩
  case room =>
    rw [SerialPort.receive_room (p := (s.serial q).caughtUp) hroom] at hexec
    refine ⟨_, hexec, ?_, ?_, fun r hr => ?_⟩
    · rw [State.setSerial_serial_same]; rfl
    · rw [State.setSerial_serial_same]
      exact (SerialPort.heard_same _ _).2
    · rw [State.setSerial_serial, if_neg hr]
  case full =>
    rw [SerialPort.receive_full (p := (s.serial q).caughtUp) hfull] at hexec
    refine ⟨_, (s.serial q).caughtUp.kept (queueSize q) (bit s.cus.policy (policyBit q)) e, hexec, ?_,
      fun hkeep => ?_, fun hover => ?_, ?_⟩
    · rw [State.setSerial_serial_same]; rfl
    · have hlt : queueSize q - 1 < (s.serial q).queue.length := by have := queueSize_pos q; omega
      rw [hkeep]
      exact SerialPort.kept_old (p := (s.serial q).caughtUp) hlt e
    · rw [SerialPort.kept, hover, if_pos rfl]
    · rw [State.setSerial_serial_same, sat_sixteen]; rfl

end Sys2Proof.Machine
end

section
/-! PROOFS. Ceremonies and their card steps (chapter 13): how a step ends, what a response brings, and the time limits. -/

namespace Sys2Proof.Machine

set_option Elab.async false

/-! ### The end of an exchange (R455, R463) -/

theorem State.endExchange_of {s : State} {e : Exch} (h : s.cus.exch = some e) :
    s.endExchange = (s.deactivate e.card).mapCus (fun v => { v with exch := none }) := by
  simp [State.endExchange, h]

theorem State.endExchange_exch (s : State) : s.endExchange.cus.exch = none := by
  cases h : s.cus.exch with
  | none => simp [State.endExchange, h]
  | some e => rw [State.endExchange_of h]; rfl

theorem State.setSerial_cer (s : State) (q : Serial) (v : SerialPort) :
    (s.setSerial q v).cus.cer = s.cus.cer ∧ (s.setSerial q v).cus.exch = s.cus.exch := by cases q <;> exact ⟨rfl, rfl⟩

theorem State.endExchange_cer (s : State) : s.endExchange.cus.cer = s.cus.cer := by
  cases h : s.cus.exch with
  | none => simp [State.endExchange, h]
  | some e => rw [State.endExchange_of h]; exact (State.setSerial_cer _ _ _).1

/-- A port is read from the custody state alone. -/
theorem State.serial_congr {s t : State} (h : s.cus = t.cus) (q : Serial) : s.serial q = t.serial q := by
  cases q <;> simp only [State.serial, h]

theorem State.endExchange_powered {s : State} {e : Exch} (h : s.cus.exch = some e) :
    (s.endExchange.serial e.card).powered = false := by
  have hserial : s.endExchange.serial e.card = (s.deactivate e.card).serial e.card := by
    rw [State.endExchange_of h]; cases e.card <;> rfl
  have hport : (s.deactivate e.card).serial e.card =
      (s.setSerial e.card { s.serial e.card with powered := false }).serial e.card := State.serial_congr rfl _
  rw [hserial, hport, State.setSerial_serial_same]

/-! ### A step that fails (R456, R480, R606) -/

theorem State.endStep_of {s : State} {e : Exch} (h : s.cus.exch = some e) (f : Live → State → Act) :
    s.endStep f = s.endExchange.finish (fun l => l.job == .card) f := by
  simp [State.endStep, h]

/-- Refusing the request of a step changes neither custody, keys, tamper state nor time. -/
theorem State.failStep_same (s : State) (st : Status) (d : Nat) :
    (s.failStep st d).cus = s.endExchange.cus ∧ (s.failStep st d).ks = s.ks ∧ (s.failStep st d).tam = s.tam ∧
      (s.failStep st d).ph = s.ph := by
  cases h : s.cus.exch with
  | none => simp [State.failStep, State.endStep, State.endExchange, h]
  | some e =>
    rw [State.failStep, State.endStep_of h]
    simp [State.finish_cus, State.finish_ks, State.finish_tam, State.finish_ph]

/-- A ceremony that ends is gone with its exchange, and its outcome stands. -/
theorem State.endCeremony_cus {s : State} {c : Cer} (h : s.cus.cer = some c) (outcome origin : Nat) :
    (s.endCeremony outcome origin).cus.cer = none ∧ (s.endCeremony outcome origin).cus.outcome = outcome ∧
      (s.endCeremony outcome origin).cus.exch = none := by
  have hcus : (s.endCeremony outcome origin).cus = { s.endExchange.cus with cer := none, outcome := outcome } := by
    simp only [State.endCeremony, h]
    split <;> simp
  rw [hcus]
  exact ⟨rfl, rfl, s.endExchange_exch⟩

/-- A ceremony that runs out ends as EXPIRED, with the step that runs. -/
theorem State.expires {s : State} {c : Cer} (h : s.cus.cer = some c) (st : Status) (d : Nat) :
    let u := (s.failStep st d).endCeremony 3 noOrigin
    u.cus.cer = none ∧ u.cus.outcome = 3 ∧ u.cus.exch = none := by
  obtain ⟨hcus, -, -, -⟩ := s.failStep_same st d
  exact State.endCeremony_cus (c := c) (by rw [hcus, State.endExchange_cer, h]) 3 noOrigin

section
variable {s : State} {e : Exch}

theorem State.failStep_ends (h : s.cus.exch = some e) (st : Status) (d : Nat) :
    (s.failStep st d).cus.exch = none ∧ (s.failStep st d).cus.cer = s.cus.cer ∧
      ((s.failStep st d).serial e.card).powered = false ∧ (s.failStep st d).ks = s.ks ∧ (s.failStep st d).tam = s.tam := by
  obtain ⟨hcus, hks, htam, -⟩ := s.failStep_same st d
  refine ⟨?_, ?_, ?_, hks, htam⟩
  · rw [hcus, State.endExchange_exch]
  · rw [hcus, State.endExchange_cer]
  · rw [State.serial_congr hcus, State.endExchange_powered h]

end

/-! ### Time limits (R457-R459, R462) -/

theorem exec_ceremonyWindowExpiry_over {s : State} (h : s.windowOver = true) :
    exec .ceremonyWindowExpiry s = .next ((s.failStep .notFresh 0x00E6).endCeremony 3 noOrigin).pump :=
  congrArg Host.Outcome.next (if_pos h)

theorem exec_ceremonyOpenTimeout_over {s : State} (h : s.openOver = true) :
    exec .ceremonyOpenTimeout s = .next ((s.failStep .notFresh 0x00E6).endCeremony 3 noOrigin).pump :=
  congrArg Host.Outcome.next (if_pos h)

/-- Settles O55: the failed steps by `State.failStep_ends`, the time limits by `State.expires`. -/
theorem cardStepsFailAndCeremoniesExpire : Obligations.CardStepsFailAndCeremoniesExpire := by
  refine ⟨⟨fun s st d e h => State.failStep_ends h st d, ?card⟩, ?time⟩
  case card =>
    intro s card e h hcard
    subst hcard
    refine ⟨fun hstage hresets => ?_, fun hstage hresets => ?_, ?_, ?_⟩
    · show execAtrTimeout e.card none s = _
      simp [execAtrTimeout, State.atrLate, h, hstage, hresets]
    · show execAtrTimeout e.card none s = _
      simp [execAtrTimeout, State.atrLate, h, hstage, hresets]
    · show execCardRemoved e.card s = _
      simp [execCardRemoved, State.cardGone, h]
    · show execCardOvercurrent e.card s = _
      simp [execCardOvercurrent, State.cardTrip, h]
  case time =>
    intro s c h
    refine ⟨fun d hstop hi hr => ⟨_, exec_ceremonyWindowExpiry_over ?_, State.expires h _ _⟩, fun d hstop hr =>
        congrArg Host.Outcome.next (if_neg ?_),
      fun k phi hstop hsince hi hr => ⟨_, exec_ceremonyOpenTimeout_over ?_, State.expires h _ _⟩,
      fun hstop hsince => ⟨_, exec_ceremonyOpenTimeout_over ?_, State.expires h _ _⟩, fun d hstop =>
        congrArg Host.Outcome.next (if_neg ?_)⟩
    · simp [State.windowOver, h, hstop, hi, hr]
    · simp [State.windowOver, h, hstop, hr]
    · simp [State.openOver, h, hstop, hsince, hi, hr]
    · simp [State.openOver, h, hstop, hsince]
    · simp [State.openOver, h, hstop]

end Sys2Proof.Machine
end

section
/-! PROOFS. The ceremony commands and the responses of a card (R452, R454-R457, R463, R464). -/

namespace Sys2Proof.Machine

set_option Elab.async false

/-! ### The commands -/

section
variable {t : State} {rq : Rq}

/-- The state that CEREMONY.START leaves but for the band of a commissioning. -/
def State.ceremonyOpened (t : State) (rq : Rq) (c : Cer) : State :=
  (((t.drewBytes 4).drewBytes 16).mapCus (fun w => { w with cer := some c, exch := none })).event 0x0901 rq.route.origin
    (be 4 c.number ++ [byte (at8 rq.body 0)])

theorem doCeremonyStart_opens (hlen : rq.body.length = 4 + fld rq.body 2 2)
    (hmax : fld rq.body 2 2 ≤ 64) (hstamp : firstFail (t.startStamp (at8 rq.body 0)) = none) (hd : t.pow.drbgStop = false)
    (hzero : zeroAt rq.body 1 1 = true) (hlow : 1 ≤ at8 rq.body 0) (hhigh : at8 rq.body 0 ≤ 9) (hnone : t.cus.cer = none)
    (hlife : t.tam.life.code ∈ ceremonyStates (at8 rq.body 0)) (hparams : paramsOk (at8 rq.body 0) (rq.body.drop 4) = true)
    (hreg : at8 rq.body 0 = 2 → t.registerOk (rq.body.drop 4) = true) :
    let c := t.newCeremony (at8 rq.body 0) (rq.body.drop 4) rq.route.origin
    doCeremonyStart rq t = .done .ok 0 (be 4 c.number ++ c.nonce ++ c.digest)
      (if at8 rq.body 0 = 1 then (t.ceremonyOpened rq c).takeBand (at8 rq.body 4) else t.ceremonyOpened rq c) := by
  have hlength : (decide (rq.body.length < 4) || decide (64 < fld rq.body 2 2) ||
      rq.body.length != 4 + fld rq.body 2 2) = false := by
    simp [hlen]; omega
  have htype : (decide (at8 rq.body 0 < 1) || decide (9 < at8 rq.body 0)) = false := by simp; omega
  have hregister : (at8 rq.body 0 == 2 && !t.registerOk (rq.body.drop 4)) = false := by
    by_cases h : at8 rq.body 0 = 2 <;> simp [h, hreg]
  intro c
  unfold doCeremonyStart
  dsimp only
  rw [guard_none ?checks, at8_drop, Nat.add_zero]
  · rfl
  case checks =>
    simp only [firstFail_append_none, firstFail_cons_none, firstFail_nil, hlength, hstamp, State.needRandom, hd, needZero,
      hzero, htype, hnone, hparams, hregister]
    simp [hlife]

/-- The state in which the card of a step has been switched on. -/
def State.cardOn (t : State) (card : Serial) (e : Exch) : State :=
  ((t.setSerial card { t.serial card with powered := true }).emit (.cardPower card true)).mapCus
    (fun k => { k with exch := some e })

theorem doCeremonyStep_selects {a r : List Byte} {info : Atr} {q : SerialPort}
    (hchecks : firstFail (t.stepCardChecks rq) = none) (hfree : t.cus.exch = none)
    (hsound : (t.serial (stepCard rq.body)).failed = false) (hatr : parseAtr a = some (info, r))
    (hadopt : ((t.cardOn (stepCard rq.body) ⟨stepCard rq.body, at8 rq.body 5 == 2, .atr, 0, [], 0, 0⟩).serial
      (stepCard rq.body)).adopt a info r = some q) :
    doCeremonyStep true (some a) rq t = .park .card
      (((t.cardOn (stepCard rq.body) ⟨stepCard rq.body, at8 rq.body 5 == 2, .atr, 0, [], 0, 0⟩).setSerial (stepCard rq.body)
        q).apdu (stepCard rq.body) .select ([0x00#8, 0xA4#8, 0x04#8, 0x00#8, 0x0A#8] ++ aid ++ [0x00#8])) := by
  rw [State.cardOn] at hadopt ⊢
  rw [doCeremonyStep, guard_none hchecks, if_neg (by simp [hfree])]
  dsimp only
  rw [if_neg (by simp [hsound])]
  simp only [hatr, hadopt, Option.isNone_some, Bool.false_eq_true, if_false, State.takeAtr]

/-- CEREMONY.CANCEL of the open ceremony ends it with its step. -/
theorem doCeremonyCancel_ends {c : Cer} (hlen : rq.body.length = 4) (hcer : t.cus.cer = some c)
    (hnumber : c.number = fld rq.body 0 4) :
    doCeremonyCancel rq t = .done .ok 0 [] ((t.failStep .policy 0x00E2).endCeremony 2 rq.route.origin) := by
  rw [doCeremonyCancel, guard_none (by simp [needLength, hlen])]
  simp [hcer, hnumber]

theorem doCeremonyStatus_reports (hlen : rq.body.length = 0) : doCeremonyStatus rq t = .done .ok 0 t.ceremonyPayload t := by
  rw [doCeremonyStatus, guard_none (by simp [needLength, hlen])]

end

/-! ### Responses of a card -/

/-- The state in which a valid response of a card is looked at. -/
def State.answered (s : State) (card : Serial) : State := (s.emptyQueue card).goodBlock

theorem exec_cardApduResponse_valid {s : State} {card : Serial} (hblock : (s.serial card).blockBad = false)
    (hchar : (s.serial card).charBad = false) (data : List Byte) (sw : Nat) (split : Bool) (fails : List Nat) :
    exec (.cardApduResponse card data sw split fails) s =
      .next ((s.answered card).cardResponse card data sw split fails).pump := by
  show execCardApduResponse card data sw split fails s = _
  simp [execCardApduResponse, hblock, hchar, State.answered]

section
variable {s : State} {card : Serial} {e : Exch} {c : Cer}

/-- A valid response leaves the exchange with no invalid block before it. -/
theorem State.answered_exch (h : s.cus.exch = some e) : (s.answered card).cus.exch = some { e with bad := 0 } := by
  obtain ⟨-, hexch⟩ := s.setSerial_cer card { s.serial card with queue := [] }
  have hmap : (s.answered card).cus.exch = (s.emptyQueue card).cus.exch.map (fun e => { e with bad := 0 }) := rfl
  rw [hmap, State.emptyQueue, hexch, h]
  rfl

theorem State.answered_cer : (s.answered card).cus.cer = s.cus.cer := (s.setSerial_cer card _).1

/-- Looking at a response changes the exchange and the port alone. -/
theorem State.answered_same : (s.answered card).ks = s.ks ∧ (s.answered card).ph = s.ph ∧ (s.answered card).live = s.live ∧
    (s.answered card).tam = s.tam ∧ (s.answered card).evr = s.evr := by
  simp [State.answered, State.goodBlock, State.emptyQueue]

theorem State.regs_congr {s t : State} (h : s.ks = t.ks) : s.regs = t.regs := by
  simp only [State.regs, State.reg, h]

theorem State.challenge_congr {s t : State} (h : s.ks = t.ks) (c : Cer) : s.challenge c = t.challenge c := by
  simp only [State.challenge, h]

/-- The checks on a card speak of the registrations and the challenge, not of the blocks before. -/
theorem State.cardChecks_congr {s t : State} (h : s.ks = t.ks) (c : Cer) (e : Exch) (data : List Byte) :
    s.cardChecks c { e with bad := 0 } data = t.cardChecks c e data := by
  simp only [State.cardChecks, State.regs_congr h, State.challenge_congr h]

theorem State.overdue_congr {s t : State} (h : s.ph = t.ph) (c : Cer) : s.overdue c = t.overdue c := by
  simp only [State.overdue, h]

theorem State.approved_congr {s t : State} (h : s.tam = t.tam) (c : Cer) : s.approved c = t.approved c := by
  simp only [State.approved, h]

/-- A card that has proved its key by SIGN CHALLENGE in time ends its step. -/
theorem State.cardResponse_signed (hexch : s.cus.exch = some e) (hcer : s.cus.cer = some c) (hcard : e.card = card)
    (hstage : e.stage = .sign) {data : List Byte} (hchecks : firstFail (s.cardChecks c e data) = none)
    (hcomp : c.wantsComponent = false) (htime : s.overdue c = false) (split : Bool) (fails : List Nat) :
    s.cardResponse card data 0x9000 split fails = s.endStep (cardDone split fails c e (zeros 32)) := by
  simp [State.cardResponse, hexch, hcer, hcard, hstage, hchecks, hcomp, htime]

end

/-! ### Invalid T=1 blocks -/

/-- The state with an invalid block taken out of the queue of its port and counted. -/
def State.droppedBlock (s : State) (card : Serial) : State :=
  s.setSerial card { s.serial card with queue := [], errors := min ((s.serial card).errors + 1) 65535 }

theorem State.droppedBlock_exch (s : State) (card : Serial) : (s.droppedBlock card).cus.exch = s.cus.exch :=
  (s.setSerial_cer card _).2

section
variable {s : State} {card : Serial} {e : Exch} (hexch : s.cus.exch = some e) (hcard : e.card = card)
include hexch hcard

theorem State.badBlock_of : s.badBlock card =
    if e.bad < 4 then ((s.droppedBlock card).mapCus (fun v => { v with exch := some { e with bad := e.bad + 1 } })).emit
      (.cardAgain card (e.bad == 3)) else (s.droppedBlock card).failStep .policy 0x00E5 := by
  have hexch' : (s.droppedBlock card).cus.exch = some e := (s.droppedBlock_exch card).trans hexch
  rw [State.droppedBlock] at hexch' ⊢
  simp [State.badBlock, sat_sixteen, hexch', hcard]

theorem State.badBlock_again (h : e.bad < 4) : s.badBlock card =
    ((s.droppedBlock card).mapCus (fun v => { v with exch := some { e with bad := e.bad + 1 } })).emit
      (.cardAgain card (e.bad == 3)) := by
  rw [State.badBlock_of hexch hcard, if_pos h]

theorem State.badBlock_fails (h : 4 ≤ e.bad) : s.badBlock card = (s.droppedBlock card).failStep .policy 0x00E5 := by
  rw [State.badBlock_of hexch hcard, if_neg (Nat.not_lt.mpr h)]

end

/-! ### Approvals -/

/-- The ceremony with one approval more, of the card registered at `i`, asked for by `l` (R452, R457). -/
def State.approvedBy (s : State) (c : Cer) (e : Exch) (i : Nat) (r : Reg) (l : Live) : Cer :=
  { c with
    approvals := c.approvals ++ [⟨e.pub, i, r.role⟩], comp := xorBytes c.comp (zeros 32), steps := c.steps + 1
    stop := some (c.stop.getD (s.ph.c + 3000, s.ph.phi)), st := .running, origin := l.rq.route.origin }

theorem State.approvedBy_congr {s t : State} (h : s.ph = t.ph) (c : Cer) (e : Exch) (i : Nat) (r : Reg) (l : Live) :
    s.approvedBy c e i r l = t.approvedBy c e i r l := by
  simp only [State.approvedBy, h]

/-- An approval that does not complete the ceremony is counted and answered. -/
theorem cardDone_counts {s : State} {c : Cer} {e : Exch} {i : Nat} {r : Reg} {l : Live} (henrol : e.enrol = false)
    (hreg : s.regs.find? (fun r => r.2.pub == e.pub) = some (i, r)) (hopen : s.approved (s.approvedBy c e i r l) = false)
    (split : Bool) (fails : List Nat) :
    cardDone split fails c e (zeros 32) l s = .done .ok 0 (stepReply (s.approvedBy c e i r l) 1 i e.pub [])
      ((s.event 0x0902 l.rq.route.origin (cardId e.pub)).mapCus
        (fun v => { v with cer := some (s.approvedBy c e i r l) })) := by
  have hopen' : (s.event 0x0902 l.rq.route.origin (cardId e.pub)).approved (s.approvedBy c e i r l) = false := by
    rw [← hopen]; exact State.approved_congr (by simp) _
  rw [State.approvedBy] at hopen' ⊢
  simp only [cardDone, henrol, hreg, acceptStep, hopen', Bool.false_eq_true, if_false, Bool.not_false, if_true]

/-- A request in flight that is found ends by what is left of it. -/
theorem State.finish_found {s : State} {p : Live → Bool} {l : Live} (h : s.live.find? p = some l) (f : Live → State → Act) :
    s.finish p f = (f l { s with live := s.live.erase l }).settle s.evr.next l.rq := by
  simp [State.finish, State.takeLive, h]

/-- The step of a card that counts ends with the card switched off and the approval in the ceremony. -/
theorem State.endStep_counts {s : State} {c : Cer} {e : Exch} {i : Nat} {r : Reg} {l : Live} (hexch : s.cus.exch = some e)
    (hlive : s.live.find? (fun l => l.job == .card) = some l) (henrol : e.enrol = false)
    (hreg : s.regs.find? (fun r => r.2.pub == e.pub) = some (i, r)) (hopen : s.approved (s.approvedBy c e i r l) = false)
    (split : Bool) (fails : List Nat) :
    let u := s.endStep (cardDone split fails c e (zeros 32))
    u.cus.cer = some (s.approvedBy c e i r l) ∧ u.cus.exch = none ∧ (u.serial e.card).powered = false := by
  have hlive' : s.endExchange.live.find? (fun l => l.job == .card) = some l := by simpa using hlive
  have hreg' : ({ s.endExchange with live := s.endExchange.live.erase l } : State).regs.find? (fun r => r.2.pub == e.pub) =
      some (i, r) := by rw [← hreg, State.regs_congr (t := s) (by simp)]
  have hadds : ({ s.endExchange with live := s.endExchange.live.erase l } : State).approvedBy c e i r l =
      s.approvedBy c e i r l := State.approvedBy_congr (by simp) c e i r l
  have hopen' : ({ s.endExchange with live := s.endExchange.live.erase l } : State).approved
      (({ s.endExchange with live := s.endExchange.live.erase l } : State).approvedBy c e i r l) = false := by
    rw [hadds, ← hopen]; exact State.approved_congr (by simp) _
  have hcus : (s.endStep (cardDone split fails c e (zeros 32))).cus =
      { s.endExchange.cus with cer := some (s.approvedBy c e i r l) } := by
    rw [State.endStep_of hexch, State.finish_found hlive', cardDone_counts henrol hreg' hopen', hadds, settle_of_done]
    simp [State.mapCus]
  refine ⟨by rw [hcus], by rw [hcus]; exact s.endExchange_exch, ?_⟩
  rw [← State.endExchange_powered hexch]
  cases e.card <;> simp only [State.serial, hcus]

/-- Settles O54: each command by its own lemma, the responses by `exec_cardApduResponse_valid` and `State.badBlock`. -/
theorem ceremonyRequestsTakeEffect : Obligations.CeremonyRequestsTakeEffect := by
  refine ⟨?commands, ?selects, ?approves, ?repeats⟩
  case commands =>
    intro s t v x rt arr p b
    refine ⟨?start, ?step, ?cancel, ?status⟩
    case start =>
      intro h _ hlen hmax hstamp hd hzero hlow hhigh hnone hlife hparams hreg
      exact completes rfl h rfl (doCeremonyStart_opens hlen hmax hstamp hd hzero hlow hhigh hnone hlife hparams hreg)
    case step =>
      intro a info r q h hchecks hfree hsound hatr e w hadopt
      exact staysInFlight rfl h rfl (doCeremonyStep_selects hchecks hfree hsound hatr hadopt)
    case cancel =>
      intro c h hx hlen hcer hnumber u
      show execCeremonyCancel v x s = _
      rw [execCeremonyCancel, request_arrives h hx _ _ rfl,
        doCeremonyCancel_ends (by simp [hlen]) hcer (by simpa using hnumber), settle_of_done, State.closePart_ok]
      rfl
    case status =>
      intro h hlen
      exact completes rfl h rfl (doCeremonyStatus_reports (by simp [hlen]))
  case selects =>
    intro s card data split fails e c hexch hcer hcard hblock hchar
    have hexch' := State.answered_exch (card := card) hexch
    have hcer' : (s.answered card).cus.cer = some c := State.answered_cer.trans hcer
    refine ⟨fun hstage => ?_, fun hstage => ?_⟩
    · rw [exec_cardApduResponse_valid hblock hchar]
      simp only [State.cardResponse, hexch', hcer', hcard, hstage]
      simp [State.answered]
    · rw [exec_cardApduResponse_valid hblock hchar]
      simp only [State.cardResponse, hexch', hcer', hcard, hstage]
      have hks : (s.answered card).ks = s.ks := State.answered_same.1
      rw [State.challenge_congr hks]
      simp [State.answered, State.goodBlock, State.mapCus]
  case approves =>
    intro s card data split fails e c l i r hexch hcer hcard hblock hchar hstage henrol hchecks hcomp htime hlive hreg d hopen
    subst hcard
    obtain ⟨hks, hph, hlive', htam, -⟩ := State.answered_same (s := s) (card := e.card)
    have hexch' := State.answered_exch (card := e.card) hexch
    have hadds : (s.answered e.card).approvedBy c { e with bad := 0 } i r l = d := State.approvedBy_congr hph c e i r l
    have hsigned := State.cardResponse_signed hexch' (State.answered_cer.trans hcer) rfl hstage
      (by rw [State.cardChecks_congr hks]; exact hchecks) hcomp (by rw [State.overdue_congr hph]; exact htime) split fails
    obtain ⟨hd, hnone, hoff⟩ := State.endStep_counts (c := c) (i := i) (r := r) hexch' (by rw [hlive']; exact hlive) henrol
      (by rw [State.regs_congr hks]; exact hreg) (by rw [hadds, State.approved_congr htam]; exact hopen) split fails
    refine ⟨_, by rw [exec_cardApduResponse_valid hblock hchar, hsigned], hd.trans (congrArg some hadds), hnone, hoff⟩
  case repeats =>
    intro s card data sw split fails e hexch hcard hblock q w
    have hbad : exec (.cardApduResponse card data sw split fails) s = .next (s.badBlock card).pump := by
      show execCardApduResponse card data sw split fails s = _
      simp [execCardApduResponse, hblock]
    rw [hbad]
    refine ⟨fun hmore => outcome_pump (State.badBlock_again hexch hcard hmore),
      fun hmore => outcome_pump (State.badBlock_fails hexch hcard hmore)⟩

end Sys2Proof.Machine
end

section
/-! PROOFS. The commands on loop inputs (R483, R495-R500). -/

namespace Sys2Proof.Machine

set_option Elab.async false

section
variable {t : State} {rq : Rq} {i : Nat}

/-- The sender may name the loop, whose domain is on and whose front end is sound (R496, R500, R505). -/
structure LoopReady (t : State) (rq : Rq) (i : Nat) : Prop where
  index  : i < 8
  sound  : t.pow.loopFail = false
  stays  : ∀ l ∈ t.live, l.job ≠ .domainOff 7
  on     : t.pow.loopOn = true
  mine   : ∀ n, rq.route.tenant = some n → (t.loop i).slice = n

theorem LoopReady.passes (h : LoopReady t rq i) : firstFail (t.loopChecks rq i) = none := by
  have hindex : decide (7 < i) = false := by have := h.index; simp; omega
  have hstays : t.live.any (fun l => l.job == .domainOff 7) = false := by simpa using h.stays
  rw [State.loopChecks, hindex, h.on, hstays, h.sound]
  cases hn : rq.route.tenant with
  | none => simp
  | some n => simp [h.mine n hn]

/-- A loop that is measured and has a result goes on with it. -/
theorem withResult_of {l : Loop} {r : Result} (hw : l.wiring ≠ 0) (hr : l.result = some r) (f : Result → Act) :
    Act.withResult t l f = f r := by
  cases hwiring : l.wiring with
  | zero => exact absurd hwiring hw
  | succ n => simp [Act.withResult, hwiring, hr]

theorem doLoopRead_reads {r : Result} (h : LoopReady t rq (at8 rq.body 0)) (hlen : rq.body.length = 4)
    (hzero : zeroAt rq.body 1 3 = true) (hi : t.ph.issuing = true) (hw : (t.loop (at8 rq.body 0)).wiring ≠ 0)
    (hr : (t.loop (at8 rq.body 0)).result = some r) : doLoopRead rq t =
      .done .ok 0 (t.loopBody (t.loop (at8 rq.body 0)) (at8 rq.body 0) r []) t := by
  unfold doLoopRead
  dsimp only
  rw [guard_none ?checks, withResult_of hw hr]
  case checks => simp [needLength, hlen, needStamp_issuing hi, needZero, hzero, h.passes]

/-- LOOP.REPORT with the dual signature is a statement over the report body of the loop as it was at acceptance (R498). -/
theorem doLoopReport_statement {r : Result} (h : LoopReady t rq (at8 rq.body 0)) (hlen : rq.body.length = 20)
    (hi : t.ph.issuing = true) (hd : t.pow.drbgStop = false) (hsel : at8 rq.body 1 = 0) (hk : fld rq.body 2 2 = 0)
    (hkept : rq.loop = some (t.loop (at8 rq.body 0))) (hw : (t.loop (at8 rq.body 0)).wiring ≠ 0)
    (hr : (t.loop (at8 rq.body 0)).result = some r) : doLoopReport rq t =
      t.statement rq (t.loopBody (t.loop (at8 rq.body 0)) (at8 rq.body 0) r (rq.body.drop 4)) := by
  unfold doLoopReport
  dsimp only
  rw [guard_none ?checks, hkept, Option.getD_some, withResult_of hw hr, signReport, if_pos hsel]
  case checks =>
    simp [needLength, hlen, needStamp_issuing hi, State.needRandom, hd, h.passes, selectorChecks, hsel, hk]

theorem doLoopHart_waits (h : LoopReady t rq (at8 rq.body 0)) (hlen : rq.body.length = 4 + at8 rq.body 3)
    (hw : (t.loop (at8 rq.body 0)).wiring ≠ 0) (hhart : (t.loop (at8 rq.body 0)).hart = true) (haddr : at8 rq.body 1 ≤ 15)
    (hcmd : at8 rq.body 2 ∈ passThrough) (hfree : ∀ l ∈ t.live, l.job ≠ .hart (at8 rq.body 0)) : doLoopHart rq t =
      .park (.hart (at8 rq.body 0)) (if (t.loop (at8 rq.body 0)).tx.isSome then t
        else t.sendHart (at8 rq.body 0) ⟨at8 rq.body 1, at8 rq.body 2, true⟩ (rq.body.drop 4)) := by
  have hidle : t.live.any (fun l => l.job == .hart (at8 rq.body 0)) = false := by simpa using hfree
  unfold doLoopHart
  dsimp only
  rw [guard_none ?checks]
  case checks => simp [hlen, h.passes, hw, hhart, haddr, hcmd, hidle]

theorem doLoopAssign_assigns (h : LoopReady t rq (at8 rq.body 0)) (hlen : rq.body.length = 24)
    (hzero : zeroAt rq.body 5 1 = true) (hzero' : zeroAt rq.body 20 4 = true) (hgood : assignBad rq.body = false) :
    doLoopAssign rq t = .done .ok 0 []
      ((t.setLoop (at8 rq.body 0) ((t.loop (at8 rq.body 0)).assign rq.body)).nextHart (at8 rq.body 0)) := by
  unfold doLoopAssign
  dsimp only
  rw [guard_none ?checks]
  case checks => simp [needLength, hlen, needZero, hzero, hzero', hgood, h.passes]

theorem doLoopPower_switches (hlen : rq.body.length = 4) (hzero : zeroAt rq.body 1 3 = true) (hmax : at8 rq.body 0 ≤ 1) :
    doLoopPower rq t = switchLoops rq (at8 rq.body 0 == 1) t := by
  rw [doLoopPower, guard_none ?checks]
  case checks => simp [needLength, hlen, needZero, hzero, hmax]

end

/-- The state already in force completes at once. -/
theorem switchLoops_same {t : State} {rq : Rq} {on : Bool} (hop : rq.op = .loopPower) (hidle : t.switching 7 = false)
    (hsame : t.pow.loopOn = on) : switchLoops rq on t = .done .ok 0 [] t := by
  simp [switchLoops, hidle, hsame, stateReply, hop]

/-- A switch of the domain waits; one that switches off ends the LOOP.HART commands that wait (R500). -/
theorem switchLoops_waits {t : State} {rq : Rq} {on : Bool} (hdiff : t.pow.loopOn ≠ on) : switchLoops rq on t =
    .park (if on then .domainOn 7 else .domainOff 7) (if on then t else t.dropHart) := by
  have hne : (t.pow.loopOn == on) = false := by simpa using hdiff
  cases on <;> simp [switchLoops, hne]

/-- Settles O41: each command by its own lemma above. -/
theorem loopCommandsTakeEffect : Obligations.LoopCommandsTakeEffect := by
  intro s t v x rt arr p b i hindex hsound hstays
  refine ⟨fun hon hmine => ?commands, fun h hlen hzero hmax hidle => ?power⟩
  case commands =>
    have ready : ∀ o, LoopReady t (t.request? rt p arr o x) (at8 b 0) := fun o => ⟨hindex, hsound, hstays, hon, hmine⟩
    refine ⟨fun r h hlen hzero hi hw hr => ?_, fun r h hlen hi hd hsel hk hw hr hdual hv hm => ?_,
      fun h hlen hw hhart haddr hcmd hfree => ?_, fun h hlen hzero hzero' hgood => ?_⟩
    · exact completes rfl h rfl (doLoopRead_reads (ready _) (by simp [hlen]) hzero hi hw hr)
    · have hkept : (t.request? rt p arr .loopReport x).loop = some (t.loop (at8 b 0)) := by
        rw [at8_drop]; rfl
      exact completes rfl h rfl ((doLoopReport_statement (ready _) (by simp [hlen]) hi hd hsel hk hkept hw hr).trans
        (statement_verifies _ hdual hm hv))
    · exact staysInFlight rfl h rfl (doLoopHart_waits (ready _) hlen hw hhart haddr hcmd hfree)
    · exact completes rfl h rfl (doLoopAssign_assigns (ready _) (by simp [hlen]) hzero hzero' hgood)
  case power =>
    have hswitch := doLoopPower_switches (t := t) (rq := t.request? rt p arr .loopPower x) (by simp [hlen]) hzero hmax
    refine ⟨fun hsame => completes rfl h rfl (hswitch.trans (switchLoops_same rfl hidle hsame)), fun hdiff => ?_⟩
    have hwaits := hswitch.trans (switchLoops_waits hdiff)
    simp only [beq_iff_eq] at hwaits
    exact staysInFlight rfl h rfl hwaits

end Sys2Proof.Machine
end

section
/-! PROOFS. The events of loop inputs (R485-R494, R505-R507): windows, thresholds, HART transactions, limits and faults. -/

namespace Sys2Proof.Machine

set_option Elab.async false

/-! ### Loops through events -/

/-- A loop is read from the loop table alone. -/
theorem State.loop_of_loops {s t : State} (h : s.loops = t.loops) (j : Nat) : s.loop j = t.loop j := by
  simp only [State.loop, h]

/-- Two states whose loops agree but for the event bits of loop `i`. -/
def State.RungAt (i : Nat) (s t : State) : Prop :=
  (∀ j, j ≠ i → t.loop j = s.loop j) ∧ ∃ n, t.loop i = { s.loop i with events := n }

theorem State.RungAt.refl (i : Nat) (s : State) : State.RungAt i s s := ⟨fun _ _ => rfl, _, rfl⟩

/-- An event of a loop sets its bit in LP_EVENT. -/
theorem State.loopEvent_loop (s : State) (i bitNo code : Nat) (detail : List Byte) (j : Nat) :
    (s.loopEvent i bitNo code detail).loop j =
      if j = i then { s.loop i with events := setBit (s.loop i).events bitNo true } else s.loop j := by
  have hloops : (s.loopEvent i bitNo code detail).loops =
      (s.setLoop i { s.loop i with events := setBit (s.loop i).events bitNo true }).loops := by simp [State.loopEvent]
  rw [State.loop_of_loops hloops, State.setLoop_loop]

/-- One more event, or none, of the same loop. -/
theorem State.RungAt.event {i : Nat} {s t : State} (h : State.RungAt i s t) {c : Prop} [Decidable c] (bitNo code : Nat)
    (detail : List Byte) : State.RungAt i s (if c then t.loopEvent i bitNo code detail else t) := by
  obtain ⟨hothers, n, hown⟩ := h
  split
  · refine ⟨fun j hj => ?_, setBit n bitNo true, ?_⟩
    · rw [State.loopEvent_loop, if_neg hj, hothers j hj]
    · rw [State.loopEvent_loop, if_pos rfl, hown]
  · exact ⟨hothers, n, hown⟩

theorem State.windowEvents_rings (s : State) (i : Nat) (l m : Loop) (mean : Int) :
    State.RungAt i s (s.windowEvents i l m mean) :=
  (((((((State.RungAt.refl i s).event _ _ _).event _ _ _).event _ _ _).event _ _ _).event _ _ _).event _ _ _).event _ _ _

/-! ### Windows (R485-R487, R491-R494) -/

/-- Bit 6 of LFLAGS is SATURATED (Table 14-4). -/
theorem Loop.flags_saturated (l : Loop) (mean : Int) (sat : Bool) : bit (l.flags mean sat) 6 = (sat || l.satur) := by
  have h01 (b : Bool) : b01 b ≤ 1 := by cases b <;> decide
  have h0 := h01 (l.lowNext mean)
  have h1 := h01 (l.highNext mean)
  have h2 := h01 (l.faultLow mean)
  have h3 := h01 (l.faultHigh mean)
  have h4 := h01 (l.sumFails mean)
  have h5 := h01 l.mains
  have hval : l.flags mean sat / 2 ^ 6 % 2 = b01 (sat || l.satur) := by
    have h6 := h01 (sat || l.satur)
    unfold Loop.flags
    omega
  rw [bit, hval]
  cases sat || l.satur <;> rfl

/-- LOOP_WINDOW_END of a window whose conversions are complete. -/
theorem exec_loopWindowEnd_closes {s : State} {i st : Nat} {c : Int} {cs : List Int} (hstart : (s.loop i).start = some st)
    (hm : s.measured i = true) (htime : st + (s.loop i).window ≤ s.ph.c) (hlen : (c :: cs).length = 64 * (s.loop i).window) :
    let t := s.closeWindow i st (meanOf (c :: cs)) ((c :: cs).any (fun d => decide ((s.loop i).top ≤ d)))
    exec (.loopWindowEnd i c cs) s = .next (t.windowEvents i (s.loop i) (t.loop i) (meanOf (c :: cs))) := by
  have hgo : (!s.measured i || decide (s.ph.c < st + (s.loop i).window) || (c :: cs).length != 64 * (s.loop i).window) =
      false := by simp [hm, htime, hlen]
  show execLoopWindowEnd i c cs s = _
  simp only [execLoopWindowEnd, hstart, hgo, Bool.false_eq_true, if_false]

/-- The loop that a window leaves. -/
theorem State.closeWindow_loop (s : State) (i st : Nat) (mean : Int) (sat : Bool) :
    (s.closeWindow i st mean sat).loop i = { s.loop i with
      result := some ⟨mean, (s.loop i).window, st, (s.loop i).flags mean sat,
        (s.loop i).expected.map (fun e => (e, (s.loop i).mismatch e mean))⟩
      lowOn := (s.loop i).lowNext mean, highOn := (s.loop i).highNext mean, sumOn := (s.loop i).sumFails mean
      faultLo := (s.loop i).faultLow mean, faultHi := (s.loop i).faultHigh mean
      start := some (st + (s.loop i).window), mains := s.ph.st != .lock, satur := false } := State.setLoop_loop_same ..

theorem State.closeWindow_others (s : State) (i st : Nat) (mean : Int) (sat : Bool) {j : Nat} (h : j ≠ i) :
    (s.closeWindow i st mean sat).loop j = s.loop j := State.setLoop_loop_ne _ _ h

/-- A mean without a fraction is exact (R485). -/
theorem meanOf_exact {convs : List Int} (hne : convs ≠ []) {m : Int} (h : convs.sum = m * convs.length) :
    meanOf convs * convs.length = convs.sum := by
  have hlen : (convs.length : Int) ≠ 0 := by simpa using hne
  have hsum : convs.foldl (· + ·) 0 = convs.sum := List.sum_eq_foldl.symm
  rw [meanOf, hsum, h]
  simp [Int.mul_ediv_cancel m hlen]

/-! ### Thresholds (R494) -/

section
variable (l : Loop) (mean : Int)

theorem Loop.lowNext_off (h : l.low = 0) : l.lowNext mean = false := by simp [Loop.lowNext, h]

theorem Loop.highNext_off (h : l.high = 0) : l.highNext mean = false := by simp [Loop.highNext, h]

variable {l mean}

theorem Loop.lowNext_rises (h : 0 < l.low) (hoff : l.lowOn = false) : l.lowNext mean = true ↔ mean < l.low := by
  simp [Loop.lowNext, hoff, h.ne']

theorem Loop.lowNext_clears (h : 0 < l.low) (hon : l.lowOn = true) :
    l.lowNext mean = false ↔ (l.low : Int) + l.hyst ≤ mean := by
  simp [Loop.lowNext, hon, h.ne']

theorem Loop.highNext_rises (h : 0 < l.high) (hoff : l.highOn = false) : l.highNext mean = true ↔ (l.high : Int) < mean := by
  simp [Loop.highNext, hoff, h.ne']

theorem Loop.highNext_clears (h : 0 < l.high) (hon : l.highOn = true) :
    l.highNext mean = false ↔ mean ≤ (l.high : Int) - l.hyst := by
  simp [Loop.highNext, hon, h.ne']

end

/-! ### HART (R488, R489, R499) -/

/-- A changed entry is found at its address. -/
theorem Loop.setInst_find (l : Loop) (x : Inst) : (l.setInst x).insts.find? (fun e => e.addr == x.addr) = some x := by
  have hbefore : (l.insts.filter (fun e => decide (e.addr < x.addr))).find? (fun e => e.addr == x.addr) = none := by
    rw [List.find?_eq_none]
    intro e he
    have := (List.mem_filter.mp he).2
    simp at this ⊢
    omega
  simp [Loop.setInst, List.find?_append, hbefore]

theorem Loop.inst_addr (l : Loop) (a : Nat) : (l.inst a).addr = a := by
  unfold Loop.inst
  cases h : l.insts.find? (fun e => e.addr == a) with
  | none => rfl
  | some e => simpa using List.find?_some h

/-- An answer to Command 3 fills the entry of its instrument (Table 14-5). -/
theorem State.heard_primary (s : State) (i a : Nat) (st : Byte) (data : List Byte) :
    ((s.heard i a 3 st data).loop i).tx = (s.loop i).tx ∧
    ((s.heard i a 3 st data).loop i).insts.find? (fun e => e.addr == a) =
      some ⟨a, st.toNat, at8 data 4, fld data 5 4, fld data 0 4, true, s.ph.c, 0, ((s.loop i).inst a).uid⟩ := by
  have hentry : ((s.loop i).inst a).answered 3 st.toNat data s.ph.c =
      ⟨a, st.toNat, at8 data 4, fld data 5 4, fld data 0 4, true, s.ph.c, 0, ((s.loop i).inst a).uid⟩ := by
    simp [Inst.answered, Loop.inst_addr]
  have hfind := (s.loop i).setInst_find (((s.loop i).inst a).answered 3 st.toNat data s.ph.c)
  rw [hentry] at hfind
  unfold State.heard
  rw [State.setLoop_loop_same, hentry]
  split <;> exact ⟨rfl, hfind⟩

section
variable {s : State} {i a c : Nat} {e : HartEnd}

theorem exec_hartTransaction_ends {t : HartTx} (htx : (s.loop i).tx = some t) :
    exec (.hartTransaction i t.addr t.command e) s =
      .next (((s.setLoop i { s.loop i with tx := none }).endHart i t e).nextHart i) := by
  show execHartTransaction i t.addr t.command e s = _
  simp [execHartTransaction, htx]

theorem exec_hartTransaction_other (h : ∀ t, (s.loop i).tx = some t → t.addr ≠ a ∨ t.command ≠ c) :
    exec (.hartTransaction i a c e) s = .next s := by
  show execHartTransaction i a c e s = _
  cases htx : (s.loop i).tx with
  | none => simp [execHartTransaction, htx]
  | some t => rcases h t htx with h | h <;> simp [execHartTransaction, htx, h]

/-- An answer to the scan enters the entry of its instrument (R489). -/
theorem State.endHart_scan (hscan : (s.loop i).scans a = true) (r st : Byte) (data : List Byte) :
    s.endHart i ⟨a, c, false⟩ (.answer r st data) = s.heard i a c st data := by
  simp [State.endHart, hscan, State.scan]

/-- A command passed through to an address that no scan asks ends its LOOP.HART (R499). -/
theorem State.endHart_pass {l : Live} {w : State} (hscan : (s.loop i).scans a = false)
    (hlive : s.takeLive (fun l => l.job == .hart i) = some (l, w)) :
    s.endHart i ⟨a, c, true⟩ e = w.complete l.rq false .ok 0 (hartReply e) := by
  have hevr : w.evr = s.evr := by obtain ⟨-, -, rfl⟩ := takeLive_some hlive; rfl
  have hown : s.finish (fun l => l.job == .hart i) (fun _ s => .done .ok 0 (hartReply e) s) =
      w.complete l.rq false .ok 0 (hartReply e) := by
    simp [State.finish, hlive, hevr]
  rw [← hown]
  cases e <;> simp [State.endHart, hscan]

end

/-! ### Front-end faults (R505) -/

/-- A change of every loop reaches the eight loops there are. -/
theorem State.mapLoops_loop (s : State) (f : Nat → Loop → Loop) {j : Nat} (hj : j < 8) :
    (s.mapLoops f).loop j = f j (s.loop j) := by
  have hfold (n : Nat) : ((List.range n).foldl (fun s i => s.setLoop i (f i (s.loop i))) s).loop j =
      if j < n then f j (s.loop j) else s.loop j := by
    induction n with
    | zero => rfl
    | succ n ih =>
      rw [List.range_succ, List.foldl_append, List.foldl_cons, List.foldl_nil, State.setLoop_loop, ih]
      by_cases hjn : j = n
      · subst hjn; rw [if_pos rfl, if_pos (Nat.lt_succ_self j), ih, if_neg (Nat.lt_irrefl j)]
      · rw [if_neg hjn]
        exact if_congr (by omega) rfl rfl
  exact (hfold 8).trans (if_pos hj)

/-- A request in flight that waits for a HART transaction. -/
def Live.harts (l : Live) : Bool :=
  match l.job with
  | .hart _ => true
  | _ => false

/-- Requests taken out of flight one by one: none of their kind is left. -/
theorem State.foldl_erase_filter {q : Live → Bool} {g : State → Live → State}
    (hg : ∀ s l, (g s l).live.filter q = (s.live.erase l).filter q) (ls : List Live) (s : State)
    (h : s.live.filter q = ls) : (ls.foldl g s).live.filter q = [] := by
  induction ls generalizing s with
  | nil => exact h
  | cons l ls ih =>
    refine ih _ ?_
    rw [hg]
    exact (List.erase_filter ..).symm.trans (by rw [h, List.erase_cons_head])

theorem State.failHart_of (s : State) : s.failHart = (s.live.filter Live.harts).foldl
    (fun s l => { s with live := s.live.erase l }.complete l.rq false .fault 0x00F7 [])
    (s.mapLoops (fun _ l => { l with tx := none, todo := [], polled := false })) := rfl

theorem State.failHart_live (s : State) : s.failHart.live.filter Live.harts = [] := by
  rw [State.failHart_of]
  refine State.foldl_erase_filter (fun s l => ?_) _ _ (by simp)
  exact State.complete_live_filter (fun l hl hjob => by simp [Live.harts, hjob] at hl) _ _ _ _ _ _

theorem State.failHart_loops (s : State) :
    s.failHart.loops = (s.mapLoops (fun _ l => { l with tx := none, todo := [], polled := false })).loops := by
  rw [State.failHart_of, State.foldl_loops (by simp)]

/-- A failing front end stops every window and every HART transfer. -/
theorem State.frontEndFault_stops (s : State) : s.frontEndFault.pow.loopFail = true ∧
    (∀ j, j < 8 → (s.frontEndFault.loop j).start = none ∧ (s.frontEndFault.loop j).tx = none) ∧
    ∀ l ∈ s.frontEndFault.live, ∀ j, l.job ≠ .hart j := by
  refine ⟨?_, fun j hj => ?_, fun l hl j hjob => ?_⟩
  · have hpow : s.frontEndFault.pow = ((s.mapPow (fun p => { p with loopFail := true })).abandonWindows).failHart.pow := by
      simp [State.frontEndFault]
    rw [hpow, State.failHart_of, State.foldl_pow (by simp)]
    simp [State.abandonWindows]
  · have hloops : s.frontEndFault.loops = (((s.mapPow (fun p => { p with loopFail := true })).abandonWindows).failHart.mapLoops
        (fun _ l => { l with events := setBit l.events 3 true })).loops := by simp [State.frontEndFault]
    rw [State.loop_of_loops hloops, State.mapLoops_loop _ _ hj, State.loop_of_loops (State.failHart_loops _),
      State.mapLoops_loop _ _ hj, State.abandonWindows, State.mapLoops_loop _ _ hj]
    exact ⟨rfl, rfl⟩
  · have hlive : s.frontEndFault.live = ((s.mapPow (fun p => { p with loopFail := true })).abandonWindows).failHart.live := by
      simp [State.frontEndFault]
    have hnone := List.filter_eq_nil_iff.mp (State.failHart_live _) l (hlive ▸ hl)
    simp [Live.harts, hjob] at hnone

/-- Settles O42: windows, thresholds, HART, limits and faults by the lemmas of their own sections above. -/
theorem loopEventsTakeEffect : Obligations.LoopEventsTakeEffect := by
  refine ⟨?window, fun convs hne ⟨m, hm⟩ => meanOf_exact hne hm, fun l mean => ⟨Loop.lowNext_rises, Loop.lowNext_clears,
    Loop.highNext_rises, Loop.highNext_clears, l.lowNext_off mean, l.highNext_off mean⟩, fun s i hi => ⟨?pass, ?scan,
    fun a c e h => exec_hartTransaction_other h, ?burst, ?supply, ?fault⟩⟩
  case window =>
    intro s i st c cs hstart hm htime hlen mean
    have hexec := exec_loopWindowEnd_closes hstart hm htime hlen
    obtain ⟨hothers, n, hown⟩ := State.windowEvents_rings
      (s.closeWindow i st (meanOf (c :: cs)) ((c :: cs).any (fun d => decide ((s.loop i).top ≤ d)))) i (s.loop i)
      ((s.closeWindow i st (meanOf (c :: cs)) ((c :: cs).any (fun d => decide ((s.loop i).top ≤ d)))).loop i)
      (meanOf (c :: cs))
    refine ⟨_, _, hexec, by rw [hown, State.closeWindow_loop], rfl, rfl, ?_, rfl, by rw [hown, State.closeWindow_loop],
      by rw [hown, State.closeWindow_loop], by rw [hown, State.closeWindow_loop], fun j hj => ?_⟩
    · rw [Loop.flags_saturated]
      simp [or_comm]
    · rw [hothers j hj, State.closeWindow_others _ _ _ _ _ hj]
  case pass =>
    intro l w a c e htx hscan hlive
    rw [exec_hartTransaction_ends htx, State.endHart_pass (by rw [State.setLoop_loop_same]; exact hscan) hlive]
  case scan =>
    intro a st data htx hscan
    obtain ⟨hnone, hfind⟩ := (s.setLoop i { s.loop i with tx := none }).heard_primary i a st data
    rw [State.setLoop_loop_same] at hnone
    refine ⟨_, ?_, hnone, _, hfind⟩
    rw [exec_hartTransaction_ends htx, State.endHart_scan (by rw [State.setLoop_loop_same]; exact hscan)]
  case burst =>
    intro a hm hhart
    show execHartBurstFrame i a s = _
    simp [execHartBurstFrame, hi, hm, hhart, noOrigin]
  case supply =>
    intro hm hw
    refine ⟨((s.setLoop i { s.loop i with satur := true }).loopEvent i 3 0x0A04
      ([byte i, 3#8] ++ be 4 (Config.eventCurrent s.evr.next))), ?_, ?_, ?_⟩
    · show execLoopSupplyLimit i s = _
      simp [execLoopSupplyLimit, hi, hm, hw]
    · rw [State.loopEvent_loop, if_pos rfl, State.setLoop_loop_same]
    · rw [State.loopEvent_loop, if_pos rfl, State.setLoop_loop_same]
  case fault =>
    intro hon hsound
    refine ⟨_, congrArg Host.Outcome.next (if_pos ?_), s.frontEndFault_stops⟩
    simp [hon, hsound]

end Sys2Proof.Machine
end

section
/-! PROOFS. Tamper sources (chapter 15): firing and clearing, the LOCK response, and the restart of the command processor. -/

namespace Sys2Proof.Machine

set_option Elab.async false

/-! ### Bits of the source masks -/

theorem bit_setBit (n i j : Nat) (v : Bool) : bit (setBit n i v) j = if j = i then v else bit n j := by
  simp only [bit_eq_testBit, testBit_setBit]

/-! ### A source that fires (R510, R522) -/

@[simp] theorem State.tick_tam (s : State) (n : Nat) : (s.tick n).tam = s.tam := rfl

/-- A module that is not on its way to DECOMMISSIONED goes on. -/
theorem State.endDecom_none {s : State} (h : s.tam.decom = none) : s.endDecom = s := by simp [State.endDecom, h]

/-- What a firing marks before its response: the source asserted and latched, and named in the LAST_ fields. -/
def State.marked (s : State) (i resp : Nat) : State :=
  { s with tam := { s.tam with
    asserted := setBit s.tam.asserted i true, latched := setBit s.tam.latched i true, lastSrc := i, lastResp := resp
    lastStamp := s.ph.stamp } }

section
variable {s : State} {i n : Nat} {cut : Bool}

theorem State.assertSource_fires (hfused : bit s.tam.fused i = false) (hasserted : bit s.tam.asserted i = false) :
    s.assertSource i = (s.marked i (s.responseOf i)).respond i (s.responseOf i) := by
  simp only [State.assertSource, hfused, hasserted, Bool.or_self, Bool.false_eq_true, if_false, State.fireSource]
  rfl

theorem State.assertSource_not (h : bit s.tam.fused i = true ∨ bit s.tam.asserted i = true) : s.assertSource i = s := by
  rcases h with h | h <;> simp [State.assertSource, h]

/-- A source that fires with main power takes its response (R510). -/
theorem exec_sourceFires_powered (hi : i < 16) (hmain : s.pow.main = true)
    (hend : ((s.tick n).assertSource i).tam.decom = none) :
    exec (.sourceFires i ⟨n, cut⟩) s = .next ((s.tick n).assertSource i) := by
  have hlow : ¬ 16 ≤ i := by omega
  show execSourceFires i ⟨n, cut⟩ s = _
  simp only [execSourceFires, hlow, if_false]
  rw [if_pos (by simpa using hmain), State.endDecom_none hend, ite_self]

/-- A source that is fused or still asserted does not fire: the ticks alone are counted. -/
theorem exec_sourceFires_not (hi : i < 16) (h : bit s.tam.fused i = true ∨ bit s.tam.asserted i = true)
    (hdecom : s.tam.decom = none) : exec (.sourceFires i ⟨n, cut⟩) s = .next (s.tick n) := by
  have hnot : (s.tick n).assertSource i = s.tick n := State.assertSource_not h
  cases hmain : s.pow.main with
  | true =>
    have hend : ((s.tick n).assertSource i).tam.decom = none := by rw [hnot]; exact hdecom
    rw [exec_sourceFires_powered hi hmain hend, hnot]
  | false =>
    have hlow : ¬ 16 ≤ i := by omega
    show execSourceFires i ⟨n, cut⟩ s = _
    simp only [execSourceFires, hlow, if_false]
    rw [if_neg (by simp [hmain]), if_pos (by rcases h with h | h <;> simp [h])]

end

/-- A response changes no tamper state but the times at which events were recorded last. -/
theorem State.tamperEvent_tam (s : State) (i resp : Nat) : ∃ q, (s.tamperEvent i resp).tam = { s.tam with quiet := q } := by
  unfold State.tamperEvent
  dsimp only
  split
  · exact ⟨_, by simp [State.recordFiring]; rfl⟩
  · split
    · exact ⟨_, by simp; rfl⟩
    · exact ⟨_, by simp [State.recordFiring]; rfl⟩

/-! ### LOCK (R513, R517) -/

/-- Every request waits for the restart but repeats that wait for an original. -/
theorem State.awaitRestart_jobs (s : State) : ∀ l ∈ s.awaitRestart.live, l.job = .again ∨ l.job = .restart := by
  intro l hl
  obtain ⟨m, -, rfl⟩ := List.mem_map.mp hl
  cases h : m.job <;> simp [h]

/-- A transition writes the new life-cycle state and no other tamper state. -/
theorem State.toLife_tam (s : State) (new : Life) (cause origin : Nat) :
    (s.toLife new cause origin).tam = { s.tam with life := new } := by simp [State.toLife]

/-- What LOCK leaves of a module in SERVICE (Table 15-2). -/
theorem State.lockDown_service {s : State} (h : s.tam.life = .service) : s.lockDown.tam.life = .locked ∧
    s.lockDown.recs = [] ∧ s.lockDown.ks.cache = [] ∧ s.lockDown.mult.acc = List.replicate 16 0 ∧
    s.lockDown.mult.scratch = [] ∧ s.lockDown.tam.restart = true ∧ s.lockDown.tam.decom = s.tam.decom := by
  have hlife : ({ s.endCeremony 2 noOrigin with recs := [] }.zeroEngines.tam.life == .service) = true := by simp [h]
  simp only [State.lockDown, hlife, if_true]
  refine ⟨?_, ?_, ?_, ?_, ?_, rfl, ?_⟩
  · show (State.toLife _ _ _ _).tam.life = _
    rw [State.toLife_tam]
  · simp
  · simp [State.zeroEngines]
  · simp [State.zeroEngines]
  · simp [State.zeroEngines]
  · show (State.toLife _ _ _ _).tam.decom = _
    rw [State.toLife_tam]
    simp

/-- A request in flight that is answered is in flight no more. -/
theorem State.answerLocked_filter (s : State) (l : Live) :
    (s.answerLocked l).live.filter Live.waitsRestart = (s.live.erase l).filter Live.waitsRestart :=
  State.complete_live_filter (fun l hl hjob => by simp [Live.waitsRestart, hjob] at hl) _ _ _ _ _ _

@[simp] theorem State.answerLocked_tam (s : State) (l : Live) : (s.answerLocked l).tam = s.tam := by
  simp [State.answerLocked]

/-- The state in which the restart answers the requests in flight. -/
def State.restarted (s : State) : State := s.mapTam (fun t => { t with restart := false })

theorem exec_commandProcessorRestart_answers {s : State} (h : s.tam.restart = true) : exec .commandProcessorRestart s =
    .next ((s.restarted.live.filter Live.waitsRestart).foldl State.answerLocked s.restarted) :=
  congrArg Host.Outcome.next (if_pos h)

/-! ### The statements -/

/-- Settles O13: `State.assertSource_fires` with the response RECORD, `exec_sourceFires_not`, and the bits of a mask. -/
theorem sourcesFireAndClear : Obligations.SourcesFireAndClear := by
  refine ⟨?fires, fun s i n cut hi h hdecom => exec_sourceFires_not hi h hdecom, ?clears⟩
  case fires =>
    intro s i n cut hi hmain hfused hasserted hresp hdecom
    have hresp' : (s.tick n).responseOf i = 0 := hresp
    have hfire : (s.tick n).assertSource i = ((s.tick n).marked i 0).tamperEvent i 0 := by
      rw [State.assertSource_fires (s := s.tick n) hfused hasserted, hresp']
      rfl
    obtain ⟨q, htam⟩ := ((s.tick n).marked i 0).tamperEvent_tam i 0
    have hend : ((s.tick n).assertSource i).tam.decom = none := by rw [hfire, htam]; exact hdecom
    refine ⟨_, exec_sourceFires_powered hi hmain hend, ?_⟩
    rw [hfire, htam]
    simp [State.marked, bit_setBit]
  case clears =>
    intro s i h
    refine ⟨s.mapTam (fun t => { t with asserted := setBit t.asserted i false }), ?_, ?_, rfl, fun j hj => ?_⟩
    · show execSourceClears i s = _
      rw [execSourceClears, if_pos h]
    · exact (bit_setBit _ _ _ _).trans (if_pos rfl)
    · exact (bit_setBit _ _ _ _).trans (if_neg hj)

/-- Settles O14: the LOCK response by `State.lockDown_service`, the restart by `exec_commandProcessorRestart_answers`. -/
theorem aLockResponseAndItsRestart : Obligations.ALockResponseAndItsRestart := by
  refine ⟨?lock, fun s h => ⟨_, exec_commandProcessorRestart_answers h, ?_, ?_, ?_⟩⟩
  case lock =>
    intro s i n cut hi hmain hfused hasserted hlife hresp hdecom
    have hresp' : (s.tick n).responseOf i = 2 := by
      rw [State.responseOf, State.tick_tam, hlife, hresp]
      rfl
    have hfire : (s.tick n).assertSource i = (((s.tick n).marked i 2).tamperEvent i 2).alarm.lockDown := by
      rw [State.assertSource_fires (s := s.tick n) hfused hasserted, hresp']
      simp [State.respond]
    obtain ⟨q, htam⟩ := ((s.tick n).marked i 2).tamperEvent_tam i 2
    have htam' : (((s.tick n).marked i 2).tamperEvent i 2).alarm.tam =
        { ((s.tick n).marked i 2).tam with quiet := q } := by rw [State.alarm_tam, htam]
    obtain ⟨hlocked, hrecs, hcache, hacc, hscratch, hrestart, hend⟩ :=
      State.lockDown_service (s := (((s.tick n).marked i 2).tamperEvent i 2).alarm) (by rw [htam']; exact hlife)
    rw [htam'] at hend
    refine ⟨_, exec_sourceFires_powered hi hmain (by rw [hfire, hend]; exact hdecom), ?_⟩
    rw [hfire]
    exact ⟨hlocked, hrecs, hcache, hacc, hscratch, hrestart, State.awaitRestart_jobs _⟩
  · rw [State.foldl_tam (by simp)]; rfl
  · rw [State.foldl_tam (by simp)]; rfl
  · intro l hl hjob
    have hnone := List.filter_eq_nil_iff.mp (State.foldl_erase_filter State.answerLocked_filter _ s.restarted rfl) l hl
    simp [Live.waitsRestart, hjob] at hnone

end Sys2Proof.Machine
end

section
/-! PROOFS. The event recorder (chapter 16): the hash chain, and an entry of flash whose two copies have both failed before. The
state of a record may hold such an entry, and the next copy that fails, of whatever entry, makes it leave with an EV_LOG_BREAK,
so that NEXT moves on. -/

namespace Sys2Proof.Machine

set_option Elab.async false

/-! ### The chain (R546) -/

/-- Writing an entry is the change of the recorder, and the notice of its class. -/
theorem State.write_evr (s : State) (code origin : Nat) (d : List Byte) :
    let bytes := be 5 s.evr.next ++ s.ph.stamp ++ be 2 code ++ [byte origin] ++ padTo 8 d
    let staged := s.evr.staged ++ [⟨s.evr.next, bytes, s.evr.head, true, true⟩]
    (s.write code origin d).evr = { s.evr with
      next := s.evr.next + 1, head := sha256 (s.evr.head ++ bytes), staged := staged
      flash := trimFlash staged s.evr.flash } := by
  unfold State.write
  dsimp only
  split <;> simp

/-- Settles O16: the recorder by `State.write_evr`, all else by the frame of a write. -/
theorem anEntryExtendsTheChain : Obligations.AnEntryExtendsTheChain := by
  refine ⟨fun _ => rfl, fun s code origin d => ?_⟩
  dsimp only
  rw [State.write_evr]
  exact ⟨rfl, rfl, rfl, by simp⟩

/-! ### The counterexample to O15 -/

/-- An entry with one byte of content, its copies in flash good or not. -/
def keptEntry (seq : Nat) (good : Bool) : Entry := ⟨seq, [0#8], [], good, good⟩

/-- The module with two entries in event flash: entry 0 with two good copies, entry 1 with none. -/
def brokenLog : State :=
  { State.reset with evr := { State.reset.evr with flash := [keptEntry 0 true, keptEntry 1 false] } }

/-- A failing copy of entry 0 makes entry 1 leave, and EV_LOG_BREAK takes a sequence number. -/
theorem brokenLog_breaks : (brokenLog.breakEntry 0 false).evr.next = brokenLog.evr.next + 1 := by decide

/-- Refutes O15: the clause on one failing flash copy asks for an unchanged NEXT, and in `brokenLog` another entry has lost both
its copies already, so that EV_LOG_BREAK is recorded. -/
theorem not_logCommandsTakeEffect : ¬ Obligations.LogCommandsTakeEffect := by
  rintro ⟨-, -, hbreak⟩
  obtain ⟨t, hexec, hnext, -, -⟩ := hbreak brokenLog (keptEntry 0 true) false (by decide) rfl rfl
  have ht : brokenLog.breakEntry 0 false = t := Host.Outcome.next.inj hexec
  rw [← ht, brokenLog_breaks] at hnext
  omega

end Sys2Proof.Machine
end

section
/-! PROOFS. Device and firmware commands (R519, R576, R579-R581, R588). -/

namespace Sys2Proof.Machine

set_option Elab.async false

/-! ### SYS and TAMPER commands -/

section
variable {t : State} {rq : Rq}

theorem doSysReset_arms (hlen : rq.body.length = 4) (hkind : at8 rq.body 0 = 2) (hzero : zeroAt rq.body 1 3 = true) :
    doSysReset rq t = .done .ok 0 [] (t.mapPow (fun p => { p with armed := some 4 })) :=
  guard_none (by simp [needLength, hlen, needZero, hzero, hkind])

theorem doSysSelftest_runs (fails : List TestFail) (hlen : rq.body.length = 4) (hzero : zeroAt rq.body 2 2 = true)
    (hunits : bit (fld rq.body 0 2) 15 = false) :
    let mine := fails.filter (fun f => decide (f.unit < 15) && bit (fld rq.body 0 2) f.unit)
    doSysSelftest fails rq t = .done .ok 0 (be 2 (failedMask mine)) (t.runTests rq.route.origin mine) :=
  guard_none (by simp [needLength, hlen, needZero, hzero, hunits])

/-- The state with the responses and options of a TAMPER.CONFIG. -/
def State.configured (t : State) (b : List Byte) : State :=
  t.mapTam (fun v => { v with response := configResponses b, options := fld b 16 2 })

theorem doTamperConfig_configures (hlen : rq.body.length = 20) (hzero : zeroAt rq.body 18 2 = true)
    (hchecks : firstFail (t.configChecks rq.body) = none) : doTamperConfig rq t = .done .ok 0 []
      (((t.configured rq.body).event 0x0B02 rq.route.origin ((sha256 (t.configured rq.body).tamperView0).take 8)).evaluate
        rq.route.origin) :=
  guard_none (by simp [needLength, hlen, needZero, hzero, hchecks])

end

/-- A run in which no unit fails writes the result PASSED alone, when none has failed since the start (R575). -/
theorem State.runTests_nil {s : State} (hrun : s.pow.halted = false) (hfailed : s.pow.failed = []) (origin : Nat) :
    s.runTests origin [] = { s with pow := { s.pow with selftest := 0 } }.evaluate origin := by
  have hpow : Power.result { s.pow with failed := s.pow.failed } = { s.pow with selftest := 0 } := by
    simp [Power.result, hrun, hfailed]
  simp only [State.runTests, List.filter_nil, List.foldl_nil, List.map_nil, List.append_nil, State.mapPow]
  rw [hpow]

/-- Settles O7: each command by its own lemma, the run without failures by `State.runTests_nil`. -/
theorem deviceCommandsTakeEffect : Obligations.DeviceCommandsTakeEffect := by
  refine ⟨fun s t v x rt arr p => ⟨fun h hlen hkind hzero => ?_, fun fails h hlen hzero hunits => ?_,
    fun h hlen hzero hchecks => ?_⟩, fun s o hrun hfailed => State.runTests_nil hrun hfailed o⟩
  · exact completes rfl h rfl (doSysReset_arms (by simp [hlen]) (by simpa using hkind) (by simpa using hzero))
  · have hruns := doSysSelftest_runs (t := t) (rq := t.request? rt p arr .sysSelftest x) fails (by simp [hlen])
      (by simpa using hzero) (by simpa using hunits)
    simp only [request?_body, fld_drop] at hruns
    exact completes rfl h rfl hruns
  · have hconfig := doTamperConfig_configures (t := t) (rq := t.request? rt p arr .tamperConfig x) (by simp [hlen])
      (by simpa using hzero) hchecks
    rw [State.configured, request?_body, fld_drop] at hconfig
    exact completes rfl h rfl hconfig

/-! ### Firmware banks (R579, R580) -/

theorem Power.setBank_same (p : Power) (i : Nat) (b : Bank) : (p.setBank i b).bankAt i = b := by
  unfold Power.setBank Power.bankAt
  split <;> rfl

/-- A bank replaced leaves the floor and the choice of the running bank. -/
@[simp] theorem Power.setBank_others (p : Power) (i : Nat) (b : Bank) : (p.setBank i b).floor = p.floor ∧
    (p.setBank i b).running = p.running ∧ (p.setBank i b).otherBank = p.otherBank := by
  unfold Power.otherBank Power.setBank
  split <;> exact ⟨rfl, rfl, rfl⟩

/-- Dropping the image of the bank that is not running invalidates that bank, and the floor stands. -/
theorem State.dropOther_pow (s : State) : (s.dropOther.pow.bankAt s.dropOther.pow.otherBank).valid = false ∧
    s.dropOther.pow.floor = s.pow.floor ∧ s.dropOther.pow.otherBank = s.pow.otherBank := by
  obtain ⟨hfloor, -, hother⟩ := s.pow.setBank_others s.pow.otherBank (s.pow.bankAt s.pow.otherBank).invalid
  have hother' : s.dropOther.pow.otherBank = s.pow.otherBank := hother
  have hbank : s.dropOther.pow.bankAt s.pow.otherBank = (s.pow.bankAt s.pow.otherBank).invalid := Power.setBank_same _ _ _
  exact ⟨by rw [hother', hbank]; rfl, hfloor, hother'⟩

/-- The checks on an image do not look at the banks. -/
theorem State.imageChecks_dropOther (s : State) (b : List Byte) : s.dropOther.imageChecks b = s.imageChecks b := by
  obtain ⟨-, hfloor, -⟩ := s.dropOther_pow
  simp only [State.imageChecks, hfloor]
  rfl

section
variable {t : State} {rq : Rq} {b : List Byte}

/-- FW.LOAD that reads its image goes on with it (R580). The command is the manager's, whose descriptor may name index 0. -/
theorem doFwLoad_loads (hown : rq.owner = 0xFF) (hlen : rq.body.length = 16) (hd : t.pow.drbgStop = false)
    (hdesc : firstFail (descCheck rq.body 0 1 1) = none) (hin : t.input rq 0 (descAt rq.body 0) = .data b) :
    doFwLoad rq t = loadImage rq b (t.didInput rq (descAt rq.body 0)) := by
  have hchecks : firstFail (needLength rq 16 ++ t.needRandom ++ t.needDesc rq 0 1) = none := by
    have hindices : t.indices rq.owner = 1 := by rw [hown]; rfl
    rw [State.needDesc, hindices]
    simp [needLength, hlen, State.needRandom, hd, hdesc]
  simp only [doFwLoad, hchecks, hin]

theorem loadImage_takes (hchecks : firstFail (t.imageChecks b) = none) (hsplit : rq.x.split = false) :
    loadImage rq b t = .done .ok 0 ([byte t.pow.otherBank] ++ be 2 (fld b 4 2) ++ be 2 (fld b 6 2))
      ((t.dropOther.drewDelay.takeImage b).loadEvent rq.route.origin b 0) := by
  have hbank : t.dropOther.drewDelay.pow.otherBank = t.pow.otherBank := t.dropOther_pow.2.2
  simp only [loadImage, State.imageChecks_dropOther, hchecks, twice_agrees hsplit, hbank]

theorem loadImage_below (hform : imageBad b = false) (hkeys : 0x10 ∉ t.ks.gone) (hsigned : imageSigned t.ks.fwKeys b = true)
    (hlow : fld b 6 2 < t.pow.floor) :
    loadImage rq b t = .refuse (t.dropOther.loadEvent rq.route.origin b 0x0133) .policy 0x0133 := by
  have hchecks : firstFail (t.imageChecks b) = some (.policy, 0x0133) := by
    simp [State.imageChecks, firstFail, hform, hkeys, hsigned, hlow]
  simp only [loadImage, State.imageChecks_dropOther, hchecks]

theorem doFwActivate_marks (hlen : rq.body.length = 4) (hzero : zeroAt rq.body 2 2 = true)
    (hok : t.pow.bankOk t.pow.otherBank = true) (hbuild : (t.pow.bankAt t.pow.otherBank).build = fld rq.body 0 2) :
    doFwActivate rq t = .done .ok 0 []
      (t.mapPow (fun p => { p with pendBank := some t.pow.otherBank, armed := some 5 })) :=
  guard_none (by simp [needLength, hlen, needZero, hzero, hok, hbuild])

/-- The image checks after an input has been read are those before. -/
theorem State.imageChecks_didInput (d : Desc) : (t.didInput rq d).imageChecks b = t.imageChecks b := by
  simp [State.imageChecks]

end

/-- Only the manager's ring brings FW.LOAD. -/
theorem fwLoad_owner {s t : State} {v : Via} {rt : Route} {p : List Byte} {arr : Nat × Nat} (x : Ext)
    (h : Arrives s v .fwLoad rt p arr t) : (t.request? rt p arr .fwLoad x).owner = 0xFF := by
  rw [request?_owner, tenant_none_of_level rfl h.opened.level]
  rfl

/-- Settles O8: `doFwLoad_loads` with `loadImage_takes` and `loadImage_below`, and `doFwActivate_marks`. -/
theorem firmwareCommandsTakeEffect : Obligations.FirmwareCommandsTakeEffect := by
  refine ⟨fun s t v x rt arr p => ⟨fun b h hlen hd hdesc hin hchecks hsplit => ?load, fun h hlen hzero hok hbuild => ?activate⟩,
    fun s t v x rt arr p b h hlen hx hd hdesc hin hform hkeys hsigned hlow => ?below⟩
  case load =>
    have hloads := doFwLoad_loads (t := t) (fwLoad_owner x h) (by simp [hlen]) hd hdesc (by simpa using hin)
    rw [loadImage_takes (by rw [State.imageChecks_didInput]; exact hchecks) hsplit] at hloads
    simp only [request?_body, descAt_drop, request?_route, State.didInput_frame] at hloads
    exact completes rfl h rfl hloads
  case activate =>
    exact completes rfl h rfl (doFwActivate_marks (by simp [hlen]) (by simpa using hzero) hok (by simpa using hbuild))
  case below =>
    have hloads := doFwLoad_loads (t := t) (fwLoad_owner x h) (by simp [hlen]) hd hdesc (by simpa using hin)
    rw [loadImage_below hform (by simpa using hkeys) (by simpa using hsigned) (by simpa using hlow)] at hloads
    simp only [request?_body, descAt_drop, request?_route] at hloads
    intro w
    have hpow : (w.complete (t.request? rt p arr .fwLoad x) (w.evr.next != t.evr.next) .policy 0x0133 []).pow =
        (t.didInput (t.request? rt p arr .fwLoad x) (descAt p 16)).dropOther.pow := by
      simp [w, State.loadEvent]
    obtain ⟨hvalid, hfloor, -⟩ := (t.didInput (t.request? rt p arr .fwLoad x) (descAt p 16)).dropOther_pow
    refine ⟨_, ?_, by rw [hpow]; exact hvalid, by rw [hpow, hfloor]; simp, rfl⟩
    show execFwLoad v x s = _
    rw [execFwLoad, request_arrives h hx _ _ rfl, hloads, settle_of_refuse, State.closePart_other (by simp) (by simp)]

end Sys2Proof.Machine
end

section
/-! PROOFS. Power (chapter 17): switches of lane domains, the shutdown warning, the loss and return of main power, readiness. -/

namespace Sys2Proof.Machine

set_option Elab.async false

/-! ### Requests that end -/

/-- A reply takes no request into flight. -/
theorem State.complete_live_length (s : State) (rq : Rq) (ev : Bool) (st : Status) (d : Nat) (b : List Byte) :
    (s.complete rq ev st d b).live.length ≤ s.live.length := by
  have hagain (t : State) (i : Nat) (hdr digest reply : List Byte) (credit : Bool) :
      (t.answerAgain i hdr digest reply credit).live.length ≤ t.live.length := by
    unfold State.answerAgain
    dsimp only
    rw [State.foldl_live (by simp)]
    exact List.length_filter_le _ _
  unfold State.complete
  split
  · simp
  · exact (hagain _ _ _ _ _ _).trans (by simp)

/-- A request that ends leaves fewer in flight. -/
theorem State.finish_shortens {s : State} {p : Live → Bool} {f : Live → State → Act} (h : ∃ l ∈ s.live, p l = true)
    (hf : ∀ l t n rq, ((f l t).settle n rq).live.length ≤ t.live.length) :
    (s.finish p f).live.length < s.live.length := by
  obtain ⟨l, hfind⟩ := Option.isSome_iff_exists.mp (List.find?_isSome.mpr h)
  have hmem := List.mem_of_find?_eq_some hfind
  rw [State.finish_found hfind]
  refine (hf _ _ _ _).trans_lt ?_
  rw [List.length_erase_of_mem hmem]
  exact Nat.sub_lt (List.length_pos_of_mem hmem) Nat.one_pos

theorem settle_done_length (st : Status) (d : Nat) (b : List Byte) (s : State) (n : Nat) (rq : Rq) :
    ((Act.done st d b s).settle n rq).live.length ≤ s.live.length := by
  rw [settle_of_done]
  exact (State.complete_live_length _ _ _ _ _ _).trans (by simp)

/-! ### Switches of lane domains (R568, R570, R596) -/

/-- Naming the cause of a switch changes no job. -/
theorem State.noteCause_live (s : State) (p : Live → Bool) (n : Nat) :
    (s.noteCause p n).live.map (·.job) = s.live.map (·.job) := by
  unfold State.noteCause
  split
  · rfl
  · split
    · rfl
    · rw [List.map_map]
      refine List.map_congr_left fun l _ => ?_
      dsimp only [Function.comp]
      split <;> rfl

/-- As many requests are in flight, and a switch of the domain is among them as before. -/
structure SwitchKept (d : Nat) (s t : State) : Prop where
  length : t.live.length = s.live.length
  here   : (∃ l ∈ s.live, l.switches d = true) → ∃ l ∈ t.live, l.switches d = true

theorem SwitchKept.of_jobs {s t : State} {d : Nat} (h : t.live.map (·.job) = s.live.map (·.job)) : SwitchKept d s t := by
  refine ⟨by simpa using congrArg List.length h, fun ⟨l, hl, hs⟩ => ?_⟩
  have hjob : l.job ∈ t.live.map (·.job) := h ▸ List.mem_map_of_mem hl
  obtain ⟨m, hm, he⟩ := List.mem_map.mp hjob
  exact ⟨m, hm, by simpa [Live.switches, he] using hs⟩

theorem State.domainEvent_kept (s : State) (origin d on : Nat) : SwitchKept d s (s.domainEvent origin d on) :=
  .of_jobs (by rw [State.domainEvent, State.noteCause_live]; simp)

/-- A switch in flight is found among the requests in flight. -/
theorem State.switchOf_mem {s : State} {d : Nat} {l : Live} (h : s.switchOf d = some l) :
    ∃ l ∈ s.live, l.switches d = true := ⟨l, List.mem_of_find?_eq_some h, List.find?_some h⟩

/-- The end of a switch ends its request and leaves the lanes. -/
theorem SwitchKept.endSwitch {s t : State} {d : Nat} {l : Live} (h : SwitchKept d s t) (hl : s.switchOf d = some l)
    (on : Bool) : (t.endSwitch d on).lanes = t.lanes ∧ (t.endSwitch d on).live.length < s.live.length := by
  refine ⟨by simp, ?_⟩
  rw [← h.length]
  exact State.finish_shortens (h.here (State.switchOf_mem hl)) fun _ _ _ _ => settle_done_length _ _ _ _ _ _

section
variable {s : State} {d : Nat} {l : Live} (hd : d ≤ 5) (hl : s.switchOf d = some l)
include hd hl

theorem exec_domainSwitchOffComplete_retired (hjob : l.job = .domainOff d) (hon : (s.lane (d - 2)).on = true)
    (hst : (s.lane (d - 2)).st = .retired) : exec (.domainSwitchOffComplete d) s =
      .next (((s.setLane (d - 2) { s.lane (d - 2) with on := false, gated := false }).domainEvent l.rq.route.origin d
        0).endSwitch d false) := by
  have h7 : d ≠ 7 := by omega
  show execDomainSwitchOffComplete d s = _
  simp [execDomainSwitchOffComplete, hl, hjob, h7, State.offLane, hon, hst]

theorem exec_domainSwitchOnComplete_lane (hjob : l.job = .domainOn d) (hon : (s.lane (d - 2)).on = false) (powered : Bool) :
    exec (.domainSwitchOnComplete d powered) s = .next (if powered then
      ((s.setLane (d - 2) { s.lane (d - 2) with on := true, st := .retired }).domainEvent l.rq.route.origin d
        1).endSwitch d true
    else ((s.event 0x0C04 l.rq.route.origin [byte (5 + d), 1#8]).noteCause (Live.switches d) s.evr.next).finish
      (Live.switches d) (fun _ s => .refuse s .fault 0)) := by
  have h7 : d ≠ 7 := by omega
  show execDomainSwitchOnComplete d powered s = _
  simp [execDomainSwitchOnComplete, hl, hjob, h7, State.powerLane, hon]

end

/-- A lane is read from the lane table alone. -/
theorem State.lane_setLane_event (s : State) (i : Nat) (v : Lane) (origin d on : Nat) :
    ((s.setLane i v).domainEvent origin d on).lane i = v :=
  (State.lane_of_lanes (by simp) i).trans (State.setLane_lane_same s i v)

/-! ### SHUTDOWN_WARNING (R585) and MAIN_POWER_LOST -/

theorem State.copyWindows_same (s : State) : s.copyWindows.ph = s.ph ∧ s.copyWindows.pow = s.pow ∧
    s.copyWindows.ks = s.ks ∧ s.copyWindows.live = s.live := by
  have hstep (t : State) (e : Nat × Chan) : ∀ u, u = (match e.2.backup with
      | none => t
      | some h => t.setChan e.1 { e.2 with flash := h }) → u.ph = t.ph ∧ u.pow = t.pow ∧ u.ks = t.ks ∧ u.live = t.live := by
    rintro u rfl
    split <;> simp
  unfold State.copyWindows
  refine ⟨State.foldl_ph (fun t e => ?_) _ _, State.foldl_pow (fun t e => ?_) _ _, State.foldl_ks (fun t e => ?_) _ _,
    State.foldl_live (fun t e => ?_) _ _⟩
  · exact (hstep t e _ rfl).1
  · exact (hstep t e _ rfl).2.1
  · exact (hstep t e _ rfl).2.2.1
  · exact (hstep t e _ rfl).2.2.2

/-- The state that a shutdown warning persists while a stamp is issued. -/
def State.warnedAt (s : State) (n : Nat) : State := ((s.tick n).mapPow (fun p => { p with warned := true })).persist

theorem State.warnedAt_same (s : State) (n : Nat) : (s.warnedAt n).pow.warned = true ∧ (s.warnedAt n).ph.cp = s.ph.c ∧
    (s.warnedAt n).ph.tp = s.ph.ticks + n ∧ (s.warnedAt n).ks = s.ks ∧ (s.warnedAt n).live = s.live :=
  ⟨rfl, rfl, rfl, rfl, rfl⟩

/-- The record of the warning, and of lost entries, is all that follows. -/
theorem State.warningRecorded_same (s : State) : ∃ t, s.overflowNow.event 0x0C02 noOrigin [] = t ∧ t.pow = s.pow ∧
    t.ph = s.ph ∧ t.ks = s.ks ∧ t.live = s.live := ⟨_, rfl, by simp, by simp, by simp, by simp⟩

theorem exec_shutdownWarning_persists {s : State} {n : Nat} (hmain : s.pow.main = true) (hwarn : s.pow.warned = false)
    (hi : s.ph.issuing = true) : exec (.shutdownWarning n) s =
      .next ((s.warnedAt n).copyWindows.overflowNow.event 0x0C02 noOrigin []) := by
  have hi' : (((s.tick n).mapPow (fun p => { p with warned := true })).ph.issuing) = true := hi
  show execShutdownWarning n s = _
  simp only [execShutdownWarning, hmain, hwarn, Bool.not_true, Bool.or_self, Bool.false_eq_true, if_false, hi', if_true]
  rfl

/-- What is left in the core domain when main power is lost: nothing in flight, no record, no word, no key in the cache. -/
def State.dark (s : State) : State :=
  let t := { s with live := [], recs := [] }.zeroEngines.clearHost.clearTable.clearLoops
  let t := t.mapCus (fun v => { v with
    exch := none, cardA := v.cardA.off, cardB := v.cardB.off, console := v.console.clear })
  let t := { t with vpA := t.vpA.close, vpB := t.vpB.close, wm := ⟨[], []⟩ }
  let t := (t.mapPh Phase.down).mapHp (fun h => { h with linkUp := false, d3hot := false })
  let t := t.mapKs (fun k => { k with eph := none, offer := [] })
  t.mapPow (fun p => { p with main := false, ready := false, starting := none, armed := none })

theorem exec_mainPowerLost {s : State} (hmain : s.pow.main = true) : exec .mainPowerLost s = .next s.dark := by
  show execMainPowerLost s = _
  simp only [execMainPowerLost, hmain, Bool.not_true, Bool.false_eq_true, if_false]
  rfl

theorem State.dark_forgets (s : State) : s.dark.live = [] ∧ s.dark.recs = [] ∧ s.dark.wm.cells = [] ∧
    s.dark.ks.cache = [] ∧ s.dark.ks.slots = s.ks.slots ∧ s.dark.tam.life = s.tam.life := by
  refine ⟨?_, ?_, rfl, ?_, ?_, ?_⟩
  · simp [State.dark]
  · simp [State.dark]
  · simp [State.dark, State.zeroEngines]
  · simp [State.dark]
  · simp [State.dark]

/-! ### MAIN_POWER_UP (R66-R69, R100, R571) -/

theorem Phase.up_ticks (p : Phase) (r : Option Resume) : (p.up r).ticks = p.ticks := by
  unfold Phase.up
  dsimp only
  split
  · rfl
  · split
    · rfl
    · cases r <;> rfl

theorem State.startPhase_ticks (s : State) (lost : Bool) : (s.startPhase lost).ph.ticks = s.ph.ticks := by
  have hup : (s.startPhase lost).ph = s.ph.up (s.resumeValue lost) := by
    unfold State.startPhase
    dsimp only
    split <;> simp
  rw [hup, Phase.up_ticks]

@[simp] theorem State.persistEpochs_ticks (s : State) : s.persistEpochs.ph.ticks = s.ph.ticks := by
  unfold State.persistEpochs
  split
  · rfl
  · split <;> rfl

/-- Drawing epochs counts DRBG requests, and no more of the power state changes. -/
def State.SamePower (s t : State) : Prop := ∃ n, t.pow = { s.pow with drbgReqs := n }

theorem State.SamePower.of_eq {s t : State} (h : t.pow = s.pow) : s.SamePower t := ⟨s.pow.drbgReqs, h⟩

theorem State.SamePower.foldl {α : Type} {f : State → α → State} (h : ∀ (s : State) a, s.SamePower (f s a)) (l : List α)
    (s : State) : s.SamePower (l.foldl f s) := by
  induction l generalizing s with
  | nil => exact .of_eq rfl
  | cons a l ih =>
    obtain ⟨n, hn⟩ := h s a
    obtain ⟨m, hm⟩ := ih (f s a)
    exact ⟨m, by rw [List.foldl_cons, hm, hn]⟩

theorem State.startEpochs_same (s : State) : s.SamePower s.startEpochs ∧ s.startEpochs.ph.ticks = s.ph.ticks := by
  have hstep : ∀ (t : State) (i : Nat), t.SamePower
      ((t.setCtx i { (t.ctx i).advance with epoch := 1 + fromBe (t.drawBytes 3) % 0xFFFFFF }).drewBytes 3) :=
    fun t i => ⟨t.pow.drbgReqs + 1, rfl⟩
  unfold State.startEpochs
  split
  · refine ⟨.of_eq (by simp), ?_⟩
    rw [State.advance, State.persistEpochs_ticks, State.foldl_ph (by simp), State.foldl_ph (by simp)]
  · refine ⟨?_, ?_⟩
    · obtain ⟨n, hn⟩ := State.SamePower.foldl hstep (List.range 66) s
      exact ⟨n, by simpa using hn⟩
    · rw [State.persistEpochs_ticks, State.foldl_ph (by simp)]

/-- The state that MAIN_POWER_UP comes to with a sound backup domain and no damage, before it starts the phase unit. -/
def State.poweredUp (s : State) (n : Nat) : State :=
  (((s.tick n).mapPow Power.up).mapPh (fun h => h.damage [])).flushAll.mapEvr (fun e => { e with limited := 0 })

theorem State.poweredUp_same (s : State) (n : Nat) : (s.poweredUp n).pow = s.pow.up ∧ (s.poweredUp n).tam = s.tam ∧
    (s.poweredUp n).ph.ticks = s.ph.ticks + n := by
  simp [State.poweredUp, State.tick, Phase.damage]

/-- The state in which that start comes to the boot ROM. -/
def State.beforeStart (s : State) (n : Nat) : State :=
  let t := ((s.poweredUp n).applyDecom.startPhase false).startEpochs
  let t := t.startKeys.startLanes.restartWindows.resample []
  let t := { t with vpA := { t.vpA with failed := false }, vpB := { t.vpB with failed := false } }
  t.mapCus (fun v => { v with cardA := { v.cardA with failed := false }, cardB := { v.cardB with failed := false } })

theorem exec_mainPowerUp_starts {s : State} {n : Nat} (hmain : s.pow.main = false) :
    exec (.mainPowerUp ⟨n, true, [], [], [], [], []⟩) s = ((s.beforeStart n).start []).started := by
  show execMainPowerUp _ s = _
  simp only [execMainPowerUp, State.beforeStart, State.poweredUp, hmain, Bool.false_eq_true, if_false, if_true,
    List.filter_nil, List.foldl_nil, Bool.not_true]

/-- The power state, the life-cycle state and the backup ticks at the boot ROM. -/
theorem State.beforeStart_same {s : State} (hdecom : s.tam.decom = none) (n : Nat) :
    (∃ k, (s.beforeStart n).pow = { s.pow.up with drbgReqs := k }) ∧ (s.beforeStart n).tam.life = s.tam.life ∧
      (s.beforeStart n).ph.ticks = s.ph.ticks + n := by
  obtain ⟨hpow, htam, hticks⟩ := s.poweredUp_same n
  have hgoes : (s.poweredUp n).applyDecom = s.poweredUp n := by simp [State.applyDecom, htam, hdecom]
  obtain ⟨⟨k, hk⟩, hkept⟩ := ((s.poweredUp n).startPhase false).startEpochs_same
  have hstarted : ((s.poweredUp n).startPhase false).pow = s.pow.up := by simp [hpow]
  rw [hstarted] at hk
  rw [State.beforeStart, hgoes]
  refine ⟨⟨k, ?_⟩, ?_, ?_⟩
  · simp [hk]
  · simp [State.resample, htam]
  · simp [hkept, State.startPhase_ticks, hticks]

/-! ### MODULE_READY (R571, R582, R583) -/

/-- The state in which readiness after a device reset judges a pending image. -/
def State.resetReady (s : State) (k : Nat) : State :=
  (s.mapPow (fun p => { p with starting := none })).event 0x0C03 noOrigin [byte k]

theorem State.resetReady_pow (s : State) (k : Nat) : (s.resetReady k).pow = { s.pow with starting := none } := by
  simp [State.resetReady, State.mapPow]

theorem exec_moduleReady_reset {s : State} {k : Nat} (hmain : s.pow.main = true) (hstart : s.pow.starting = some k)
    (hk : k ≠ 0) : exec .moduleReady s =
      .next ((((s.resetReady k).activateFw.mapPow (fun p => { p with ready := true })).evaluate noOrigin).scanLoops) := by
  show execModuleReady s = _
  simp [execModuleReady, hmain, hstart, hk, State.resetReady]

/-- Readiness leaves the power state of the activation, ready and with its indicator. -/
theorem State.ready_pow (s : State) : ∃ a, (((s.mapPow (fun p => { p with ready := true })).evaluate noOrigin).scanLoops).pow =
    { s.pow with ready := true, approved := a } := by
  refine ⟨(s.mapPow (fun p => { p with ready := true })).indicator, ?_⟩
  have hready : (s.mapPow (fun p => { p with ready := true })).pow.ready = true := rfl
  have hscan (t : State) : t.scanLoops.pow = t.pow := by simp
  rw [hscan, State.evaluate_pow hready, State.mapPow_pow]

theorem State.activateFw_none {s : State} (h : s.pow.pendBank = none) : s.activateFw = s := by simp [State.activateFw, h]

/-- A pending image of a module that runs is activated, and its floor is raised (R582). -/
theorem State.activateFw_pow {s : State} {b : Nat} (h : s.pow.pendBank = some b) (hrun : s.pow.halted = false) :
    s.activateFw.pow = { s.pow.raise (s.pow.bankAt b).floor with active := b, pendBank := none } := by
  simp [State.activateFw, h, hrun, State.mapPow]

theorem Power.raise_higher {p : Power} {floor : Nat} (hlow : p.floor < floor) (hrises : p.rises < 255) :
    p.raise floor = { p with floor := floor, rises := p.rises + 1 } := by simp [Power.raise, hlow, hrises]

/-! ### The statement -/

/-- Settles O45: the switches by their exec lemmas and `SwitchKept.endSwitch`, each power event by its own section above. -/
theorem powerAndDomainsSwitch : Obligations.PowerAndDomainsSwitch := by
  refine ⟨fun s d l _ hd hl => ⟨fun hjob hon hst => ?off, fun hjob hon => ?on, fun hjob hon => ?fails⟩,
    fun s n => ⟨fun hmain hwarn hi => ?warning, fun hmain => ?lost, fun hmain hpend hok hversion hdecom => ?up⟩,
    fun s k hmain hstart hk hrun => ⟨fun hpend => ?ready, fun b hpend hlow hrises => ?activates⟩⟩
  case off =>
    have hkept := State.domainEvent_kept (s.setLane (d - 2) { s.lane (d - 2) with on := false, gated := false })
      l.rq.route.origin d 0
    obtain ⟨hlanes, hlength⟩ := hkept.endSwitch (l := l) hl false
    refine ⟨_, exec_domainSwitchOffComplete_retired hd hl hjob hon hst, ?_, hlength⟩
    rw [State.lane_of_lanes hlanes, State.lane_setLane_event]
  case on =>
    have hkept := State.domainEvent_kept (s.setLane (d - 2) { s.lane (d - 2) with on := true, st := .retired })
      l.rq.route.origin d 1
    obtain ⟨hlanes, hlength⟩ := hkept.endSwitch (l := l) hl true
    refine ⟨_, exec_domainSwitchOnComplete_lane hd hl hjob hon true, ?_, ?_, hlength⟩
    · rw [if_pos rfl, State.lane_of_lanes hlanes, State.lane_setLane_event]
    · rw [if_pos rfl, State.lane_of_lanes hlanes, State.lane_setLane_event]
  case fails =>
    have hkept : SwitchKept d s ((s.event 0x0C04 l.rq.route.origin [byte (5 + d), 1#8]).noteCause (Live.switches d)
      s.evr.next) := .of_jobs (by rw [State.noteCause_live]; simp)
    refine ⟨_, exec_domainSwitchOnComplete_lane hd hl hjob hon false, ?_, ?_⟩
    · rw [if_neg Bool.false_ne_true]
      exact State.lane_of_lanes (by rw [State.finish_lanes (by simp)]; simp) _
    · rw [if_neg Bool.false_ne_true, ← hkept.length]
      exact State.finish_shortens (hkept.here (State.switchOf_mem hl)) fun _ _ _ _ => settle_done_length _ _ _ _ _ _
  case warning =>
    obtain ⟨hph, hpow, hks, hlive⟩ := (s.warnedAt n).copyWindows_same
    obtain ⟨u, hu, hupow, huph, huks, hulive⟩ := (s.warnedAt n).copyWindows.warningRecorded_same
    obtain ⟨hwarned, hcp, htp, hks', hlive'⟩ := s.warnedAt_same n
    refine ⟨u, hu ▸ exec_shutdownWarning_persists hmain hwarn hi, ?_, ?_, ?_, ?_, ?_⟩
    · rw [hupow, hpow, hwarned]
    · rw [huph, hph, hcp]
    · rw [huph, hph, htp]
    · rw [huks, hks, hks']
    · rw [hulive, hlive, hlive']
  case lost =>
    obtain ⟨hlive, hrecs, hcells, hcache, hslots, hlife⟩ := s.dark_forgets
    exact ⟨_, exec_mainPowerLost hmain, rfl, rfl, hlive, hrecs, hcells, hcache, hslots, hlife⟩
  case up =>
    obtain ⟨⟨k, hpow⟩, hlife, hticks⟩ := s.beforeStart_same hdecom n
    have hbank (i : Nat) : (s.beforeStart n).pow.bankAt i = s.pow.bankAt i := by rw [hpow]; rfl
    have hactive : (s.beforeStart n).pow.active = s.pow.active := by rw [hpow]; rfl
    have hstarts := State.start_nil_started (s := s.beforeStart n) (by rw [hpow]; rfl) (by rw [hpow]; exact hpend)
      (by rw [hactive, hpow]; exact hok) (by rw [hactive, hbank]; exact hversion)
    refine ⟨_, (exec_mainPowerUp_starts hmain).trans hstarts, ?_, ?_, ?_, hactive, ?_, hlife, hticks⟩
    all_goals rw [State.mapPow_pow, hpow]; rfl
  case ready =>
    obtain ⟨a, hpow⟩ := (s.resetReady k).activateFw.ready_pow
    have hpend' : (s.resetReady k).pow.pendBank = none := by rw [State.resetReady_pow]; exact hpend
    rw [State.activateFw_none hpend', State.resetReady_pow] at hpow
    refine ⟨_, exec_moduleReady_reset hmain hstart hk, ?_⟩
    rw [State.activateFw_none hpend', hpow]
    exact ⟨rfl, rfl, rfl, rfl⟩
  case activates =>
    obtain ⟨a, hpow⟩ := (s.resetReady k).activateFw.ready_pow
    have hpend' : (s.resetReady k).pow.pendBank = some b := by rw [State.resetReady_pow]; exact hpend
    have hrun' : (s.resetReady k).pow.halted = false := by rw [State.resetReady_pow]; exact hrun
    have hlow' : (s.resetReady k).pow.floor < ((s.resetReady k).pow.bankAt b).floor := by
      rw [State.resetReady_pow]; exact hlow
    have hrises' : (s.resetReady k).pow.rises < 255 := by rw [State.resetReady_pow]; exact hrises
    rw [State.activateFw_pow hpend' hrun', Power.raise_higher hlow' hrises', State.resetReady_pow] at hpow
    refine ⟨_, exec_moduleReady_reset hmain hstart hk, ?_⟩
    rw [hpow]
    exact ⟨rfl, rfl, rfl, rfl, rfl⟩

end Sys2Proof.Machine
end
